-- ==== Sys2Proof/Word.lean ====
section
/-!
DEFINITION. The words of the GK8140: the 32-bit register word (R9), the byte of the image and of
the ports (R4).
-/
namespace Sys2Proof

/-- One register of the 64 KiB register space (R9). -/
abbrev Word := BitVec 32

/-- One byte on a port, in the image or in the MRAM (R4). -/
abbrev Byte := BitVec 8

/-- The signed value of a `w`-bit two's complement pattern given as a natural number. -/
def sext (w n : Nat) : Int :=
  if n % 2 ^ w < 2 ^ (w - 1) then ((n % 2 ^ w : Nat) : Int) else ((n % 2 ^ w : Nat) : Int) - (2 ^ w : Nat)

/-- The `w`-bit two's complement pattern of an integer, as a natural number. -/
def unsext (w : Nat) (x : Int) : Nat := (x % ((2 ^ w : Nat) : Int)).toNat

end Sys2Proof
end

