-- ==== Sys2Proof/Syntax.lean ====
section
/-!
DEFINITION. The commands of the GK8140: one constructor of `Instr` per row of the opcode table, with the operands that
the row's event brings from outside the block (an address and a word, an axis, a pin level, a converter result, the body
of a ring segment). A register that only the row's own write carries is an operand word.
-/
namespace Sys2Proof

abbrev AxisIx := Fin 8
abbrev BridgeIx := Fin 32
abbrev SenseIx := Fin 32
abbrev CmpIx := Fin 40
abbrev EntryIx := Fin 32
abbrev AuxIx := Fin 8
abbrev PortIx := Fin 3

/-- The access path of a register access (R5, R12, R40): host port H, the DBG_ACCESS instruction, a ring management
message with the port it came in by and the node that sent it, and the device itself (an image's REG entry). -/
inductive Path where
  | host
  | dbg
  | ring (port : PortIx) (src : Nat)
  | image
deriving DecidableEq, Repr

/-- The fine path of one sense channel at a frame start (R209): the sinc3 outputs of the frame in DATA units, oldest
first, and whether a stage clipped. -/
structure FineIn where
  chan : SenseIx
  sinc : List Int
  clip : Bool
deriving DecidableEq, Repr

/-- What the frame start measures and no other command brings: the means of VM and VHOLD over the previous frame in mV
(R388, R370) and the two die temperatures in degrees (R390); the fine sinc outputs; where a hardware cause keeps the lanes
from the end of the table, the cycles of the table window whose rows they issue (R31). -/
structure FrameIn where
  vm : Nat
  vhold : Nat
  tCtrl : Int
  tAna : Int
  fine : List FineIn
  issued : Option Nat
deriving DecidableEq, Repr

/-- Activities that the device scheduler starts (Table 1.7). -/
inductive SchedAct where
  | refXcheck
  | mramScrub
  | replicaRefresh
  | choldMeasure
deriving DecidableEq, Repr

/-- The debounced inputs of an axis (R104). -/
inductive LimitInput where
  | pos
  | neg
  | home
deriving DecidableEq, Repr

/-- A mailbox slot (Table 14.2). -/
structure Mbx where
  kind : Nat
  flags : Nat
  src : Nat
  dst : Nat
  epoch : Nat
  tag : Nat
  counter : Nat
  payload : List Byte
  mac : List Byte
deriving DecidableEq, Repr

/-- A replica message (Table 15.8): the sending node and the fields of its payload. -/
structure RepMsg where
  src : Nat
  chunk : Nat
  block : Nat
  owner : Nat
  version : Nat
  body : List Byte
deriving DecidableEq, Repr

/-- A candidate of a Bellwether election as the root has read it (R127): its node, FRM_PLACE_PCT.LOAD, HOSTED and CAP of
NET_HERD_HOST, BW_ELIGIBLE with an enabled membership, its time lock, the Bellwether epoch it holds for the herd. -/
structure Candidate where
  node : Nat
  load : Nat
  hosted : Nat
  cap : Nat
  eligible : Bool
  locked : Bool
  epoch : Nat
deriving DecidableEq, Repr

/-- The commands: one constructor per row of the opcode table. -/
inductive Instr where
  /-- FRAME_START (R16). -/
  | frameStart (inp : FrameIn)
  /-- OUTPUT_STAGE (R18). -/
  | outputStage
  /-- OVR_FAULT_CLEAR (R32). -/
  | ovrFaultClear (p : Path)
  /-- GUARD_STAGE_CHECK (R33). -/
  | guardStageCheck
  /-- ADMISSION_DONE (R29). -/
  | admissionDone
  /-- MAINT_REQUEST (R35). -/
  | maintRequest (p : Path) (w : Word)
  /-- MAINT_ABORT (R42). -/
  | maintAbort (p : Path) (w : Word)
  /-- MAINT_TIMEOUT (R42). -/
  | maintTimeout (slot : Fin 16)
  /-- SCHEDULED_MAINT_START (R41). -/
  | scheduledMaintStart (a : SchedAct)
  /-- OPEN_FULL (R70). -/
  | openFull (p : Path)
  /-- OPEN_PARTIAL (R70). -/
  | openPartial (p : Path) (arg : Byte)
  /-- PARTIAL_COPY_DONE (R70). -/
  | partialCopyDone
  /-- LOAD_DATA (R71). -/
  | loadData (p : Path) (w : Word)
  /-- VERIFY (R72). -/
  | verify (p : Path)
  /-- VERIFY_DONE (R72). -/
  | verifyDone
  /-- ACTIVATE (R73). -/
  | activate (p : Path)
  /-- REVERT (R73). -/
  | revert (p : Path)
  /-- CANCEL (R77). -/
  | cancel (p : Path)
  /-- SESSION_TIMEOUT (R69). -/
  | sessionTimeout
  /-- SWAP_TIMEOUT (R76). -/
  | swapTimeout
  /-- BOOT_LOAD (R47). -/
  | bootLoad
  /-- PROGRAM_KEY (R55). -/
  | programKey (key : Byte) (slot : Fin 4)
  /-- REVOKE_KEY (R55). -/
  | revokeKey (key : Byte) (slot : Fin 4)
  /-- REQUIRE_SIG (R55). -/
  | requireSig (key : Byte) (slot : Fin 4)
  /-- OTP_DONE (R53). -/
  | otpDone
  /-- ARM (R94). -/
  | arm (p : Path) (n : AxisIx)
  /-- DISARM (R95). -/
  | disarm (p : Path) (n : AxisIx)
  /-- STOP (R99). -/
  | stop (p : Path) (n : AxisIx)
  /-- START (R102). -/
  | start (p : Path) (n : AxisIx)
  /-- HOME (R108). -/
  | home (p : Path) (n : AxisIx)
  /-- CLEAR_LIMIT (R106). -/
  | clearLimit (p : Path) (n : AxisIx)
  /-- CLEAR_FAULT (R102). -/
  | clearFault (p : Path) (n : AxisIx)
  /-- CLEAR_UNCERTAIN (R103). -/
  | clearUncertain (p : Path) (n : AxisIx)
  /-- TARGET_WRITE (R89). -/
  | targetWrite (p : Path) (n : AxisIx) (v : BitVec 48)
  /-- VTARGET_WRITE (R91). -/
  | vtargetWrite (p : Path) (n : AxisIx) (v : BitVec 40)
  /-- POS_WRITE (R97). -/
  | posWrite (p : Path) (n : AxisIx) (v : BitVec 48)
  /-- MODE_WRITE (R90). -/
  | modeWrite (p : Path) (n : AxisIx) (w : Word)
  /-- STEP_EDGE (R92). -/
  | stepEdge (n : AxisIx) (rising : Bool) (dirHigh : Bool)
  /-- LIMIT_DEBOUNCED (R104). -/
  | limitDebounced (n : AxisIx) (inp : LimitInput) (level : Bool) (cyc : Nat)
  /-- CHG_ARM (R120). -/
  | chgArm (p : Path) (n : AxisIx) (dir : Fin 4)
  /-- CHG_CANCEL (R121). -/
  | chgCancel (p : Path) (n : AxisIx)
  /-- MASTER_LOST (R126). -/
  | masterLost (memb : Fin 16)
  /-- TCMD_SUBMIT (R129). -/
  | tcmdSubmit (p : Path) (n : AxisIx) (w : Word)
  /-- TCMD_EXECUTE (R130). -/
  | tcmdExecute (n : AxisIx) (j : Fin 4)
  /-- TCMD_CANCEL (R131). -/
  | tcmdCancel (p : Path) (n : AxisIx) (w : Word)
  /-- HERD_SYNC_START (R132). -/
  | herdSyncStart (p : Path) (w : Word)
  /-- HERD_STOP (R122). -/
  | herdStop (p : Path) (w : Word)
  /-- HERD_START (R122). -/
  | herdStart (p : Path) (w : Word)
  /-- BELLWETHER_ELECTION (R127). -/
  | bellwetherElection (herd : Byte) (cands : List Candidate)
  /-- ELECT_WIN (R128). -/
  | electWin (q : PortIx) (m : Mbx)
  /-- ELECT_DECLINE (R359). -/
  | electDecline (q : PortIx) (m : Mbx)
  /-- SENSE_LOST (R145). -/
  | senseLost (n : AxisIx)
  /-- LOOP_SAT (R146). -/
  | loopSat (n : AxisIx) (phase : Fin 2)
  /-- STANDSTILL_DELAY (R149). -/
  | standstillDelay (n : AxisIx)
  /-- GUARD_RELEASE (R154). -/
  | guardRelease (n : AxisIx)
  /-- STRETCH_PULSE (R156). -/
  | stretchPulse (n : AxisIx) (phase : Fin 2)
  /-- OPEN_COIL (R158). -/
  | openCoil (n : AxisIx) (phase : Fin 2)
  /-- PHASE_AGE_OUT (R157). -/
  | phaseAgeOut (n : AxisIx) (phase : Fin 2)
  /-- COMM_OFFSET_WRITE (R139). -/
  | commOffsetWrite (p : Path) (n : AxisIx) (w : Word)
  /-- ENC_SCALE_WRITE (R139). -/
  | encScaleWrite (p : Path) (n : AxisIx) (reg : Fin 3) (w : Word)
  /-- ENC_CAL_DONE (R140). -/
  | encCalDone (n : AxisIx)
  /-- PWM_BOUNDARY (R165). -/
  | pwmBoundary (n : AxisIx)
  /-- PWM_COMMIT (R165). -/
  | pwmCommit (p : Path) (k : BridgeIx) (cyc : Nat)
  /-- PWM_FORCE (R170). -/
  | pwmForce (p : Path) (k : BridgeIx) (w : Word)
  /-- FAULT_LATCH_SET (R171). -/
  | faultLatchSet (n : AxisIx) (code : Fin 8)
  /-- PWM_FAULT_FORCE (R174). -/
  | pwmFaultForce (p : Path) (w : Word)
  /-- FAULT_LATCH_CLEAR (R175). -/
  | faultLatchClear (p : Path) (w : Word)
  /-- AUX_COMMIT (R176). -/
  | auxCommit (p : Path) (a : AuxIx) (cyc : Nat)
  /-- AUX_WINDOW_END (R176). -/
  | auxWindowEnd (a : AuxIx)
  /-- TIMER_EVENT (R178). -/
  | timerEvent (u : Fin 16) (kind : Fin 3)
  /-- DEMAND_EDGE (R184). -/
  | demandEdge (k : BridgeIx) (t : Nat)
  /-- GATE_TURN_ON (R184). -/
  | gateTurnOn (k : BridgeIx) (dt : Nat)
  /-- HANDSHAKE_TIMEOUT (R185). -/
  | handshakeTimeout (k : BridgeIx)
  /-- BST_UV_EVENT (R188). -/
  | bstUvEvent (k : BridgeIx)
  /-- VDS_TRIP (R190). -/
  | vdsTrip (k : BridgeIx) (high : Bool)
  /-- DRV_EN_LOW (R193). -/
  | drvEnLow
  /-- DRV_EN_HIGH (R193). -/
  | drvEnHigh
  /-- FAULT_N_LOW (R194). -/
  | faultNLow
  /-- GDR_TRIP_CLEAR (R192). -/
  | gdrTripClear (p : Path) (reg : Fin 3) (w : Word)
  /-- FAST_OUTPUT (R207). -/
  | fastOutput (c : SenseIx) (raw : Int) (clip : Bool)
  /-- CM_OUT (R205). -/
  | cmOut (c : SenseIx)
  /-- CSA_CFG_WRITE (R213). -/
  | csaCfgWrite (p : Path) (c : SenseIx) (w : Word)
  /-- CSA_SYNC (R217). -/
  | csaSync (p : Path)
  /-- DCB_EST_WRITE (R224). -/
  | dcbEstWrite (p : Path) (c : SenseIx) (w : Word)
  /-- OFFSET_CAL_DONE (R226). -/
  | offsetCalDone (c : SenseIx)
  /-- ANA_OK_CHANGE (R228). -/
  | anaOkChange (ok : Bool)
  /-- QUAD_TRANSITION (R232). -/
  | quadTransition (n : AxisIx) (a : Bool) (b : Bool) (cyc : Nat)
  /-- INDEX_EVENT (R233). -/
  | indexEvent (n : AxisIx) (cyc : Nat)
  /-- NO_SIGNAL (R235). -/
  | noSignal (n : AxisIx)
  /-- AMP_BAD (R236). -/
  | ampBad (n : AxisIx)
  /-- HALL_CHANGE (R237). -/
  | hallChange (n : AxisIx) (u : Bool) (v : Bool) (w : Bool) (cyc : Nat)
  /-- HALL_INVALID (R237). -/
  | hallInvalid (n : AxisIx)
  /-- SSI_TRANSFER_DONE (R239). -/
  | ssiTransferDone (n : AxisIx) (line : Bool) (bits : List Bool)
  /-- FBK_POS_WRITE (R243). -/
  | fbkPosWrite (p : Path) (n : AxisIx) (v : BitVec 48)
  /-- FBK_MODE_WRITE (R243). -/
  | fbkModeWrite (p : Path) (n : AxisIx) (w : Word)
  /-- FBK_STANDSTILL (R246). -/
  | fbkStandstill (n : AxisIx) (cyc : Nat)
  /-- FBK_FAULT_CLEAR (R249). -/
  | fbkFaultClear (p : Path) (n : AxisIx) (w : Word)
  /-- DEV_SYNC (R267). -/
  | devSync (p : Path) (n : AxisIx) (w : Word)
  /-- MOTOR_R_WRITE (R261). -/
  | motorRWrite (p : Path) (n : AxisIx) (w : Word)
  /-- PMC_START (R278). -/
  | pmcStart (p : Path)
  /-- PMC_STOP (R281). -/
  | pmcStop (p : Path)
  /-- PMC_URGENT (R280). -/
  | pmcUrgent (p : Path)
  /-- SCAN_TRIGGER (R278). -/
  | scanTrigger
  /-- URGENT_TRIGGER (R280). -/
  | urgentTrigger
  /-- CONVERSION_DONE (R276). -/
  | conversionDone (onB : Bool) (x : Int) (cyc : Nat)
  /-- INTERLEAVE_B_START (R285). -/
  | interleaveBStart
  /-- PMC_CFG_WRITE (R277). -/
  | pmcCfgWrite (p : Path) (e : EntryIx) (w : Word)
  /-- REF_READY (R287). -/
  | refReady (cyc : Nat)
  /-- REF_SELECT (R288). -/
  | refSelect (p : Path) (w : Word)
  /-- REF_XCHECK_DONE (R291). -/
  | refXcheckDone (ab : Nat) (ac : Nat) (bc : Nat)
  /-- REF_FAILED_CLEAR (R294). -/
  | refFailedClear (p : Path) (w : Word)
  /-- CMP_TRIP (R303). -/
  | cmpTrip (c : CmpIx) (cyc : Nat)
  /-- CMP_RELEASE (R300). -/
  | cmpRelease (c : CmpIx) (cyc : Nat)
  /-- CMP_DAC_WRITE (R305). -/
  | cmpDacWrite (p : Path) (c : CmpIx) (w : Word)
  /-- CMP_TEST_WRITE (R308). -/
  | cmpTestWrite (p : Path) (c : CmpIx) (w : Word)
  /-- CMP_SELFTEST_DONE (R309). -/
  | cmpSelftestDone (c : CmpIx) (fail : Fin 6)
  /-- DAC_READBACK_DONE (R310). -/
  | dacReadbackDone (c : CmpIx) (x : Int)
  /-- CMP_OUTPUTS_ENABLED (R311). -/
  | cmpOutputsEnabled
  /-- LINK_UP (R317). -/
  | linkUp (q : PortIx)
  /-- TRAIN_RECEIVED (R317). -/
  | trainReceived (q : PortIx) (body : List Byte) (gapH : Nat)
  /-- TRAIN_INTERVAL (R342). -/
  | trainInterval (q : PortIx)
  /-- TRAIN_TIMEOUT (R317). -/
  | trainTimeout (q : PortIx)
  /-- LOOP_REQ_TIMEOUT (R338). -/
  | loopReqTimeout (q : PortIx)
  /-- LINK_LOST (R334). -/
  | linkLost (q : PortIx)
  /-- SEGMENT_RECEIVED (R321). -/
  | segmentReceived (q : PortIx) (bytes : List Byte)
  /-- RING_PASS (R322). -/
  | ringPass (q : PortIx) (segs : List (List Byte)) (hdrH : Int) (cyc : Nat) (ready : List (Nat × Nat))
  /-- ROOT_CYCLE_START (R319). -/
  | rootCycleStart (cmds : List (List Byte)) (sources : List Byte)
  /-- ROOT_PASS_RETURN (R335). -/
  | rootPassReturn (q : PortIx) (segs : List (List Byte)) (elapsed : Nat)
  /-- ISOLATED (R337). -/
  | isolated
  /-- BECOME_ROOT (R337). -/
  | becomeRoot
  /-- HOLDOVER_EXPIRY (R344). -/
  | holdoverExpiry
  /-- TIME_SET (R347). -/
  | timeSet (p : Path) (fromCal : Bool)
  /-- ENUMERATE (R359). -/
  | enumerate (p : Path)
  /-- MGMT_READ (R354). -/
  | mgmtRead (q : PortIx) (m : Mbx)
  /-- MGMT_WRITE (R354). -/
  | mgmtWrite (q : PortIx) (m : Mbx)
  /-- ROLE_SET (R355). -/
  | roleSet (q : PortIx) (m : Mbx)
  /-- ROLE_GET (R355). -/
  | roleGet (q : PortIx) (m : Mbx)
  /-- SUP_LOST (R358). -/
  | supLost
  /-- NET_OFFSET_WRITE (R343). -/
  | netOffsetWrite (p : Path) (q : PortIx) (w : Word)
  /-- NVS_LOAD (R365). -/
  | nvsLoad (p : Path) (id : Byte)
  /-- NVS_COMMIT (R365). -/
  | nvsCommit (p : Path) (id : Byte)
  /-- NVS_ACK (R367). -/
  | nvsAck (p : Path) (id : Byte)
  /-- SAVE_STATE (R364). -/
  | saveState (p : Path) (id : Byte)
  /-- RESTORE (R382). -/
  | restore (p : Path) (id : Byte)
  /-- BLANK_RESTORE_START (R382). -/
  | blankRestoreStart
  /-- RECORD_COMMIT_START (R364). -/
  | recordCommitStart
  /-- RECORD_COMMIT_DONE (R363). -/
  | recordCommitDone (remaps : Nat)
  /-- SAFETY_AUTOSAVE (R364). -/
  | safetyAutosave (n : AxisIx)
  /-- ENERGY_RETRY (R364). -/
  | energyRetry
  /-- RECORD_READ (R366). -/
  | recordRead
  /-- PLS_WRITE_START (R371). -/
  | plsWriteStart
  /-- PLS_DONE (R371). -/
  | plsDone
  /-- CONSUMED_MARK (R374). -/
  | consumedMark
  /-- LOG_CHUNK_WRITE (R375). -/
  | logChunkWrite (remaps : Nat)
  /-- LOG_FLUSH_TIMER (R375). -/
  | logFlushTimer
  /-- LOG_SELECT (R376). -/
  | logSelect (p : Path) (w : Word)
  /-- SCRUB_DONE (R377). -/
  | scrubDone (corrected : Nat) (bad : List Nat)
  /-- CHOLD_MEASURE_DONE (R368). -/
  | choldMeasureDone (dv1 : Nat) (dv2 : Nat) (t : Nat)
  /-- REPLICA_REFRESH_RUN (R381). -/
  | replicaRefreshRun (daily : Bool)
  /-- REPLICA_OFFER (R380). -/
  | replicaOffer (m : RepMsg)
  /-- REPLICA_ACCEPT (R379). -/
  | replicaAccept (m : RepMsg)
  /-- REPLICA_DECLINE (R379). -/
  | replicaDecline (m : RepMsg)
  /-- OFFER_TIMEOUT (R379). -/
  | offerTimeout (k : Fin 2)
  /-- REPLICA_DATA (R381). -/
  | replicaData (m : RepMsg)
  /-- REPLICA_BLOCK_ACK (R381). -/
  | replicaBlockAck (m : RepMsg)
  /-- REPLICA_BLOCK_NAK (R381). -/
  | replicaBlockNak (m : RepMsg)
  /-- REPLICA_COMPLETE (R381). -/
  | replicaComplete (m : RepMsg)
  /-- REPLICA_VERIFY (R381). -/
  | replicaVerify (m : RepMsg)
  /-- REPLICA_VERIFY_ACK (R381). -/
  | replicaVerifyAck (m : RepMsg)
  /-- REPLICA_RELEASE (R380). -/
  | replicaRelease (m : RepMsg)
  /-- REPLICA_FETCH (R382). -/
  | replicaFetch (m : RepMsg)
  /-- RESTORE_OFFER_WINDOW (R382). -/
  | restoreOfferWindow
  /-- REPLICA_KEEP_EXPIRY (R380). -/
  | replicaKeepExpiry (j : Fin 3)
  /-- POWER_UP (R395). -/
  | powerUp
  /-- SUPPLY_RESET (R391). -/
  | supplyReset
  /-- RST_N_RESET (R392). -/
  | rstNReset
  /-- WATCHDOG_EXPIRE (R393). -/
  | watchdogExpire
  /-- SOFTWARE_RESET (R394). -/
  | softwareReset (p : Path) (w : Word)
  /-- RESET_RELEASE (R391). -/
  | resetRelease
  /-- WATCHDOG_START (R393). -/
  | watchdogStart (p : Path) (w : Word)
  /-- WATCHDOG_KICK (R393). -/
  | watchdogKick (p : Path) (w : Word)
  /-- VM_FAIL (R398). -/
  | vmFail
  /-- VM_GOOD (R400). -/
  | vmGood
  /-- VM_OV (R387). -/
  | vmOv (high : Bool)
  /-- VDRV_FAIL (R389). -/
  | vdrvFail (high : Bool)
  /-- VDRV_READY (R443). -/
  | vdrvReady
  /-- VDRV_EN_WRITE (R443). -/
  | vdrvEnWrite (p : Path) (w : Word)
  /-- TSD (R390). -/
  | tsd
  /-- TSD_CLEAR (R390). -/
  | tsdClear
  /-- TEMP_WARN (R390). -/
  | tempWarn (warn : Bool)
  /-- HU_READY (R396). -/
  | huReady
  /-- CHOLD_START_TIMEOUT (R396). -/
  | choldStartTimeout
  /-- SHED (R401). -/
  | shed
  /-- SHED_RESTART (R401). -/
  | shedRestart
  /-- GUARD_DOMAIN_RESET (R403). -/
  | guardDomainReset
  /-- VBAT_LOW (R389). -/
  | vbatLow (low : Bool)
  /-- VIO_CHANGE (R389). -/
  | vioChange (ok : Bool)
  /-- BACKUP_POR (R404). -/
  | backupPor
  /-- CAL_SECOND (R406). -/
  | calSecond (cyc : Nat)
  /-- CAL_SET (R406). -/
  | calSet (p : Path) (w : Word)
  /-- CAL_SNAPSHOT (R405). -/
  | calSnapshot (p : Path)
  /-- CAL_NET_SYNC (R409). -/
  | calNetSync
  /-- OSC_STOP (R408). -/
  | oscStop
  /-- OSC_RESUME (R408). -/
  | oscResume
  /-- HOST_READ (R414). -/
  | hostRead (a : BitVec 16) (n : Fin 64) (crc : Byte) (cyc : Nat)
  /-- HOST_WRITE (R414). -/
  | hostWrite (a : BitVec 16) (words : List Word) (crcH crcD : Byte) (cyc fin : Nat)
  /-- HOST_WRITE_FIXED (R412). -/
  | hostWriteFixed (a : BitVec 16) (words : List Word) (crcH crcD : Byte) (cyc fin : Nat)
  /-- HOST_REREAD (R417). -/
  | hostReread (a : BitVec 16) (n : Fin 64) (crc : Byte) (cyc : Nat)
  /-- HOST_ABORT (R416). -/
  | hostAbort (cmd : Byte) (a : BitVec 16) (crc : Byte) (k : Nat) (cyc : Nat)
  /-- DBG_HALT (R420). -/
  | dbgHalt (p : Path)
  /-- DBG_HALT_SAFE (R421). -/
  | dbgHaltSafe (p : Path)
  /-- DBG_RESUME (R420). -/
  | dbgResume (p : Path)
  /-- DBG_STEP (R420). -/
  | dbgStep (p : Path)
  /-- DBG_RESET (R420). -/
  | dbgReset (p : Path)
  /-- DBG_LOCK (R422). -/
  | dbgLock (p : Path) (w : Word)
  /-- TEST_TABLE_WRITE (R425). -/
  | testTableWrite (p : Path) (w : Word)
  /-- TEST_PWM_DRIVE (R425). -/
  | testPwmDrive (p : Path) (w : Word)
  /-- TEST_MRAM_ACCESS (R425). -/
  | testMramAccess (p : Path) (w : Word)
  /-- TEST_NONE (R425). -/
  | testNone (p : Path) (w : Word)
  /-- JTAG_SAMPLE_PRELOAD (R424). -/
  | jtagSamplePreload (cells : List Bool)
  /-- DBG_ACCESS_READ (R423). -/
  | dbgAccessRead (a : BitVec 16)
  /-- DBG_ACCESS_WRITE (R423). -/
  | dbgAccessWrite (a : BitVec 16) (w : Word)
  /-- DBG_ACCESS_FETCH (R423). -/
  | dbgAccessFetch
  /-- REGISTER_WRITE (R12). -/
  | registerWrite (p : Path) (a : BitVec 16) (w : Word)
  /-- W1C_WRITE (R12). -/
  | w1cWrite (p : Path) (a : BitVec 16) (w : Word)
  /-- RC_READ (R13). -/
  | rcRead (p : Path) (a : BitVec 16)
  /-- WIDE_LOW_READ (R5). -/
  | wideLowRead (p : Path) (a : BitVec 16)
  /-- WIDE_LOW_WRITE (R5). -/
  | wideLowWrite (p : Path) (a : BitVec 16) (w : Word)
  /-- VDS_RELEASE (R190). -/
  | vdsRelease (k : BridgeIx) (high : Bool)
  /-- BST_UV_RELEASE (R188). -/
  | bstUvRelease (k : BridgeIx)
  /-- GATE_OFF_REACHED (R183). -/
  | gateOffReached (k : BridgeIx) (high : Bool)
  /-- CM_OUT_CLEAR (R205). -/
  | cmOutClear (c : SenseIx)
  /-- AUX_COMPARE_EDGE (R176). -/
  | auxCompareEdge (a : AuxIx) (t : Nat)
  /-- DIGITAL_BALL_CHANGE (R440). -/
  | digitalBallChange (ball : Nat) (level : Bool)
  /-- LINK_MODE_REFUSED (R313). -/
  | linkModeRefused (q : PortIx)
  /-- INVALID_CODE_GROUP (R339). -/
  | invalidCodeGroup (q : PortIx)
  /-- PRBS_LOCK (R338). -/
  | prbsLock (q : PortIx)
  /-- PRBS_LOCK_LOST (R338). -/
  | prbsLockLost (q : PortIx)
  /-- PRBS_BIT_ERROR (R338). -/
  | prbsBitError (q : PortIx)
  /-- TABLE_RELOAD_DONE (R426). -/
  | tableReloadDone
  /-- JTAG_IDCODE (R423). -/
  | jtagIdcode
  /-- JTAG_EXTEST (R424). -/
  | jtagExtest
  /-- JTAG_CLAMP (R424). -/
  | jtagClamp
  /-- JTAG_HIGHZ (R424). -/
  | jtagHighz
  /-- JTAG_BYPASS (R423). -/
  | jtagBypass
  /-- TAP_RESET (R423). -/
  | tapReset
  /-- FAULT_N_HIGH (R194). -/
  | faultNHigh
  /-- HU_READY_CLEAR (R396). -/
  | huReadyClear
  /-- VGRD_OK (R403). -/
  | vgrdOk
  /-- VDRV_OV_RESTART (R443). -/
  | vdrvOvRestart
deriving DecidableEq, Repr

end Sys2Proof
end

