-- ==== Sys2Proof/Decode.lean ====
section
/-!
DEFINITION. Words of the command table. The table gives its rows no bits: a command is an event or an access, never a
word, so no word spells one.
-/
namespace Sys2Proof

/-- The command that a word of `nbits` bits spells: none, since no row of the table gives bits. -/
def decodeTableWord (_nbits _w : Nat) : Option Instr := none

end Sys2Proof
end

