-- ==== Sys2Proof/Machine/RegMap.lean ====
section
/-!
DEFINITION. The register map (R9, Table 0.7): the address of every register the chapters define, the place of
every field in it, and one row per register with the bits of each access type (R12, Table 0.8) and the value at reset.
A register that the spec indexes takes its index. Resets that the spec gives no number for are 0 here (assumption 1).
-/
namespace Sys2Proof.Machine

/-- A field of a register: its byte offset, its lowest bit, its width. -/
structure Fld where
  addr : Nat
  lo : Nat
  len : Nat
deriving DecidableEq, Repr

/-- One register row: base offset, one or two index dimensions (count, stride), the bits of each access type of
Table 0.8 and the reset value. -/
structure RegRow where
  base : Nat
  n1 : Nat
  s1 : Nat
  n2 : Nat
  s2 : Nat
  rw : Nat
  rwl : Nat
  w1c : Nat
  w1s : Nat
  rc : Nat
  reset : Nat
deriving DecidableEq, Repr

namespace R
def FRM_PERIOD : Nat := 0x0400
def FRM_COUNT : Nat := 0x0404
def FRM_CTRL : Nat := 0x0408
def FRM_STATUS : Nat := 0x040C
def FRM_OVR_COUNT : Nat := 0x0410
def FRM_SWAP_FRAME : Nat := 0x0414
def FRM_PWM_DIV : Nat := 0x0418
def FRM_PLACE_TOTAL : Nat := 0x0420
def FRM_PLACE_LIMIT : Nat := 0x0424
def FRM_PLACE_LANEi (n : Nat) : Nat := 0x0428 + n * 0x4
def FRM_PLACE_PCT : Nat := 0x0438
def FRM_PLACE_TASKn (n : Nat) : Nat := 0x0440 + n * 0x4
def FRM_MAINT_REQ : Nat := 0x0600
def FRM_MAINT_RESULT : Nat := 0x0604
def FRM_MAINT_ABORT : Nat := 0x0608
def FRM_MAINT_BUSY_CNT : Nat := 0x060C
def FRM_MAINT_SKIP_CNT : Nat := 0x0610
def FRM_MAINT_SLOTn (n : Nat) : Nat := 0x0640 + n * 0x4
def FRM_IRQ_STATUS : Nat := 0x0700
def FRM_IRQ_ENABLE : Nat := 0x0704
def CFG_STATUS : Nat := 0x0800
def CFG_LOAD_CMD : Nat := 0x0804
def CFG_LOAD_ADDR : Nat := 0x0808
def CFG_LOAD_DATA : Nat := 0x080C
def CFG_RESULT : Nat := 0x0810
def CFG_SWAP_TIMEOUT : Nat := 0x0814
def CFG_ACTIVE_ID : Nat := 0x0818
def CFG_PART_CRCi (n : Nat) : Nat := 0x0820 + n * 0x4
def CFG_KEY_STATUS : Nat := 0x0850
def CFG_OTP_CMD : Nat := 0x0854
def CFG_OTP_DATAi (n : Nat) : Nat := 0x0860 + n * 0x4
def CFG_TABLE_PAGE : Nat := 0x08A0
def CFG_IRQ_STATUS : Nat := 0x08C0
def CFG_IRQ_ENABLE : Nat := 0x08C4
def MOTn_MODE (n : Nat) : Nat := 0x1000 + n * 0x200
def MOTn_CMD (n : Nat) : Nat := 0x1004 + n * 0x200
def MOTn_RESULT (n : Nat) : Nat := 0x1008 + n * 0x200
def MOTn_STATUS (n : Nat) : Nat := 0x100C + n * 0x200
def MOTn_VSTART (n : Nat) : Nat := 0x1010 + n * 0x200
def MOTn_VSTART_HI (n : Nat) : Nat := 0x1014 + n * 0x200
def MOTn_VMAX (n : Nat) : Nat := 0x1018 + n * 0x200
def MOTn_VMAX_HI (n : Nat) : Nat := 0x101C + n * 0x200
def MOTn_VBREAK (n : Nat) : Nat := 0x1020 + n * 0x200
def MOTn_VBREAK_HI (n : Nat) : Nat := 0x1024 + n * 0x200
def MOTn_VSTOP (n : Nat) : Nat := 0x1028 + n * 0x200
def MOTn_VSTOP_HI (n : Nat) : Nat := 0x102C + n * 0x200
def MOTn_A1 (n : Nat) : Nat := 0x1030 + n * 0x200
def MOTn_A2 (n : Nat) : Nat := 0x1034 + n * 0x200
def MOTn_D2 (n : Nat) : Nat := 0x1038 + n * 0x200
def MOTn_D1 (n : Nat) : Nat := 0x103C + n * 0x200
def MOTn_TARGET (n : Nat) : Nat := 0x1040 + n * 0x200
def MOTn_TARGET_HI (n : Nat) : Nat := 0x1044 + n * 0x200
def MOTn_POS (n : Nat) : Nat := 0x1048 + n * 0x200
def MOTn_POS_HI (n : Nat) : Nat := 0x104C + n * 0x200
def MOTn_VEL (n : Nat) : Nat := 0x1050 + n * 0x200
def MOTn_VEL_HI (n : Nat) : Nat := 0x1054 + n * 0x200
def MOTn_VTARGET (n : Nat) : Nat := 0x1058 + n * 0x200
def MOTn_VTARGET_HI (n : Nat) : Nat := 0x105C + n * 0x200
def MOTn_MODULO (n : Nat) : Nat := 0x1060 + n * 0x200
def MOTn_MODULO_HI (n : Nat) : Nat := 0x1064 + n * 0x200
def MOTn_SOFT_MIN (n : Nat) : Nat := 0x1068 + n * 0x200
def MOTn_SOFT_MIN_HI (n : Nat) : Nat := 0x106C + n * 0x200
def MOTn_SOFT_MAX (n : Nat) : Nat := 0x1070 + n * 0x200
def MOTn_SOFT_MAX_HI (n : Nat) : Nat := 0x1074 + n * 0x200
def MOTn_STOP_STYLE (n : Nat) : Nat := 0x1078 + n * 0x200
def MOTn_LIMIT_CFG (n : Nat) : Nat := 0x107C + n * 0x200
def MOTn_HOME_CFG (n : Nat) : Nat := 0x1080 + n * 0x200
def MOTn_HOME_VEL (n : Nat) : Nat := 0x1084 + n * 0x200
def MOTn_HOME_VEL_HI (n : Nat) : Nat := 0x1088 + n * 0x200
def MOTn_HOME_TRAVEL (n : Nat) : Nat := 0x108C + n * 0x200
def MOTn_HOME_OFFSET (n : Nat) : Nat := 0x1090 + n * 0x200
def MOTn_HOME_OFFSET_HI (n : Nat) : Nat := 0x1094 + n * 0x200
def MOTn_LATCH (n : Nat) : Nat := 0x1098 + n * 0x200
def MOTn_LATCH_HI (n : Nat) : Nat := 0x109C + n * 0x200
def MOTn_HOME_BACKOFF (n : Nat) : Nat := 0x10A0 + n * 0x200
def MOTn_FOLLOW_CFG (n : Nat) : Nat := 0x10A4 + n * 0x200
def MOTn_STEP_DROP (n : Nat) : Nat := 0x10A8 + n * 0x200
def MOTn_STOP_CAUSE (n : Nat) : Nat := 0x10AC + n * 0x200
def MOTn_IRQ_STATUS (n : Nat) : Nat := 0x10B0 + n * 0x200
def MOTn_IRQ_ENABLE (n : Nat) : Nat := 0x10B4 + n * 0x200
def MOTn_GEAR_CFG (n : Nat) : Nat := 0x1100 + n * 0x200
def MOTn_GEAR_NUM (n : Nat) : Nat := 0x1104 + n * 0x200
def MOTn_GEAR_DEN (n : Nat) : Nat := 0x1108 + n * 0x200
def MOTn_GEAR_NEXT_NUM (n : Nat) : Nat := 0x110C + n * 0x200
def MOTn_GEAR_NEXT_DEN (n : Nat) : Nat := 0x1110 + n * 0x200
def MOTn_GEAR_BLEND (n : Nat) : Nat := 0x1114 + n * 0x200
def MOTn_GEAR_CHG_POS (n : Nat) : Nat := 0x1118 + n * 0x200
def MOTn_GEAR_CHG_POS_HI (n : Nat) : Nat := 0x111C + n * 0x200
def MOTn_GEAR_CTRL (n : Nat) : Nat := 0x1120 + n * 0x200
def MOTn_GEAR_STATUS (n : Nat) : Nat := 0x1124 + n * 0x200
def MOTn_GEAR_MASTER (n : Nat) : Nat := 0x1128 + n * 0x200
def MOTn_GEAR_MASTER_HI (n : Nat) : Nat := 0x112C + n * 0x200
def MOTn_GEAR_JUMP_MAX (n : Nat) : Nat := 0x1130 + n * 0x200
def MOTn_GEAR_IRQ_STATUS (n : Nat) : Nat := 0x1138 + n * 0x200
def MOTn_GEAR_IRQ_ENABLE (n : Nat) : Nat := 0x113C + n * 0x200
def MOTn_TCMD_TIME (n : Nat) : Nat := 0x1140 + n * 0x200
def MOTn_TCMD_TIME_HI (n : Nat) : Nat := 0x1144 + n * 0x200
def MOTn_TCMD_ARG (n : Nat) : Nat := 0x1148 + n * 0x200
def MOTn_TCMD_ARG_HI (n : Nat) : Nat := 0x114C + n * 0x200
def MOTn_TCMD_SUBMIT (n : Nat) : Nat := 0x1150 + n * 0x200
def MOTn_TCMD_RESULT (n : Nat) : Nat := 0x1154 + n * 0x200
def MOTn_TCMD_SLOTj (n j : Nat) : Nat := 0x1158 + n * 0x200 + j * 0x4
def MOTn_TCMD_CANCEL (n : Nat) : Nat := 0x1168 + n * 0x200
def MOTn_TCMD_DROP_CNT (n : Nat) : Nat := 0x116C + n * 0x200
def NET_HERDi_CFG (n : Nat) : Nat := 0x5C00 + n * 0x10
def NET_HERDi_SRC (n : Nat) : Nat := 0x5C04 + n * 0x10
def NET_HERDi_PARAM (n : Nat) : Nat := 0x5C08 + n * 0x10
def NET_HERDi_STATUS (n : Nat) : Nat := 0x5C0C + n * 0x10
def NET_HERD_HOST : Nat := 0x5D00
def NET_HERD_CMD : Nat := 0x5D04
def NET_HERD_RESULT : Nat := 0x5D08
def NET_HERD_IRQ_ENABLE : Nat := 0x5D0C
def CURn_CFG (n : Nat) : Nat := 0x2000 + n * 0x100
def CURn_STATUS (n : Nat) : Nat := 0x2004 + n * 0x100
def CURn_IRUN (n : Nat) : Nat := 0x2008 + n * 0x100
def CURn_IHOLD (n : Nat) : Nat := 0x200C + n * 0x100
def CURn_ICL_MIN (n : Nat) : Nat := 0x2010 + n * 0x100
def CURn_KP (n : Nat) : Nat := 0x2014 + n * 0x100
def CURn_KI (n : Nat) : Nat := 0x2018 + n * 0x100
def CURn_STANDSTILL (n : Nat) : Nat := 0x201C + n * 0x100
def CURn_GUARD (n : Nat) : Nat := 0x2020 + n * 0x100
def CURn_COMM_OFFSET (n : Nat) : Nat := 0x2024 + n * 0x100
def CURn_LEAD (n : Nat) : Nat := 0x2028 + n * 0x100
def CURn_ENC_NUM (n : Nat) : Nat := 0x202C + n * 0x100
def CURn_ENC_DEN (n : Nat) : Nat := 0x2030 + n * 0x100
def CURn_DIAG_CFG (n : Nat) : Nat := 0x2034 + n * 0x100
def CURn_DIAG_STATUS (n : Nat) : Nat := 0x2038 + n * 0x100
def CURn_IA (n : Nat) : Nat := 0x203C + n * 0x100
def CURn_IB (n : Nat) : Nat := 0x2040 + n * 0x100
def CURn_SETP (n : Nat) : Nat := 0x2044 + n * 0x100
def CURn_UOUT (n : Nat) : Nat := 0x2048 + n * 0x100
def CURn_ANGLE (n : Nat) : Nat := 0x204C + n * 0x100
def CURn_HOLD_CNT (n : Nat) : Nat := 0x2050 + n * 0x100
def CURn_IRQ_STATUS (n : Nat) : Nat := 0x2054 + n * 0x100
def CURn_IRQ_ENABLE (n : Nat) : Nat := 0x2058 + n * 0x100
def CURn_SHUNT (n : Nat) : Nat := 0x205C + n * 0x100
def PWMk_CMP_RISE (n : Nat) : Nat := 0x2800 + n * 0x20
def PWMk_CMP_FALL (n : Nat) : Nat := 0x2804 + n * 0x20
def PWMk_COMMIT (n : Nat) : Nat := 0x2808 + n * 0x20
def PWMk_ACT_RISE (n : Nat) : Nat := 0x280C + n * 0x20
def PWMk_ACT_FALL (n : Nat) : Nat := 0x2810 + n * 0x20
def PWMk_CFG (n : Nat) : Nat := 0x2814 + n * 0x20
def PWMk_FORCE (n : Nat) : Nat := 0x2818 + n * 0x20
def PWMk_STATUS (n : Nat) : Nat := 0x281C + n * 0x20
def PWM_AUXa_CMP_RISE (n : Nat) : Nat := 0x2C00 + n * 0x20
def PWM_AUXa_CMP_FALL (n : Nat) : Nat := 0x2C04 + n * 0x20
def PWM_AUXa_COMMIT (n : Nat) : Nat := 0x2C08 + n * 0x20
def PWM_AUXa_ACT_RISE (n : Nat) : Nat := 0x2C0C + n * 0x20
def PWM_AUXa_ACT_FALL (n : Nat) : Nat := 0x2C10 + n * 0x20
def PWM_AUXa_CFG (n : Nat) : Nat := 0x2C14 + n * 0x20
def PWM_AUXa_STATUS (n : Nat) : Nat := 0x2C18 + n * 0x20
def PWM_AXn_COUNT (n : Nat) : Nat := 0x2D00 + n * 0x4
def PWM_EVTu_CFG (n : Nat) : Nat := 0x2D40 + n * 0x4
def PWM_EVTu_CMP (n : Nat) : Nat := 0x2D80 + n * 0x4
def PWM_FAULT_LATCH : Nat := 0x2E00
def PWM_FAULT_FORCE : Nat := 0x2E04
def PWM_LATE_CNT : Nat := 0x2E08
def PWM_STATUS : Nat := 0x2E0C
def PWM_IRQ_STATUS : Nat := 0x2E10
def PWM_IRQ_ENABLE : Nat := 0x2E14
def PWM_EVT_STATUS : Nat := 0x2E18
def PWM_EVT_ENABLE : Nat := 0x2E1C
def PWM_FAULT_SRCn (n : Nat) : Nat := 0x2E20 + n * 0x4
def GDRk_DRIVE (n : Nat) : Nat := 0x3000 + n * 0x10
def GDRk_CFG (n : Nat) : Nat := 0x3004 + n * 0x10
def GDRk_VDS (n : Nat) : Nat := 0x3008 + n * 0x10
def GDRk_STATUS (n : Nat) : Nat := 0x300C + n * 0x10
def GDR_CTRL : Nat := 0x3200
def GDR_BST_UV : Nat := 0x3204
def GDR_HS_FAIL : Nat := 0x3208
def GDR_VDS_H : Nat := 0x320C
def GDR_VDS_L : Nat := 0x3210
def GDR_STATUS : Nat := 0x3214
def GDR_GUARDn (n : Nat) : Nat := 0x3220 + n * 0x4
def GDR_IRQ_STATUS : Nat := 0x3240
def GDR_IRQ_ENABLE : Nat := 0x3244
def CSAs_CFG (n : Nat) : Nat := 0x3400 + n * 0x20
def CSAs_OFFSET (n : Nat) : Nat := 0x3404 + n * 0x20
def CSAs_GAIN (n : Nat) : Nat := 0x3408 + n * 0x20
def CSAs_FAST (n : Nat) : Nat := 0x340C + n * 0x20
def CSAs_FINE (n : Nat) : Nat := 0x3410 + n * 0x20
def CSAs_AVG (n : Nat) : Nat := 0x3414 + n * 0x20
def CSAs_STATUS (n : Nat) : Nat := 0x3418 + n * 0x20
def CSAs_DCB_EST (n : Nat) : Nat := 0x361C + n * 0x20
def CSA_CTRL : Nat := 0x3800
def CSA_STATUS : Nat := 0x3804
def CSA_DCBn_CFG (n : Nat) : Nat := 0x3810 + n * 0x4
def CSA_DCBn_STATUS (n : Nat) : Nat := 0x3830 + n * 0x4
def CSA_EVT_CLIP : Nat := 0x3850
def CSA_EVT_SETTLED : Nat := 0x3854
def CSA_EVT_MISC : Nat := 0x3858
def CSA_EVT_ENABLE : Nat := 0x385C
def FBKn_CFG (n : Nat) : Nat := 0x4400 + n * 0x80
def FBKn_STATUS (n : Nat) : Nat := 0x4408 + n * 0x80
def FBKn_FAULT (n : Nat) : Nat := 0x440C + n * 0x80
def FBKn_FAULT_MASK (n : Nat) : Nat := 0x4410 + n * 0x80
def FBKn_POS (n : Nat) : Nat := 0x4414 + n * 0x80
def FBKn_POS_HI (n : Nat) : Nat := 0x4418 + n * 0x80
def FBKn_SPEED (n : Nat) : Nat := 0x441C + n * 0x80
def FBKn_SPEED_HI (n : Nat) : Nat := 0x4420 + n * 0x80
def FBKn_SPEED_CFG (n : Nat) : Nat := 0x4424 + n * 0x80
def FBKn_INDEX_POS (n : Nat) : Nat := 0x4428 + n * 0x80
def FBKn_INDEX_POS_HI (n : Nat) : Nat := 0x442C + n * 0x80
def FBKn_INDEX_FRAME (n : Nat) : Nat := 0x4430 + n * 0x80
def FBKn_INDEX_CYC (n : Nat) : Nat := 0x4434 + n * 0x80
def FBKn_INDEX_CHK (n : Nat) : Nat := 0x4438 + n * 0x80
def FBKn_AMP_CFG (n : Nat) : Nat := 0x443C + n * 0x80
def FBKn_AMP (n : Nat) : Nat := 0x4440 + n * 0x80
def FBKn_SSI_CFG (n : Nat) : Nat := 0x4444 + n * 0x80
def FBKn_SSI_TIMING (n : Nat) : Nat := 0x4448 + n * 0x80
def FBKn_SSI_RAW (n : Nat) : Nat := 0x444C + n * 0x80
def FBKn_SSI_JUMP (n : Nat) : Nat := 0x4450 + n * 0x80
def FBKn_ERR_CNT (n : Nat) : Nat := 0x4454 + n * 0x80
def FBKn_IRQ_STATUS (n : Nat) : Nat := 0x4458 + n * 0x80
def FBKn_IRQ_ENABLE (n : Nat) : Nat := 0x445C + n * 0x80
def OBSn_CFG (n : Nat) : Nat := 0x4800 + n * 0x80
def OBSn_MOTOR_R (n : Nat) : Nat := 0x4804 + n * 0x80
def OBSn_MOTOR_L (n : Nat) : Nat := 0x4808 + n * 0x80
def OBSn_MOTOR_KE (n : Nat) : Nat := 0x480C + n * 0x80
def OBSn_DT_COMP (n : Nat) : Nat := 0x4810 + n * 0x80
def OBSn_VMIN (n : Nat) : Nat := 0x4814 + n * 0x80
def OBSn_STALL_CFG (n : Nat) : Nat := 0x4818 + n * 0x80
def OBSn_DEV_CFG (n : Nat) : Nat := 0x481C + n * 0x80
def OBSn_DEV_WIN (n : Nat) : Nat := 0x4820 + n * 0x80
def OBSn_STATUS (n : Nat) : Nat := 0x4824 + n * 0x80
def OBSn_LOAD (n : Nat) : Nat := 0x4828 + n * 0x80
def OBSn_MARGIN (n : Nat) : Nat := 0x482C + n * 0x80
def OBSn_EMF (n : Nat) : Nat := 0x4830 + n * 0x80
def OBSn_R_EST (n : Nat) : Nat := 0x4834 + n * 0x80
def OBSn_DEV (n : Nat) : Nat := 0x4838 + n * 0x80
def OBSn_DEV_MAX (n : Nat) : Nat := 0x483C + n * 0x80
def OBSn_DEV_REF (n : Nat) : Nat := 0x4840 + n * 0x80
def OBSn_DEV_REF_HI (n : Nat) : Nat := 0x4844 + n * 0x80
def OBSn_DECL_CNT (n : Nat) : Nat := 0x4848 + n * 0x80
def OBSn_IRQ_STATUS (n : Nat) : Nat := 0x484C + n * 0x80
def OBSn_IRQ_ENABLE (n : Nat) : Nat := 0x4850 + n * 0x80
def PMC_CTRL : Nat := 0x3C00
def PMC_SCAN_CFG : Nat := 0x3C04
def PMC_SCAN_MASK : Nat := 0x3C08
def PMC_URG_MASK : Nat := 0x3C0C
def PMC_STATUS : Nat := 0x3C10
def PMC_URG_DROP : Nat := 0x3C14
def PMC_SCAN_MISS : Nat := 0x3C18
def PMC_REF_EARLY : Nat := 0x3C1C
def PMC_REF_CFG : Nat := 0x3C20
def PMC_REF_STATUS : Nat := 0x3C24
def PMC_REF_DEV : Nat := 0x3C28
def PMC_REF_GOOD : Nat := 0x3C2C
def PMC_IRQ_STATUS : Nat := 0x3C30
def PMC_IRQ_ENABLE : Nat := 0x3C34
def PMC_OW_THR : Nat := 0x3C38
def PMC_LIMIT_FLAGS : Nat := 0x3C3C
def PMC_EVT_LIMIT : Nat := 0x3C40
def PMC_EVT_OPEN : Nat := 0x3C44
def PMC_EVT_ENABLE : Nat := 0x3C48
def PMC_RESe (n : Nat) : Nat := 0x3C80 + n * 0x4
def PMC_CFGe (n : Nat) : Nat := 0x3D00 + n * 0x18
def PMC_OFFSETe (n : Nat) : Nat := 0x3D04 + n * 0x18
def PMC_GAINe (n : Nat) : Nat := 0x3D08 + n * 0x18
def PMC_LIM_LOe (n : Nat) : Nat := 0x3D0C + n * 0x18
def PMC_LIM_HIe (n : Nat) : Nat := 0x3D10 + n * 0x18
def PMC_STATe (n : Nat) : Nat := 0x3D14 + n * 0x18
def CMPc_CFG (n : Nat) : Nat := 0x4000 + n * 0x10
def CMPc_DAC (n : Nat) : Nat := 0x4004 + n * 0x10
def CMPc_STATUS (n : Nat) : Nat := 0x4008 + n * 0x10
def CMPc_DAC_RB (n : Nat) : Nat := 0x400C + n * 0x10
def CMP_TRIP_LO : Nat := 0x4300
def CMP_TRIP_HI : Nat := 0x4304
def CMP_OUT_LO : Nat := 0x4308
def CMP_OUT_HI : Nat := 0x430C
def CMP_EVT_ENABLE : Nat := 0x4310
def NETp_CFG (n : Nat) : Nat := 0x5000 + n * 0x40
def NETp_STATUS (n : Nat) : Nat := 0x5004 + n * 0x40
def NETp_DELAY (n : Nat) : Nat := 0x5008 + n * 0x40
def NETp_OFFSET (n : Nat) : Nat := 0x5010 + n * 0x40
def NETp_TEST (n : Nat) : Nat := 0x5014 + n * 0x40
def NETp_CNT (n j : Nat) : Nat := 0x5018 + n * 0x40 + j * 0x4
def NET_NODE : Nat := 0x5100
def NET_CFG : Nat := 0x5104
def NET_RING : Nat := 0x5108
def NET_CYCLE : Nat := 0x510C
def NET_TIME_LO : Nat := 0x5110
def NET_TIME_HI : Nat := 0x5114
def NET_TIME_STATUS : Nat := 0x5118
def NET_TIME_ERR : Nat := 0x511C
def NET_TIME_CFG : Nat := 0x5120
def NET_TIME_SET_LO : Nat := 0x5124
def NET_TIME_SET_HI : Nat := 0x5128
def NET_ROOT_CMD : Nat := 0x512C
def NET_ROOT_CYCLE : Nat := 0x5130
def NET_ROOT_CFG : Nat := 0x5134
def NET_AUTH_CFG : Nat := 0x5138
def NET_KEYk (n : Nat) : Nat := 0x5140 + n * 0x4
def NET_MBX_CFG : Nat := 0x5180
def NET_MBX_STATUS : Nat := 0x5184
def NET_ROLE_SEL : Nat := 0x5188
def NET_ROLE : Nat := 0x518C
def NET_NAK_CNT : Nat := 0x5190
def NET_IRQ_STATUS : Nat := 0x51A0
def NET_IRQ_ENABLE : Nat := 0x51A4
def NVS_STATUS : Nat := 0x6000
def NVS_CFG : Nat := 0x6004
def NVS_HU_CFG : Nat := 0x6008
def NVS_CHOLD : Nat := 0x600C
def NVS_HOLD : Nat := 0x6010
def NVS_PLS_CFG : Nat := 0x6014
def NVS_PLS_STATUS : Nat := 0x6018
def NVS_CMD : Nat := 0x6020
def NVS_RESULT : Nat := 0x6024
def NVS_REC_LEN : Nat := 0x6028
def NVS_REC_GEN : Nat := 0x602C
def NVS_BUF_PAGE : Nat := 0x6030
def NVS_REC_DIV : Nat := 0x6034
def NVS_REC_DIV_HI : Nat := 0x6038
def NVS_REC_LOST : Nat := 0x603C
def NVS_REC_LOST_HI : Nat := 0x6040
def NVS_ENERGY_CNT : Nat := 0x6044
def NVS_SCRUB_CNT : Nat := 0x6050
def NVS_SCRUB_ADDR : Nat := 0x6054
def NVS_SPARE : Nat := 0x6058
def NVS_LOG_HEAD : Nat := 0x6060
def NVS_LOG_TAIL : Nat := 0x6064
def NVS_LOG_SEL : Nat := 0x6068
def NVS_LOG_LOST : Nat := 0x606C
def NVS_LOG_ENTRYw (n : Nat) : Nat := 0x6070 + n * 0x4
def NVS_REP_CFG : Nat := 0x6090
def NVS_REP_OWNk (n : Nat) : Nat := 0x6094 + n * 0x4
def NVS_REP_HELDj (n : Nat) : Nat := 0x60A0 + n * 0x4
def NVS_REP_STATUS : Nat := 0x60B0
def NVS_IRQ_STATUS : Nat := 0x60C0
def NVS_IRQ_ENABLE : Nat := 0x60C4
def NVS_BUF (n : Nat) : Nat := 0x6400 + n * 0x4
def SUP_STATUS : Nat := 0x6800
def SUP_VM_CFG : Nat := 0x6804
def SUP_VM : Nat := 0x6808
def SUP_VDRV_CFG : Nat := 0x680C
def SUP_HU_CFG : Nat := 0x6810
def SUP_PF_CFG : Nat := 0x6814
def SUP_TEMP_CFG : Nat := 0x6818
def SUP_TEMP : Nat := 0x681C
def SUP_RST_CAUSE : Nat := 0x6820
def SUP_RST_CMD : Nat := 0x6824
def SUP_WDT_CFG : Nat := 0x6828
def SUP_WDT_KICK : Nat := 0x682C
def SUP_IRQ_STATUS : Nat := 0x6830
def SUP_IRQ_ENABLE : Nat := 0x6834
def CAL_SEC_LO : Nat := 0x6840
def CAL_SEC_HI : Nat := 0x6844
def CAL_SUBSEC : Nat := 0x6848
def CAL_DATE : Nat := 0x684C
def CAL_TIME : Nat := 0x6850
def CAL_SET_LO : Nat := 0x6854
def CAL_SET_HI : Nat := 0x6858
def CAL_CFG : Nat := 0x685C
def CAL_STATUS : Nat := 0x6860
def SYS_ID : Nat := 0x0000
def SYS_SERIAL_LO : Nat := 0x0004
def SYS_SERIAL_HI : Nat := 0x0008
def SYS_VER_A : Nat := 0x000C
def SYS_VER_B : Nat := 0x0010
def SYS_IRQ_ROLLUP : Nat := 0x0020
def HOST_TSTAT : Nat := 0x7000
def HOST_CFG : Nat := 0x7004
def HOST_ERR_CNT : Nat := 0x7008
def DBG_CTRL : Nat := 0x7100
def DBG_STATUS : Nat := 0x7104
def DBG_LOCK : Nat := 0x7108
def TEST_CTRL : Nat := 0x7200
def TEST_MRAM_PAGE : Nat := 0x7204
def TEST_MRAM (n : Nat) : Nat := 0x7800 + n * 0x4
end R

namespace F
def FRM_PERIOD_CYCLES : Fld := ⟨R.FRM_PERIOD, 0, 16⟩
def FRM_COUNT_COUNT : Fld := ⟨R.FRM_COUNT, 0, 32⟩
def FRM_CTRL_SWAP_HOLD : Fld := ⟨R.FRM_CTRL, 8, 1⟩
def FRM_CTRL_OVR_LIMIT : Fld := ⟨R.FRM_CTRL, 0, 4⟩
def FRM_STATUS_SWAP_AXIS : Fld := ⟨R.FRM_STATUS, 8, 4⟩
def FRM_STATUS_SWAP_PENDING : Fld := ⟨R.FRM_STATUS, 7, 1⟩
def FRM_STATUS_SWAP_DONE : Fld := ⟨R.FRM_STATUS, 6, 1⟩
def FRM_STATUS_ADMIT_REFUSED : Fld := ⟨R.FRM_STATUS, 5, 1⟩
def FRM_STATUS_DEMOTED : Fld := ⟨R.FRM_STATUS, 4, 1⟩
def FRM_STATUS_OVR_FAULT : Fld := ⟨R.FRM_STATUS, 3, 1⟩
def FRM_STATUS_STATE : Fld := ⟨R.FRM_STATUS, 0, 3⟩
def FRM_OVR_COUNT_COUNT : Fld := ⟨R.FRM_OVR_COUNT, 0, 16⟩
def FRM_SWAP_FRAME_FRAME : Fld := ⟨R.FRM_SWAP_FRAME, 0, 32⟩
def FRM_PWM_DIV_M7 : Fld := ⟨R.FRM_PWM_DIV, 28, 4⟩
def FRM_PWM_DIV_M6 : Fld := ⟨R.FRM_PWM_DIV, 24, 4⟩
def FRM_PWM_DIV_M5 : Fld := ⟨R.FRM_PWM_DIV, 20, 4⟩
def FRM_PWM_DIV_M4 : Fld := ⟨R.FRM_PWM_DIV, 16, 4⟩
def FRM_PWM_DIV_M3 : Fld := ⟨R.FRM_PWM_DIV, 12, 4⟩
def FRM_PWM_DIV_M2 : Fld := ⟨R.FRM_PWM_DIV, 8, 4⟩
def FRM_PWM_DIV_M1 : Fld := ⟨R.FRM_PWM_DIV, 4, 4⟩
def FRM_PWM_DIV_M0 : Fld := ⟨R.FRM_PWM_DIV, 0, 4⟩
def FRM_PLACE_TOTAL_CYCLES : Fld := ⟨R.FRM_PLACE_TOTAL, 0, 18⟩
def FRM_PLACE_LIMIT_CYCLES : Fld := ⟨R.FRM_PLACE_LIMIT, 0, 18⟩
def FRM_PLACE_LANEi_BUSY (n : Nat) : Fld := ⟨(R.FRM_PLACE_LANEi n), 16, 16⟩
def FRM_PLACE_LANEi_MAKESPAN (n : Nat) : Fld := ⟨(R.FRM_PLACE_LANEi n), 0, 16⟩
def FRM_PLACE_PCT_TASKS : Fld := ⟨R.FRM_PLACE_PCT, 16, 7⟩
def FRM_PLACE_PCT_LOAD : Fld := ⟨R.FRM_PLACE_PCT, 0, 10⟩
def FRM_PLACE_TASKn_CLASS (n : Nat) : Fld := ⟨(R.FRM_PLACE_TASKn n), 28, 4⟩
def FRM_PLACE_TASKn_AXIS (n : Nat) : Fld := ⟨(R.FRM_PLACE_TASKn n), 25, 3⟩
def FRM_PLACE_TASKn_WIDE (n : Nat) : Fld := ⟨(R.FRM_PLACE_TASKn n), 24, 1⟩
def FRM_PLACE_TASKn_LANE (n : Nat) : Fld := ⟨(R.FRM_PLACE_TASKn n), 22, 2⟩
def FRM_PLACE_TASKn_DIV (n : Nat) : Fld := ⟨(R.FRM_PLACE_TASKn n), 20, 2⟩
def FRM_PLACE_TASKn_PHASE (n : Nat) : Fld := ⟨(R.FRM_PLACE_TASKn n), 18, 2⟩
def FRM_PLACE_TASKn_START (n : Nat) : Fld := ⟨(R.FRM_PLACE_TASKn n), 0, 16⟩
def FRM_MAINT_REQ_TARGET : Fld := ⟨R.FRM_MAINT_REQ, 8, 8⟩
def FRM_MAINT_REQ_ACTIVITY : Fld := ⟨R.FRM_MAINT_REQ, 0, 8⟩
def FRM_MAINT_RESULT_BLOCKER : Fld := ⟨R.FRM_MAINT_RESULT, 16, 8⟩
def FRM_MAINT_RESULT_SLOT : Fld := ⟨R.FRM_MAINT_RESULT, 8, 8⟩
def FRM_MAINT_RESULT_CODE : Fld := ⟨R.FRM_MAINT_RESULT, 0, 8⟩
def FRM_MAINT_ABORT_SLOT : Fld := ⟨R.FRM_MAINT_ABORT, 0, 4⟩
def FRM_MAINT_BUSY_CNT_COUNT : Fld := ⟨R.FRM_MAINT_BUSY_CNT, 0, 16⟩
def FRM_MAINT_SKIP_CNT_COUNT : Fld := ⟨R.FRM_MAINT_SKIP_CNT, 0, 16⟩
def FRM_MAINT_SLOTn_BUSY (n : Nat) : Fld := ⟨(R.FRM_MAINT_SLOTn n), 31, 1⟩
def FRM_MAINT_SLOTn_SOURCE (n : Nat) : Fld := ⟨(R.FRM_MAINT_SLOTn n), 28, 3⟩
def FRM_MAINT_SLOTn_ELAPSED (n : Nat) : Fld := ⟨(R.FRM_MAINT_SLOTn n), 16, 12⟩
def FRM_MAINT_SLOTn_TARGET (n : Nat) : Fld := ⟨(R.FRM_MAINT_SLOTn n), 8, 8⟩
def FRM_MAINT_SLOTn_ACTIVITY (n : Nat) : Fld := ⟨(R.FRM_MAINT_SLOTn n), 0, 8⟩
def FRM_IRQ_STATUS_PLACE_CHANGED : Fld := ⟨R.FRM_IRQ_STATUS, 7, 1⟩
def FRM_IRQ_STATUS_MAINT_ABORTED : Fld := ⟨R.FRM_IRQ_STATUS, 6, 1⟩
def FRM_IRQ_STATUS_MAINT_REFUSED : Fld := ⟨R.FRM_IRQ_STATUS, 5, 1⟩
def FRM_IRQ_STATUS_MAINT_DONE : Fld := ⟨R.FRM_IRQ_STATUS, 4, 1⟩
def FRM_IRQ_STATUS_SWAP_DONE : Fld := ⟨R.FRM_IRQ_STATUS, 3, 1⟩
def FRM_IRQ_STATUS_ADMIT_REFUSED : Fld := ⟨R.FRM_IRQ_STATUS, 2, 1⟩
def FRM_IRQ_STATUS_OVR_FAULT : Fld := ⟨R.FRM_IRQ_STATUS, 1, 1⟩
def FRM_IRQ_STATUS_OVERRUN : Fld := ⟨R.FRM_IRQ_STATUS, 0, 1⟩
def FRM_IRQ_ENABLE_ENABLE : Fld := ⟨R.FRM_IRQ_ENABLE, 0, 8⟩
def CFG_STATUS_PART_AXIS : Fld := ⟨R.CFG_STATUS, 20, 4⟩
def CFG_STATUS_LOADER : Fld := ⟨R.CFG_STATUS, 16, 4⟩
def CFG_STATUS_FORMAT : Fld := ⟨R.CFG_STATUS, 8, 8⟩
def CFG_STATUS_SIGNED : Fld := ⟨R.CFG_STATUS, 4, 1⟩
def CFG_STATUS_BANK1_VALID : Fld := ⟨R.CFG_STATUS, 3, 1⟩
def CFG_STATUS_BANK0_VALID : Fld := ⟨R.CFG_STATUS, 2, 1⟩
def CFG_STATUS_BOOT_BANK : Fld := ⟨R.CFG_STATUS, 1, 1⟩
def CFG_STATUS_ACTIVE_BANK : Fld := ⟨R.CFG_STATUS, 0, 1⟩
def CFG_LOAD_CMD_ARG : Fld := ⟨R.CFG_LOAD_CMD, 8, 8⟩
def CFG_LOAD_CMD_CMD : Fld := ⟨R.CFG_LOAD_CMD, 0, 8⟩
def CFG_LOAD_ADDR_ADDR : Fld := ⟨R.CFG_LOAD_ADDR, 2, 20⟩
def CFG_LOAD_DATA_DATA : Fld := ⟨R.CFG_LOAD_DATA, 0, 32⟩
def CFG_RESULT_SECTION : Fld := ⟨R.CFG_RESULT, 16, 8⟩
def CFG_RESULT_STAGE : Fld := ⟨R.CFG_RESULT, 8, 8⟩
def CFG_RESULT_CODE : Fld := ⟨R.CFG_RESULT, 0, 8⟩
def CFG_SWAP_TIMEOUT_SECONDS : Fld := ⟨R.CFG_SWAP_TIMEOUT, 0, 12⟩
def CFG_ACTIVE_ID_IMAGE_ID : Fld := ⟨R.CFG_ACTIVE_ID, 0, 32⟩
def CFG_PART_CRCi_CRC (n : Nat) : Fld := ⟨(R.CFG_PART_CRCi n), 0, 32⟩
def CFG_KEY_STATUS_REVOKED : Fld := ⟨R.CFG_KEY_STATUS, 12, 4⟩
def CFG_KEY_STATUS_PROGRAMMED : Fld := ⟨R.CFG_KEY_STATUS, 8, 4⟩
def CFG_KEY_STATUS_SIG_REQUIRED : Fld := ⟨R.CFG_KEY_STATUS, 7, 1⟩
def CFG_KEY_STATUS_OTP_BUSY : Fld := ⟨R.CFG_KEY_STATUS, 6, 1⟩
def CFG_OTP_CMD_KEY : Fld := ⟨R.CFG_OTP_CMD, 24, 8⟩
def CFG_OTP_CMD_SLOT : Fld := ⟨R.CFG_OTP_CMD, 8, 2⟩
def CFG_OTP_CMD_OP : Fld := ⟨R.CFG_OTP_CMD, 0, 8⟩
def CFG_OTP_DATAi_DATA (n : Nat) : Fld := ⟨(R.CFG_OTP_DATAi n), 0, 32⟩
def CFG_TABLE_PAGE_PAGE : Fld := ⟨R.CFG_TABLE_PAGE, 0, 9⟩
def CFG_IRQ_STATUS_BANK_FALLBACK : Fld := ⟨R.CFG_IRQ_STATUS, 3, 1⟩
def CFG_IRQ_STATUS_SWAP_CANCELLED : Fld := ⟨R.CFG_IRQ_STATUS, 2, 1⟩
def CFG_IRQ_STATUS_LOAD_REFUSED : Fld := ⟨R.CFG_IRQ_STATUS, 1, 1⟩
def CFG_IRQ_STATUS_LOAD_DONE : Fld := ⟨R.CFG_IRQ_STATUS, 0, 1⟩
def CFG_IRQ_ENABLE_ENABLE : Fld := ⟨R.CFG_IRQ_ENABLE, 0, 4⟩
def MOTn_MODE_SOFT_EN (n : Nat) : Fld := ⟨(R.MOTn_MODE n), 8, 1⟩
def MOTn_MODE_MOD_DIR (n : Nat) : Fld := ⟨(R.MOTn_MODE n), 4, 2⟩
def MOTn_MODE_MODE (n : Nat) : Fld := ⟨(R.MOTn_MODE n), 0, 3⟩
def MOTn_CMD_CMD (n : Nat) : Fld := ⟨(R.MOTn_CMD n), 0, 8⟩
def MOTn_RESULT_CMD (n : Nat) : Fld := ⟨(R.MOTn_RESULT n), 8, 8⟩
def MOTn_RESULT_CODE (n : Nat) : Fld := ⟨(R.MOTn_RESULT n), 0, 8⟩
def MOTn_STATUS_STATE (n : Nat) : Fld := ⟨(R.MOTn_STATUS n), 28, 4⟩
def MOTn_STATUS_SEG (n : Nat) : Fld := ⟨(R.MOTn_STATUS n), 25, 3⟩
def MOTn_STATUS_DIR (n : Nat) : Fld := ⟨(R.MOTn_STATUS n), 24, 1⟩
def MOTn_STATUS_STANDSTILL (n : Nat) : Fld := ⟨(R.MOTn_STATUS n), 15, 1⟩
def MOTn_STATUS_AT_TARGET (n : Nat) : Fld := ⟨(R.MOTn_STATUS n), 14, 1⟩
def MOTn_STATUS_POS_UNCERTAIN (n : Nat) : Fld := ⟨(R.MOTn_STATUS n), 13, 1⟩
def MOTn_STATUS_HOMED (n : Nat) : Fld := ⟨(R.MOTn_STATUS n), 12, 1⟩
def MOTn_STATUS_FAULT_LATCH (n : Nat) : Fld := ⟨(R.MOTn_STATUS n), 11, 1⟩
def MOTn_STATUS_LIM_N_LATCH (n : Nat) : Fld := ⟨(R.MOTn_STATUS n), 10, 1⟩
def MOTn_STATUS_LIM_P_LATCH (n : Nat) : Fld := ⟨(R.MOTn_STATUS n), 9, 1⟩
def MOTn_STATUS_SOFT_ACTIVE (n : Nat) : Fld := ⟨(R.MOTn_STATUS n), 8, 1⟩
def MOTn_STATUS_HOME_IN (n : Nat) : Fld := ⟨(R.MOTn_STATUS n), 7, 1⟩
def MOTn_STATUS_LIM_N_IN (n : Nat) : Fld := ⟨(R.MOTn_STATUS n), 6, 1⟩
def MOTn_STATUS_LIM_P_IN (n : Nat) : Fld := ⟨(R.MOTn_STATUS n), 5, 1⟩
def MOTn_STATUS_VCLAMP (n : Nat) : Fld := ⟨(R.MOTn_STATUS n), 4, 1⟩
def MOTn_VSTART_VSTART (n : Nat) : Fld := ⟨(R.MOTn_VSTART n), 0, 32⟩
def MOTn_VSTART_HI_UPPER (n : Nat) : Fld := ⟨(R.MOTn_VSTART_HI n), 0, 8⟩
def MOTn_VMAX_VMAX (n : Nat) : Fld := ⟨(R.MOTn_VMAX n), 0, 32⟩
def MOTn_VMAX_HI_UPPER (n : Nat) : Fld := ⟨(R.MOTn_VMAX_HI n), 0, 8⟩
def MOTn_VBREAK_VBREAK (n : Nat) : Fld := ⟨(R.MOTn_VBREAK n), 0, 32⟩
def MOTn_VBREAK_HI_UPPER (n : Nat) : Fld := ⟨(R.MOTn_VBREAK_HI n), 0, 8⟩
def MOTn_VSTOP_VSTOP (n : Nat) : Fld := ⟨(R.MOTn_VSTOP n), 0, 32⟩
def MOTn_VSTOP_HI_UPPER (n : Nat) : Fld := ⟨(R.MOTn_VSTOP_HI n), 0, 8⟩
def MOTn_A1_RATE (n : Nat) : Fld := ⟨(R.MOTn_A1 n), 0, 32⟩
def MOTn_A2_RATE (n : Nat) : Fld := ⟨(R.MOTn_A2 n), 0, 32⟩
def MOTn_D2_RATE (n : Nat) : Fld := ⟨(R.MOTn_D2 n), 0, 32⟩
def MOTn_D1_RATE (n : Nat) : Fld := ⟨(R.MOTn_D1 n), 0, 32⟩
def MOTn_TARGET_TARGET (n : Nat) : Fld := ⟨(R.MOTn_TARGET n), 0, 32⟩
def MOTn_TARGET_HI_UPPER (n : Nat) : Fld := ⟨(R.MOTn_TARGET_HI n), 0, 16⟩
def MOTn_POS_POS (n : Nat) : Fld := ⟨(R.MOTn_POS n), 0, 32⟩
def MOTn_POS_HI_UPPER (n : Nat) : Fld := ⟨(R.MOTn_POS_HI n), 0, 16⟩
def MOTn_VEL_VEL (n : Nat) : Fld := ⟨(R.MOTn_VEL n), 0, 32⟩
def MOTn_VEL_HI_UPPER (n : Nat) : Fld := ⟨(R.MOTn_VEL_HI n), 0, 8⟩
def MOTn_VTARGET_VTARGET (n : Nat) : Fld := ⟨(R.MOTn_VTARGET n), 0, 32⟩
def MOTn_VTARGET_HI_UPPER (n : Nat) : Fld := ⟨(R.MOTn_VTARGET_HI n), 0, 8⟩
def MOTn_MODULO_LENGTH (n : Nat) : Fld := ⟨(R.MOTn_MODULO n), 0, 32⟩
def MOTn_MODULO_HI_UPPER (n : Nat) : Fld := ⟨(R.MOTn_MODULO_HI n), 0, 16⟩
def MOTn_SOFT_MIN_LIMIT (n : Nat) : Fld := ⟨(R.MOTn_SOFT_MIN n), 0, 32⟩
def MOTn_SOFT_MIN_HI_UPPER (n : Nat) : Fld := ⟨(R.MOTn_SOFT_MIN_HI n), 0, 16⟩
def MOTn_SOFT_MAX_LIMIT (n : Nat) : Fld := ⟨(R.MOTn_SOFT_MAX n), 0, 32⟩
def MOTn_SOFT_MAX_HI_UPPER (n : Nat) : Fld := ⟨(R.MOTn_SOFT_MAX_HI n), 0, 16⟩
def MOTn_STOP_STYLE_POWER (n : Nat) : Fld := ⟨(R.MOTn_STOP_STYLE n), 4, 1⟩
def MOTn_STOP_STYLE_RING (n : Nat) : Fld := ⟨(R.MOTn_STOP_STYLE n), 3, 1⟩
def MOTn_STOP_STYLE_FAULT (n : Nat) : Fld := ⟨(R.MOTn_STOP_STYLE n), 2, 1⟩
def MOTn_STOP_STYLE_LIMIT (n : Nat) : Fld := ⟨(R.MOTn_STOP_STYLE n), 1, 1⟩
def MOTn_STOP_STYLE_HOST (n : Nat) : Fld := ⟨(R.MOTn_STOP_STYLE n), 0, 1⟩
def MOTn_LIMIT_CFG_DEBOUNCE (n : Nat) : Fld := ⟨(R.MOTn_LIMIT_CFG n), 16, 8⟩
def MOTn_LIMIT_CFG_N_EN (n : Nat) : Fld := ⟨(R.MOTn_LIMIT_CFG n), 1, 1⟩
def MOTn_LIMIT_CFG_P_EN (n : Nat) : Fld := ⟨(R.MOTn_LIMIT_CFG n), 0, 1⟩
def MOTn_HOME_CFG_EDGE (n : Nat) : Fld := ⟨(R.MOTn_HOME_CFG n), 5, 1⟩
def MOTn_HOME_CFG_DIR (n : Nat) : Fld := ⟨(R.MOTn_HOME_CFG n), 4, 1⟩
def MOTn_HOME_CFG_METHOD (n : Nat) : Fld := ⟨(R.MOTn_HOME_CFG n), 0, 3⟩
def MOTn_HOME_VEL_HOME_VEL (n : Nat) : Fld := ⟨(R.MOTn_HOME_VEL n), 0, 32⟩
def MOTn_HOME_VEL_HI_UPPER (n : Nat) : Fld := ⟨(R.MOTn_HOME_VEL_HI n), 0, 8⟩
def MOTn_HOME_TRAVEL_TRAVEL (n : Nat) : Fld := ⟨(R.MOTn_HOME_TRAVEL n), 0, 32⟩
def MOTn_HOME_OFFSET_OFFSET (n : Nat) : Fld := ⟨(R.MOTn_HOME_OFFSET n), 0, 32⟩
def MOTn_HOME_OFFSET_HI_UPPER (n : Nat) : Fld := ⟨(R.MOTn_HOME_OFFSET_HI n), 0, 16⟩
def MOTn_LATCH_LATCH (n : Nat) : Fld := ⟨(R.MOTn_LATCH n), 0, 32⟩
def MOTn_LATCH_HI_UPPER (n : Nat) : Fld := ⟨(R.MOTn_LATCH_HI n), 0, 16⟩
def MOTn_HOME_BACKOFF_BACKOFF (n : Nat) : Fld := ⟨(R.MOTn_HOME_BACKOFF n), 0, 32⟩
def MOTn_FOLLOW_CFG_OVS_STOP (n : Nat) : Fld := ⟨(R.MOTn_FOLLOW_CFG n), 8, 1⟩
def MOTn_FOLLOW_CFG_EDGE (n : Nat) : Fld := ⟨(R.MOTn_FOLLOW_CFG n), 4, 1⟩
def MOTn_FOLLOW_CFG_SHIFT (n : Nat) : Fld := ⟨(R.MOTn_FOLLOW_CFG n), 0, 4⟩
def MOTn_STEP_DROP_COUNT (n : Nat) : Fld := ⟨(R.MOTn_STEP_DROP n), 0, 16⟩
def MOTn_STOP_CAUSE_MASK (n : Nat) : Fld := ⟨(R.MOTn_STOP_CAUSE n), 16, 5⟩
def MOTn_STOP_CAUSE_UNCERTAIN (n : Nat) : Fld := ⟨(R.MOTn_STOP_CAUSE n), 9, 1⟩
def MOTn_STOP_CAUSE_IMMEDIATE (n : Nat) : Fld := ⟨(R.MOTn_STOP_CAUSE n), 8, 1⟩
def MOTn_STOP_CAUSE_FIRST (n : Nat) : Fld := ⟨(R.MOTn_STOP_CAUSE n), 4, 4⟩
def MOTn_STOP_CAUSE_DETAIL (n : Nat) : Fld := ⟨(R.MOTn_STOP_CAUSE n), 0, 4⟩
def MOTn_IRQ_STATUS_CMD_REFUSED (n : Nat) : Fld := ⟨(R.MOTn_IRQ_STATUS n), 9, 1⟩
def MOTn_IRQ_STATUS_POS_RANGE (n : Nat) : Fld := ⟨(R.MOTn_IRQ_STATUS n), 8, 1⟩
def MOTn_IRQ_STATUS_FOLLOW_OVERSPEED (n : Nat) : Fld := ⟨(R.MOTn_IRQ_STATUS n), 7, 1⟩
def MOTn_IRQ_STATUS_POS_UNCERTAIN (n : Nat) : Fld := ⟨(R.MOTn_IRQ_STATUS n), 6, 1⟩
def MOTn_IRQ_STATUS_HOME_FAILED (n : Nat) : Fld := ⟨(R.MOTn_IRQ_STATUS n), 5, 1⟩
def MOTn_IRQ_STATUS_HOME_DONE (n : Nat) : Fld := ⟨(R.MOTn_IRQ_STATUS n), 4, 1⟩
def MOTn_IRQ_STATUS_SOFT_LIMIT (n : Nat) : Fld := ⟨(R.MOTn_IRQ_STATUS n), 3, 1⟩
def MOTn_IRQ_STATUS_LIMIT_TRIP (n : Nat) : Fld := ⟨(R.MOTn_IRQ_STATUS n), 2, 1⟩
def MOTn_IRQ_STATUS_STOPPED (n : Nat) : Fld := ⟨(R.MOTn_IRQ_STATUS n), 1, 1⟩
def MOTn_IRQ_STATUS_TARGET_REACHED (n : Nat) : Fld := ⟨(R.MOTn_IRQ_STATUS n), 0, 1⟩
def MOTn_IRQ_ENABLE_ENABLE (n : Nat) : Fld := ⟨(R.MOTn_IRQ_ENABLE n), 0, 10⟩
def MOTn_GEAR_CFG_HERD_IDX (n : Nat) : Fld := ⟨(R.MOTn_GEAR_CFG n), 16, 4⟩
def MOTn_GEAR_CFG_AXIS (n : Nat) : Fld := ⟨(R.MOTn_GEAR_CFG n), 12, 3⟩
def MOTn_GEAR_CFG_AXSEL (n : Nat) : Fld := ⟨(R.MOTn_GEAR_CFG n), 11, 1⟩
def MOTn_GEAR_CFG_PREDICT (n : Nat) : Fld := ⟨(R.MOTn_GEAR_CFG n), 10, 1⟩
def MOTn_GEAR_CFG_ENGAGE (n : Nat) : Fld := ⟨(R.MOTn_GEAR_CFG n), 8, 2⟩
def MOTn_GEAR_CFG_SRC (n : Nat) : Fld := ⟨(R.MOTn_GEAR_CFG n), 0, 2⟩
def MOTn_GEAR_NUM_VALUE (n : Nat) : Fld := ⟨(R.MOTn_GEAR_NUM n), 0, 32⟩
def MOTn_GEAR_DEN_VALUE (n : Nat) : Fld := ⟨(R.MOTn_GEAR_DEN n), 0, 32⟩
def MOTn_GEAR_NEXT_NUM_VALUE (n : Nat) : Fld := ⟨(R.MOTn_GEAR_NEXT_NUM n), 0, 32⟩
def MOTn_GEAR_NEXT_DEN_VALUE (n : Nat) : Fld := ⟨(R.MOTn_GEAR_NEXT_DEN n), 0, 32⟩
def MOTn_GEAR_BLEND_LENGTH (n : Nat) : Fld := ⟨(R.MOTn_GEAR_BLEND n), 0, 20⟩
def MOTn_GEAR_CHG_POS_POS (n : Nat) : Fld := ⟨(R.MOTn_GEAR_CHG_POS n), 0, 32⟩
def MOTn_GEAR_CHG_POS_HI_UPPER (n : Nat) : Fld := ⟨(R.MOTn_GEAR_CHG_POS_HI n), 0, 16⟩
def MOTn_GEAR_CTRL_CHG_CANCEL (n : Nat) : Fld := ⟨(R.MOTn_GEAR_CTRL n), 3, 1⟩
def MOTn_GEAR_CTRL_CHG_DIR (n : Nat) : Fld := ⟨(R.MOTn_GEAR_CTRL n), 1, 2⟩
def MOTn_GEAR_CTRL_CHG_ARM (n : Nat) : Fld := ⟨(R.MOTn_GEAR_CTRL n), 0, 1⟩
def MOTn_GEAR_STATUS_MISSED (n : Nat) : Fld := ⟨(R.MOTn_GEAR_STATUS n), 8, 4⟩
def MOTn_GEAR_STATUS_MASTER_OK (n : Nat) : Fld := ⟨(R.MOTn_GEAR_STATUS n), 5, 1⟩
def MOTn_GEAR_STATUS_BLENDING (n : Nat) : Fld := ⟨(R.MOTn_GEAR_STATUS n), 4, 1⟩
def MOTn_GEAR_STATUS_CHG_ARMED (n : Nat) : Fld := ⟨(R.MOTn_GEAR_STATUS n), 3, 1⟩
def MOTn_GEAR_STATUS_SYNCING (n : Nat) : Fld := ⟨(R.MOTn_GEAR_STATUS n), 2, 1⟩
def MOTn_GEAR_STATUS_LOCKED (n : Nat) : Fld := ⟨(R.MOTn_GEAR_STATUS n), 1, 1⟩
def MOTn_GEAR_STATUS_ENGAGED (n : Nat) : Fld := ⟨(R.MOTn_GEAR_STATUS n), 0, 1⟩
def MOTn_GEAR_MASTER_POS (n : Nat) : Fld := ⟨(R.MOTn_GEAR_MASTER n), 0, 32⟩
def MOTn_GEAR_MASTER_HI_UPPER (n : Nat) : Fld := ⟨(R.MOTn_GEAR_MASTER_HI n), 0, 16⟩
def MOTn_GEAR_JUMP_MAX_LIMIT (n : Nat) : Fld := ⟨(R.MOTn_GEAR_JUMP_MAX n), 0, 32⟩
def MOTn_GEAR_IRQ_STATUS_TCMD_REFUSED (n : Nat) : Fld := ⟨(R.MOTn_GEAR_IRQ_STATUS n), 6, 1⟩
def MOTn_GEAR_IRQ_STATUS_TIMED_CMD_DROPPED (n : Nat) : Fld := ⟨(R.MOTn_GEAR_IRQ_STATUS n), 5, 1⟩
def MOTn_GEAR_IRQ_STATUS_TCMD_DONE (n : Nat) : Fld := ⟨(R.MOTn_GEAR_IRQ_STATUS n), 4, 1⟩
def MOTn_GEAR_IRQ_STATUS_CHG_DONE (n : Nat) : Fld := ⟨(R.MOTn_GEAR_IRQ_STATUS n), 3, 1⟩
def MOTn_GEAR_IRQ_STATUS_GEAR_LOCKED (n : Nat) : Fld := ⟨(R.MOTn_GEAR_IRQ_STATUS n), 2, 1⟩
def MOTn_GEAR_IRQ_STATUS_MASTER_JUMP (n : Nat) : Fld := ⟨(R.MOTn_GEAR_IRQ_STATUS n), 1, 1⟩
def MOTn_GEAR_IRQ_STATUS_MASTER_LOST (n : Nat) : Fld := ⟨(R.MOTn_GEAR_IRQ_STATUS n), 0, 1⟩
def MOTn_GEAR_IRQ_ENABLE_ENABLE (n : Nat) : Fld := ⟨(R.MOTn_GEAR_IRQ_ENABLE n), 0, 7⟩
def MOTn_TCMD_TIME_VALUE (n : Nat) : Fld := ⟨(R.MOTn_TCMD_TIME n), 0, 32⟩
def MOTn_TCMD_TIME_HI_UPPER (n : Nat) : Fld := ⟨(R.MOTn_TCMD_TIME_HI n), 0, 32⟩
def MOTn_TCMD_ARG_VALUE (n : Nat) : Fld := ⟨(R.MOTn_TCMD_ARG n), 0, 32⟩
def MOTn_TCMD_ARG_HI_UPPER (n : Nat) : Fld := ⟨(R.MOTn_TCMD_ARG_HI n), 0, 16⟩
def MOTn_TCMD_SUBMIT_EPOCH (n : Nat) : Fld := ⟨(R.MOTn_TCMD_SUBMIT n), 16, 16⟩
def MOTn_TCMD_SUBMIT_CMD (n : Nat) : Fld := ⟨(R.MOTn_TCMD_SUBMIT n), 0, 8⟩
def MOTn_TCMD_RESULT_SLOT (n : Nat) : Fld := ⟨(R.MOTn_TCMD_RESULT n), 8, 2⟩
def MOTn_TCMD_RESULT_CODE (n : Nat) : Fld := ⟨(R.MOTn_TCMD_RESULT n), 0, 8⟩
def MOTn_TCMD_SLOTj_BUSY (n j : Nat) : Fld := ⟨(R.MOTn_TCMD_SLOTj n j), 31, 1⟩
def MOTn_TCMD_SLOTj_CMD (n j : Nat) : Fld := ⟨(R.MOTn_TCMD_SLOTj n j), 16, 8⟩
def MOTn_TCMD_SLOTj_EPOCH (n j : Nat) : Fld := ⟨(R.MOTn_TCMD_SLOTj n j), 0, 16⟩
def MOTn_TCMD_CANCEL_MASK (n : Nat) : Fld := ⟨(R.MOTn_TCMD_CANCEL n), 0, 4⟩
def MOTn_TCMD_DROP_CNT_COUNT (n : Nat) : Fld := ⟨(R.MOTn_TCMD_DROP_CNT n), 0, 16⟩
def NET_HERDi_CFG_ENABLE (n : Nat) : Fld := ⟨(R.NET_HERDi_CFG n), 31, 1⟩
def NET_HERDi_CFG_BW_ELIGIBLE (n : Nat) : Fld := ⟨(R.NET_HERDi_CFG n), 30, 1⟩
def NET_HERDi_CFG_PROPAGATE (n : Nat) : Fld := ⟨(R.NET_HERDi_CFG n), 29, 1⟩
def NET_HERDi_CFG_AXES (n : Nat) : Fld := ⟨(R.NET_HERDi_CFG n), 16, 8⟩
def NET_HERDi_CFG_HERD (n : Nat) : Fld := ⟨(R.NET_HERDi_CFG n), 0, 8⟩
def NET_HERDi_SRC_KIND (n : Nat) : Fld := ⟨(R.NET_HERDi_SRC n), 30, 2⟩
def NET_HERDi_SRC_NODE (n : Nat) : Fld := ⟨(R.NET_HERDi_SRC n), 16, 12⟩
def NET_HERDi_SRC_CH (n : Nat) : Fld := ⟨(R.NET_HERDi_SRC n), 0, 3⟩
def NET_HERDi_PARAM_MEMBERS (n : Nat) : Fld := ⟨(R.NET_HERDi_PARAM n), 16, 16⟩
def NET_HERDi_PARAM_SYNC_LEAD (n : Nat) : Fld := ⟨(R.NET_HERDi_PARAM n), 8, 4⟩
def NET_HERDi_PARAM_HOLDOVER (n : Nat) : Fld := ⟨(R.NET_HERDi_PARAM n), 0, 4⟩
def NET_HERDi_STATUS_BW_EPOCH (n : Nat) : Fld := ⟨(R.NET_HERDi_STATUS n), 16, 16⟩
def NET_HERDi_STATUS_BW_NODE (n : Nat) : Fld := ⟨(R.NET_HERDi_STATUS n), 4, 12⟩
def NET_HERDi_STATUS_HOSTING (n : Nat) : Fld := ⟨(R.NET_HERDi_STATUS n), 3, 1⟩
def NET_HERDi_STATUS_SYNC_REFUSED (n : Nat) : Fld := ⟨(R.NET_HERDi_STATUS n), 2, 1⟩
def NET_HERDi_STATUS_NO_HOST (n : Nat) : Fld := ⟨(R.NET_HERDi_STATUS n), 1, 1⟩
def NET_HERDi_STATUS_BW_CHANGED (n : Nat) : Fld := ⟨(R.NET_HERDi_STATUS n), 0, 1⟩
def NET_HERD_HOST_HOSTED : Fld := ⟨R.NET_HERD_HOST, 8, 5⟩
def NET_HERD_HOST_CAP : Fld := ⟨R.NET_HERD_HOST, 0, 5⟩
def NET_HERD_CMD_CMD : Fld := ⟨R.NET_HERD_CMD, 8, 8⟩
def NET_HERD_CMD_HERD : Fld := ⟨R.NET_HERD_CMD, 0, 8⟩
def NET_HERD_RESULT_CODE : Fld := ⟨R.NET_HERD_RESULT, 0, 8⟩
def NET_HERD_IRQ_ENABLE_ENABLE : Fld := ⟨R.NET_HERD_IRQ_ENABLE, 0, 3⟩
def CURn_CFG_EMF_FF (n : Nat) : Fld := ⟨(R.CURn_CFG n), 7, 1⟩
def CURn_CFG_DIR_INV (n : Nat) : Fld := ⟨(R.CURn_CFG n), 4, 1⟩
def CURn_CFG_TABLE (n : Nat) : Fld := ⟨(R.CURn_CFG n), 2, 2⟩
def CURn_CFG_COMM (n : Nat) : Fld := ⟨(R.CURn_CFG n), 0, 2⟩
def CURn_STATUS_COIL_STATE (n : Nat) : Fld := ⟨(R.CURn_STATUS n), 29, 3⟩
def CURn_STATUS_CL_ACTIVE (n : Nat) : Fld := ⟨(R.CURn_STATUS n), 28, 1⟩
def CURn_STATUS_CL_FALLBACK (n : Nat) : Fld := ⟨(R.CURn_STATUS n), 27, 1⟩
def CURn_STATUS_CAL_OK (n : Nat) : Fld := ⟨(R.CURn_STATUS n), 26, 1⟩
def CURn_STATUS_DIAG_IMPOSSIBLE (n : Nat) : Fld := ⟨(R.CURn_STATUS n), 25, 1⟩
def CURn_STATUS_PHASE_B (n : Nat) : Fld := ⟨(R.CURn_STATUS n), 22, 2⟩
def CURn_STATUS_PHASE_A (n : Nat) : Fld := ⟨(R.CURn_STATUS n), 20, 2⟩
def CURn_STATUS_LOOP_SAT_B (n : Nat) : Fld := ⟨(R.CURn_STATUS n), 19, 1⟩
def CURn_STATUS_LOOP_SAT_A (n : Nat) : Fld := ⟨(R.CURn_STATUS n), 18, 1⟩
def CURn_STATUS_RANGE_SETTLE_B (n : Nat) : Fld := ⟨(R.CURn_STATUS n), 17, 1⟩
def CURn_STATUS_RANGE_SETTLE_A (n : Nat) : Fld := ⟨(R.CURn_STATUS n), 16, 1⟩
def CURn_STATUS_AMP (n : Nat) : Fld := ⟨(R.CURn_STATUS n), 0, 16⟩
def CURn_IRUN_VALUE (n : Nat) : Fld := ⟨(R.CURn_IRUN n), 0, 16⟩
def CURn_IHOLD_VALUE (n : Nat) : Fld := ⟨(R.CURn_IHOLD n), 0, 16⟩
def CURn_ICL_MIN_VALUE (n : Nat) : Fld := ⟨(R.CURn_ICL_MIN n), 0, 16⟩
def CURn_KP_KP (n : Nat) : Fld := ⟨(R.CURn_KP n), 0, 24⟩
def CURn_KI_KI (n : Nat) : Fld := ⟨(R.CURn_KI n), 0, 32⟩
def CURn_STANDSTILL_MODE (n : Nat) : Fld := ⟨(R.CURn_STANDSTILL n), 30, 2⟩
def CURn_STANDSTILL_HOLD_RAMP (n : Nat) : Fld := ⟨(R.CURn_STANDSTILL n), 14, 10⟩
def CURn_STANDSTILL_DELAY (n : Nat) : Fld := ⟨(R.CURn_STANDSTILL n), 0, 14⟩
def CURn_GUARD_SHORT_LATCHED (n : Nat) : Fld := ⟨(R.CURn_GUARD n), 3, 1⟩
def CURn_GUARD_RELEASE (n : Nat) : Fld := ⟨(R.CURn_GUARD n), 2, 1⟩
def CURn_GUARD_PF_SHORT (n : Nat) : Fld := ⟨(R.CURn_GUARD n), 1, 1⟩
def CURn_GUARD_DISARM_SHORT (n : Nat) : Fld := ⟨(R.CURn_GUARD n), 0, 1⟩
def CURn_COMM_OFFSET_OFFSET (n : Nat) : Fld := ⟨(R.CURn_COMM_OFFSET n), 0, 14⟩
def CURn_LEAD_CL_FULL (n : Nat) : Fld := ⟨(R.CURn_LEAD n), 16, 16⟩
def CURn_LEAD_LEAD_MAX (n : Nat) : Fld := ⟨(R.CURn_LEAD n), 0, 13⟩
def CURn_ENC_NUM_VALUE (n : Nat) : Fld := ⟨(R.CURn_ENC_NUM n), 0, 32⟩
def CURn_ENC_DEN_VALUE (n : Nat) : Fld := ⟨(R.CURn_ENC_DEN n), 0, 32⟩
def CURn_DIAG_CFG_OPEN_ACT (n : Nat) : Fld := ⟨(R.CURn_DIAG_CFG n), 31, 1⟩
def CURn_DIAG_CFG_OPEN_COUNT (n : Nat) : Fld := ⟨(R.CURn_DIAG_CFG n), 24, 4⟩
def CURn_DIAG_CFG_OPEN_THR (n : Nat) : Fld := ⟨(R.CURn_DIAG_CFG n), 10, 12⟩
def CURn_DIAG_CFG_INTERVAL (n : Nat) : Fld := ⟨(R.CURn_DIAG_CFG n), 0, 10⟩
def CURn_DIAG_STATUS_STRETCH_CNT (n : Nat) : Fld := ⟨(R.CURn_DIAG_STATUS n), 16, 16⟩
def CURn_DIAG_STATUS_OPEN_CHECKED_B (n : Nat) : Fld := ⟨(R.CURn_DIAG_STATUS n), 1, 1⟩
def CURn_DIAG_STATUS_OPEN_CHECKED_A (n : Nat) : Fld := ⟨(R.CURn_DIAG_STATUS n), 0, 1⟩
def CURn_IA_MA (n : Nat) : Fld := ⟨(R.CURn_IA n), 16, 16⟩
def CURn_IA_FRAC (n : Nat) : Fld := ⟨(R.CURn_IA n), 0, 16⟩
def CURn_IB_MA (n : Nat) : Fld := ⟨(R.CURn_IB n), 16, 16⟩
def CURn_IB_FRAC (n : Nat) : Fld := ⟨(R.CURn_IB n), 0, 16⟩
def CURn_SETP_IB_SET (n : Nat) : Fld := ⟨(R.CURn_SETP n), 16, 16⟩
def CURn_SETP_IA_SET (n : Nat) : Fld := ⟨(R.CURn_SETP n), 0, 16⟩
def CURn_UOUT_UB (n : Nat) : Fld := ⟨(R.CURn_UOUT n), 16, 16⟩
def CURn_UOUT_UA (n : Nat) : Fld := ⟨(R.CURn_UOUT n), 0, 16⟩
def CURn_ANGLE_IDX (n : Nat) : Fld := ⟨(R.CURn_ANGLE n), 0, 14⟩
def CURn_HOLD_CNT_COUNT (n : Nat) : Fld := ⟨(R.CURn_HOLD_CNT n), 0, 16⟩
def CURn_IRQ_STATUS_GUARD_SHORT (n : Nat) : Fld := ⟨(R.CURn_IRQ_STATUS n), 9, 1⟩
def CURn_IRQ_STATUS_ENC_CAL_FAIL (n : Nat) : Fld := ⟨(R.CURn_IRQ_STATUS n), 8, 1⟩
def CURn_IRQ_STATUS_CL_FALLBACK (n : Nat) : Fld := ⟨(R.CURn_IRQ_STATUS n), 7, 1⟩
def CURn_IRQ_STATUS_SETP_CLIP (n : Nat) : Fld := ⟨(R.CURn_IRQ_STATUS n), 6, 1⟩
def CURn_IRQ_STATUS_RANGE_DONE (n : Nat) : Fld := ⟨(R.CURn_IRQ_STATUS n), 5, 1⟩
def CURn_IRQ_STATUS_SENSE_LOST (n : Nat) : Fld := ⟨(R.CURn_IRQ_STATUS n), 4, 1⟩
def CURn_IRQ_STATUS_SENSE_HOLD (n : Nat) : Fld := ⟨(R.CURn_IRQ_STATUS n), 3, 1⟩
def CURn_IRQ_STATUS_LOOP_SAT (n : Nat) : Fld := ⟨(R.CURn_IRQ_STATUS n), 2, 1⟩
def CURn_IRQ_STATUS_OPEN_CLEARED (n : Nat) : Fld := ⟨(R.CURn_IRQ_STATUS n), 1, 1⟩
def CURn_IRQ_STATUS_OPEN_COIL (n : Nat) : Fld := ⟨(R.CURn_IRQ_STATUS n), 0, 1⟩
def CURn_IRQ_ENABLE_ENABLE (n : Nat) : Fld := ⟨(R.CURn_IRQ_ENABLE n), 0, 10⟩
def CURn_SHUNT_RSHUNT_B (n : Nat) : Fld := ⟨(R.CURn_SHUNT n), 16, 16⟩
def CURn_SHUNT_RSHUNT_A (n : Nat) : Fld := ⟨(R.CURn_SHUNT n), 0, 16⟩
def PWMk_CMP_RISE_CYCLE (n : Nat) : Fld := ⟨(R.PWMk_CMP_RISE n), 5, 16⟩
def PWMk_CMP_RISE_TAP (n : Nat) : Fld := ⟨(R.PWMk_CMP_RISE n), 0, 5⟩
def PWMk_CMP_FALL_CYCLE (n : Nat) : Fld := ⟨(R.PWMk_CMP_FALL n), 5, 16⟩
def PWMk_CMP_FALL_TAP (n : Nat) : Fld := ⟨(R.PWMk_CMP_FALL n), 0, 5⟩
def PWMk_COMMIT_COMMIT (n : Nat) : Fld := ⟨(R.PWMk_COMMIT n), 0, 1⟩
def PWMk_ACT_RISE_VALUE (n : Nat) : Fld := ⟨(R.PWMk_ACT_RISE n), 0, 21⟩
def PWMk_ACT_FALL_VALUE (n : Nat) : Fld := ⟨(R.PWMk_ACT_FALL n), 0, 21⟩
def PWMk_CFG_REFRESH_AFTER (n : Nat) : Fld := ⟨(R.PWMk_CFG n), 8, 8⟩
def PWMk_CFG_REFRESH_LEN (n : Nat) : Fld := ⟨(R.PWMk_CFG n), 4, 4⟩
def PWMk_CFG_SAFE (n : Nat) : Fld := ⟨(R.PWMk_CFG n), 0, 2⟩
def PWMk_FORCE_LEVEL (n : Nat) : Fld := ⟨(R.PWMk_FORCE n), 0, 2⟩
def PWMk_STATUS_REFRESH_CNT (n : Nat) : Fld := ⟨(R.PWMk_STATUS n), 16, 16⟩
def PWMk_STATUS_LATE (n : Nat) : Fld := ⟨(R.PWMk_STATUS n), 5, 1⟩
def PWMk_STATUS_PEND (n : Nat) : Fld := ⟨(R.PWMk_STATUS n), 4, 1⟩
def PWMk_STATUS_FULL (n : Nat) : Fld := ⟨(R.PWMk_STATUS n), 3, 1⟩
def PWMk_STATUS_STATE (n : Nat) : Fld := ⟨(R.PWMk_STATUS n), 0, 3⟩
def PWM_AUXa_CMP_RISE_VALUE (n : Nat) : Fld := ⟨(R.PWM_AUXa_CMP_RISE n), 0, 21⟩
def PWM_AUXa_CMP_FALL_VALUE (n : Nat) : Fld := ⟨(R.PWM_AUXa_CMP_FALL n), 0, 21⟩
def PWM_AUXa_COMMIT_COMMIT (n : Nat) : Fld := ⟨(R.PWM_AUXa_COMMIT n), 0, 1⟩
def PWM_AUXa_ACT_RISE_VALUE (n : Nat) : Fld := ⟨(R.PWM_AUXa_ACT_RISE n), 0, 21⟩
def PWM_AUXa_ACT_FALL_VALUE (n : Nat) : Fld := ⟨(R.PWM_AUXa_ACT_FALL n), 0, 21⟩
def PWM_AUXa_CFG_CH (n : Nat) : Fld := ⟨(R.PWM_AUXa_CFG n), 16, 5⟩
def PWM_AUXa_CFG_LEN (n : Nat) : Fld := ⟨(R.PWM_AUXa_CFG n), 8, 8⟩
def PWM_AUXa_CFG_EDGES (n : Nat) : Fld := ⟨(R.PWM_AUXa_CFG n), 6, 2⟩
def PWM_AUXa_CFG_SYNC_AXIS (n : Nat) : Fld := ⟨(R.PWM_AUXa_CFG n), 3, 3⟩
def PWM_AUXa_CFG_MODE (n : Nat) : Fld := ⟨(R.PWM_AUXa_CFG n), 0, 2⟩
def PWM_AUXa_STATUS_LATE (n : Nat) : Fld := ⟨(R.PWM_AUXa_STATUS n), 2, 1⟩
def PWM_AUXa_STATUS_PEND (n : Nat) : Fld := ⟨(R.PWM_AUXa_STATUS n), 1, 1⟩
def PWM_AUXa_STATUS_OUT (n : Nat) : Fld := ⟨(R.PWM_AUXa_STATUS n), 0, 1⟩
def PWM_AXn_COUNT_PERIOD (n : Nat) : Fld := ⟨(R.PWM_AXn_COUNT n), 16, 4⟩
def PWM_AXn_COUNT_COUNT (n : Nat) : Fld := ⟨(R.PWM_AXn_COUNT n), 0, 16⟩
def PWM_EVTu_CFG_PRESCALE (n : Nat) : Fld := ⟨(R.PWM_EVTu_CFG n), 16, 8⟩
def PWM_EVTu_CFG_HIT (n : Nat) : Fld := ⟨(R.PWM_EVTu_CFG n), 4, 3⟩
def PWM_EVTu_CFG_CMP_EN (n : Nat) : Fld := ⟨(R.PWM_EVTu_CFG n), 2, 1⟩
def PWM_EVTu_CFG_PERIOD_EN (n : Nat) : Fld := ⟨(R.PWM_EVTu_CFG n), 1, 1⟩
def PWM_EVTu_CFG_ZERO_EN (n : Nat) : Fld := ⟨(R.PWM_EVTu_CFG n), 0, 1⟩
def PWM_EVTu_CMP_CYCLE (n : Nat) : Fld := ⟨(R.PWM_EVTu_CMP n), 0, 16⟩
def PWM_FAULT_LATCH_LATCH : Fld := ⟨R.PWM_FAULT_LATCH, 0, 8⟩
def PWM_FAULT_FORCE_SET : Fld := ⟨R.PWM_FAULT_FORCE, 0, 8⟩
def PWM_LATE_CNT_COUNT : Fld := ⟨R.PWM_LATE_CNT, 0, 16⟩
def PWM_STATUS_FROZEN : Fld := ⟨R.PWM_STATUS, 0, 1⟩
def PWM_IRQ_STATUS_CLEAR_REFUSED : Fld := ⟨R.PWM_IRQ_STATUS, 9, 1⟩
def PWM_IRQ_STATUS_LATE_COMMIT : Fld := ⟨R.PWM_IRQ_STATUS, 8, 1⟩
def PWM_IRQ_STATUS_FAULT : Fld := ⟨R.PWM_IRQ_STATUS, 0, 8⟩
def PWM_IRQ_ENABLE_ENABLE : Fld := ⟨R.PWM_IRQ_ENABLE, 0, 10⟩
def PWM_EVT_STATUS_OVF : Fld := ⟨R.PWM_EVT_STATUS, 16, 16⟩
def PWM_EVT_STATUS_EVT : Fld := ⟨R.PWM_EVT_STATUS, 0, 16⟩
def PWM_EVT_ENABLE_ENABLE : Fld := ⟨R.PWM_EVT_ENABLE, 0, 16⟩
def PWM_FAULT_SRCn_ACTIVE (n : Nat) : Fld := ⟨(R.PWM_FAULT_SRCn n), 16, 5⟩
def PWM_FAULT_SRCn_MASK (n : Nat) : Fld := ⟨(R.PWM_FAULT_SRCn n), 8, 7⟩
def PWM_FAULT_SRCn_FIRST (n : Nat) : Fld := ⟨(R.PWM_FAULT_SRCn n), 0, 4⟩
def GDRk_DRIVE_LS_SINK (n : Nat) : Fld := ⟨(R.GDRk_DRIVE n), 12, 4⟩
def GDRk_DRIVE_LS_SRC (n : Nat) : Fld := ⟨(R.GDRk_DRIVE n), 8, 4⟩
def GDRk_DRIVE_HS_SINK (n : Nat) : Fld := ⟨(R.GDRk_DRIVE n), 4, 4⟩
def GDRk_DRIVE_HS_SRC (n : Nat) : Fld := ⟨(R.GDRk_DRIVE n), 0, 4⟩
def GDRk_CFG_MULE (n : Nat) : Fld := ⟨(R.GDRk_CFG n), 16, 1⟩
def GDRk_CFG_DEAD_L (n : Nat) : Fld := ⟨(R.GDRk_CFG n), 8, 6⟩
def GDRk_CFG_DEAD_H (n : Nat) : Fld := ⟨(R.GDRk_CFG n), 0, 6⟩
def GDRk_VDS_DEG_L (n : Nat) : Fld := ⟨(R.GDRk_VDS n), 28, 2⟩
def GDRk_VDS_TH_L (n : Nat) : Fld := ⟨(R.GDRk_VDS n), 16, 6⟩
def GDRk_VDS_DEG_H (n : Nat) : Fld := ⟨(R.GDRk_VDS n), 12, 2⟩
def GDRk_VDS_TH_H (n : Nat) : Fld := ⟨(R.GDRk_VDS n), 0, 6⟩
def GDRk_STATUS_DT_H (n : Nat) : Fld := ⟨(R.GDRk_STATUS n), 24, 8⟩
def GDRk_STATUS_DT_L (n : Nat) : Fld := ⟨(R.GDRk_STATUS n), 16, 8⟩
def GDRk_STATUS_BST_UV_CNT (n : Nat) : Fld := ⟨(R.GDRk_STATUS n), 8, 8⟩
def GDRk_STATUS_HS_ON (n : Nat) : Fld := ⟨(R.GDRk_STATUS n), 7, 1⟩
def GDRk_STATUS_LS_ON (n : Nat) : Fld := ⟨(R.GDRk_STATUS n), 6, 1⟩
def GDRk_STATUS_BST_UV (n : Nat) : Fld := ⟨(R.GDRk_STATUS n), 5, 1⟩
def GDRk_STATUS_VDS_H (n : Nat) : Fld := ⟨(R.GDRk_STATUS n), 4, 1⟩
def GDRk_STATUS_VDS_L (n : Nat) : Fld := ⟨(R.GDRk_STATUS n), 3, 1⟩
def GDRk_STATUS_WAIT (n : Nat) : Fld := ⟨(R.GDRk_STATUS n), 2, 1⟩
def GDR_CTRL_HS_TIMEOUT : Fld := ⟨R.GDR_CTRL, 0, 2⟩
def GDR_BST_UV_BRIDGE : Fld := ⟨R.GDR_BST_UV, 0, 32⟩
def GDR_HS_FAIL_BRIDGE : Fld := ⟨R.GDR_HS_FAIL, 0, 32⟩
def GDR_VDS_H_BRIDGE : Fld := ⟨R.GDR_VDS_H, 0, 32⟩
def GDR_VDS_L_BRIDGE : Fld := ⟨R.GDR_VDS_L, 0, 32⟩
def GDR_STATUS_TRIP : Fld := ⟨R.GDR_STATUS, 8, 8⟩
def GDR_STATUS_VGRD_OK : Fld := ⟨R.GDR_STATUS, 4, 1⟩
def GDR_STATUS_DRV_EN : Fld := ⟨R.GDR_STATUS, 3, 1⟩
def GDR_STATUS_FAULT_N : Fld := ⟨R.GDR_STATUS, 2, 1⟩
def GDR_STATUS_VDRV_TRIP : Fld := ⟨R.GDR_STATUS, 1, 1⟩
def GDR_STATUS_VDRV_OK : Fld := ⟨R.GDR_STATUS, 0, 1⟩
def GDR_GUARDn_DRVEN_RELEASED (n : Nat) : Fld := ⟨(R.GDR_GUARDn n), 9, 1⟩
def GDR_GUARDn_VDS_RELEASED (n : Nat) : Fld := ⟨(R.GDR_GUARDn n), 8, 1⟩
def GDR_GUARDn_DRVEN_RELEASE (n : Nat) : Fld := ⟨(R.GDR_GUARDn n), 0, 1⟩
def GDR_IRQ_STATUS_VDS : Fld := ⟨R.GDR_IRQ_STATUS, 24, 8⟩
def GDR_IRQ_STATUS_HS_FAIL : Fld := ⟨R.GDR_IRQ_STATUS, 16, 8⟩
def GDR_IRQ_STATUS_BST_UV : Fld := ⟨R.GDR_IRQ_STATUS, 8, 8⟩
def GDR_IRQ_STATUS_GUARD_RELEASE : Fld := ⟨R.GDR_IRQ_STATUS, 6, 2⟩
def GDR_IRQ_STATUS_FAULT_N_LOW : Fld := ⟨R.GDR_IRQ_STATUS, 3, 1⟩
def GDR_IRQ_STATUS_DRV_EN_HIGH : Fld := ⟨R.GDR_IRQ_STATUS, 2, 1⟩
def GDR_IRQ_STATUS_DRV_EN_LOW : Fld := ⟨R.GDR_IRQ_STATUS, 1, 1⟩
def GDR_IRQ_STATUS_VDRV_TRIP : Fld := ⟨R.GDR_IRQ_STATUS, 0, 1⟩
def GDR_IRQ_ENABLE_ENABLE : Fld := ⟨R.GDR_IRQ_ENABLE, 0, 32⟩
def CSAs_CFG_MEDIAN (n : Nat) : Fld := ⟨(R.CSAs_CFG n), 10, 2⟩
def CSAs_CFG_INPUT (n : Nat) : Fld := ⟨(R.CSAs_CFG n), 6, 2⟩
def CSAs_CFG_RANGE (n : Nat) : Fld := ⟨(R.CSAs_CFG n), 0, 2⟩
def CSAs_OFFSET_OFFSET (n : Nat) : Fld := ⟨(R.CSAs_OFFSET n), 0, 24⟩
def CSAs_GAIN_GAIN (n : Nat) : Fld := ⟨(R.CSAs_GAIN n), 0, 24⟩
def CSAs_FAST_RESULT (n : Nat) : Fld := ⟨(R.CSAs_FAST n), 0, 32⟩
def CSAs_FINE_RESULT (n : Nat) : Fld := ⟨(R.CSAs_FINE n), 0, 32⟩
def CSAs_AVG_RESULT (n : Nat) : Fld := ⟨(R.CSAs_AVG n), 0, 32⟩
def CSAs_STATUS_RANGE_NOW (n : Nat) : Fld := ⟨(R.CSAs_STATUS n), 30, 2⟩
def CSAs_STATUS_CHG_PENDING (n : Nat) : Fld := ⟨(R.CSAs_STATUS n), 29, 1⟩
def CSAs_STATUS_CM_OUT (n : Nat) : Fld := ⟨(R.CSAs_STATUS n), 28, 1⟩
def CSAs_STATUS_FAST_LEFT (n : Nat) : Fld := ⟨(R.CSAs_STATUS n), 25, 3⟩
def CSAs_STATUS_FINE_LEFT (n : Nat) : Fld := ⟨(R.CSAs_STATUS n), 22, 3⟩
def CSAs_STATUS_RANGE_CHG (n : Nat) : Fld := ⟨(R.CSAs_STATUS n), 21, 1⟩
def CSAs_STATUS_CAL_FAIL (n : Nat) : Fld := ⟨(R.CSAs_STATUS n), 20, 1⟩
def CSAs_STATUS_NAVG (n : Nat) : Fld := ⟨(R.CSAs_STATUS n), 8, 8⟩
def CSAs_STATUS_CLIP_CNT (n : Nat) : Fld := ⟨(R.CSAs_STATUS n), 0, 8⟩
def CSAs_DCB_EST_EST (n : Nat) : Fld := ⟨(R.CSAs_DCB_EST n), 0, 24⟩
def CSA_CTRL_SYNC : Fld := ⟨R.CSA_CTRL, 0, 1⟩
def CSA_STATUS_ANA_OK : Fld := ⟨R.CSA_STATUS, 1, 1⟩
def CSA_STATUS_SYNC_PENDING : Fld := ⟨R.CSA_STATUS, 0, 1⟩
def CSA_DCBn_CFG_EN (n : Nat) : Fld := ⟨(R.CSA_DCBn_CFG n), 31, 1⟩
def CSA_DCBn_CFG_K (n : Nat) : Fld := ⟨(R.CSA_DCBn_CFG n), 24, 5⟩
def CSA_DCBn_CFG_LIMIT (n : Nat) : Fld := ⟨(R.CSA_DCBn_CFG n), 22, 2⟩
def CSA_DCBn_CFG_FREEZE_SPEED (n : Nat) : Fld := ⟨(R.CSA_DCBn_CFG n), 0, 14⟩
def CSA_DCBn_STATUS_FROZEN (n : Nat) : Fld := ⟨(R.CSA_DCBn_STATUS n), 31, 1⟩
def CSA_DCBn_STATUS_K_EFF (n : Nat) : Fld := ⟨(R.CSA_DCBn_STATUS n), 26, 5⟩
def CSA_DCBn_STATUS_AT_LIMIT (n : Nat) : Fld := ⟨(R.CSA_DCBn_STATUS n), 25, 1⟩
def CSA_DCBn_STATUS_FREEZE_WHY (n : Nat) : Fld := ⟨(R.CSA_DCBn_STATUS n), 16, 4⟩
def CSA_DCBn_STATUS_UPDATES (n : Nat) : Fld := ⟨(R.CSA_DCBn_STATUS n), 0, 16⟩
def CSA_EVT_CLIP_CHANNEL : Fld := ⟨R.CSA_EVT_CLIP, 0, 32⟩
def CSA_EVT_SETTLED_CHANNEL : Fld := ⟨R.CSA_EVT_SETTLED, 0, 32⟩
def CSA_EVT_MISC_SYNC_DONE : Fld := ⟨R.CSA_EVT_MISC, 24, 1⟩
def CSA_EVT_MISC_DCB_LIMIT : Fld := ⟨R.CSA_EVT_MISC, 16, 8⟩
def CSA_EVT_MISC_CM_OUT : Fld := ⟨R.CSA_EVT_MISC, 0, 16⟩
def CSA_EVT_ENABLE_SETTLED : Fld := ⟨R.CSA_EVT_ENABLE, 4, 1⟩
def CSA_EVT_ENABLE_SYNC_DONE : Fld := ⟨R.CSA_EVT_ENABLE, 3, 1⟩
def CSA_EVT_ENABLE_DCB_LIMIT : Fld := ⟨R.CSA_EVT_ENABLE, 2, 1⟩
def CSA_EVT_ENABLE_CM_OUT : Fld := ⟨R.CSA_EVT_ENABLE, 1, 1⟩
def CSA_EVT_ENABLE_CLIP : Fld := ⟨R.CSA_EVT_ENABLE, 0, 1⟩
def FBKn_CFG_AMP_CNT (n : Nat) : Fld := ⟨(R.FBKn_CFG n), 24, 8⟩
def FBKn_CFG_FAULT_STOP (n : Nat) : Fld := ⟨(R.FBKn_CFG n), 17, 1⟩
def FBKn_CFG_HYST_EN (n : Nat) : Fld := ⟨(R.FBKn_CFG n), 16, 1⟩
def FBKn_CFG_INDEX_GATE (n : Nat) : Fld := ⟨(R.FBKn_CFG n), 12, 2⟩
def FBKn_CFG_FILT (n : Nat) : Fld := ⟨(R.FBKn_CFG n), 8, 4⟩
def FBKn_CFG_QUAD_X (n : Nat) : Fld := ⟨(R.FBKn_CFG n), 6, 2⟩
def FBKn_CFG_INV (n : Nat) : Fld := ⟨(R.FBKn_CFG n), 4, 1⟩
def FBKn_CFG_MODE (n : Nat) : Fld := ⟨(R.FBKn_CFG n), 0, 3⟩
def FBKn_STATUS_AMP_BAD (n : Nat) : Fld := ⟨(R.FBKn_STATUS n), 11, 1⟩
def FBKn_STATUS_HALL_SECTOR (n : Nat) : Fld := ⟨(R.FBKn_STATUS n), 8, 3⟩
def FBKn_STATUS_FAULT (n : Nat) : Fld := ⟨(R.FBKn_STATUS n), 7, 1⟩
def FBKn_STATUS_REF (n : Nat) : Fld := ⟨(R.FBKn_STATUS n), 6, 1⟩
def FBKn_STATUS_HYST_HOLD (n : Nat) : Fld := ⟨(R.FBKn_STATUS n), 5, 1⟩
def FBKn_STATUS_DIR (n : Nat) : Fld := ⟨(R.FBKn_STATUS n), 4, 1⟩
def FBKn_STATUS_STANDSTILL (n : Nat) : Fld := ⟨(R.FBKn_STATUS n), 3, 1⟩
def FBKn_STATUS_SPD_VALID (n : Nat) : Fld := ⟨(R.FBKn_STATUS n), 2, 1⟩
def FBKn_STATUS_POS_VALID (n : Nat) : Fld := ⟨(R.FBKn_STATUS n), 1, 1⟩
def FBKn_STATUS_NEW_INDEX (n : Nat) : Fld := ⟨(R.FBKn_STATUS n), 0, 1⟩
def FBKn_FAULT_FIRST (n : Nat) : Fld := ⟨(R.FBKn_FAULT n), 28, 4⟩
def FBKn_FAULT_FAULTS (n : Nat) : Fld := ⟨(R.FBKn_FAULT n), 0, 12⟩
def FBKn_FAULT_MASK_DECLARE (n : Nat) : Fld := ⟨(R.FBKn_FAULT_MASK n), 0, 12⟩
def FBKn_POS_POS (n : Nat) : Fld := ⟨(R.FBKn_POS n), 0, 32⟩
def FBKn_POS_HI_UPPER (n : Nat) : Fld := ⟨(R.FBKn_POS_HI n), 0, 16⟩
def FBKn_SPEED_SPEED (n : Nat) : Fld := ⟨(R.FBKn_SPEED n), 0, 32⟩
def FBKn_SPEED_HI_UPPER (n : Nat) : Fld := ⟨(R.FBKn_SPEED_HI n), 0, 8⟩
def FBKn_SPEED_CFG_STANDSTILL_TO (n : Nat) : Fld := ⟨(R.FBKn_SPEED_CFG n), 16, 16⟩
def FBKn_SPEED_CFG_WIN (n : Nat) : Fld := ⟨(R.FBKn_SPEED_CFG n), 0, 4⟩
def FBKn_INDEX_POS_POS (n : Nat) : Fld := ⟨(R.FBKn_INDEX_POS n), 0, 32⟩
def FBKn_INDEX_POS_HI_UPPER (n : Nat) : Fld := ⟨(R.FBKn_INDEX_POS_HI n), 0, 16⟩
def FBKn_INDEX_FRAME_FRAME (n : Nat) : Fld := ⟨(R.FBKn_INDEX_FRAME n), 0, 32⟩
def FBKn_INDEX_CYC_INDEX_CNT (n : Nat) : Fld := ⟨(R.FBKn_INDEX_CYC n), 16, 16⟩
def FBKn_INDEX_CYC_CYCLE (n : Nat) : Fld := ⟨(R.FBKn_INDEX_CYC n), 0, 16⟩
def FBKn_INDEX_CHK_TOL (n : Nat) : Fld := ⟨(R.FBKn_INDEX_CHK n), 24, 8⟩
def FBKn_INDEX_CHK_PERIOD (n : Nat) : Fld := ⟨(R.FBKn_INDEX_CHK n), 0, 24⟩
def FBKn_AMP_CFG_AMP_HI (n : Nat) : Fld := ⟨(R.FBKn_AMP_CFG n), 16, 16⟩
def FBKn_AMP_CFG_AMP_LO (n : Nat) : Fld := ⟨(R.FBKn_AMP_CFG n), 0, 16⟩
def FBKn_AMP_AMP_MIN (n : Nat) : Fld := ⟨(R.FBKn_AMP n), 16, 16⟩
def FBKn_AMP_AMP_NOW (n : Nat) : Fld := ⟨(R.FBKn_AMP n), 0, 16⟩
def FBKn_SSI_CFG_EVERY (n : Nat) : Fld := ⟨(R.FBKn_SSI_CFG n), 22, 2⟩
def FBKn_SSI_CFG_EXTEND (n : Nat) : Fld := ⟨(R.FBKn_SSI_CFG n), 21, 1⟩
def FBKn_SSI_CFG_GRAY (n : Nat) : Fld := ⟨(R.FBKn_SSI_CFG n), 20, 1⟩
def FBKn_SSI_CFG_PARITY (n : Nat) : Fld := ⟨(R.FBKn_SSI_CFG n), 18, 2⟩
def FBKn_SSI_CFG_ERR_POL (n : Nat) : Fld := ⟨(R.FBKn_SSI_CFG n), 17, 1⟩
def FBKn_SSI_CFG_ERR_EN (n : Nat) : Fld := ⟨(R.FBKn_SSI_CFG n), 16, 1⟩
def FBKn_SSI_CFG_TRAIL (n : Nat) : Fld := ⟨(R.FBKn_SSI_CFG n), 12, 2⟩
def FBKn_SSI_CFG_LEAD (n : Nat) : Fld := ⟨(R.FBKn_SSI_CFG n), 8, 2⟩
def FBKn_SSI_CFG_BITS (n : Nat) : Fld := ⟨(R.FBKn_SSI_CFG n), 0, 6⟩
def FBKn_SSI_TIMING_MONO (n : Nat) : Fld := ⟨(R.FBKn_SSI_TIMING n), 16, 6⟩
def FBKn_SSI_TIMING_SAMPLE_DLY (n : Nat) : Fld := ⟨(R.FBKn_SSI_TIMING n), 8, 6⟩
def FBKn_SSI_TIMING_CLKDIV (n : Nat) : Fld := ⟨(R.FBKn_SSI_TIMING n), 0, 8⟩
def FBKn_SSI_RAW_BITS (n : Nat) : Fld := ⟨(R.FBKn_SSI_RAW n), 0, 32⟩
def FBKn_SSI_JUMP_LIMIT (n : Nat) : Fld := ⟨(R.FBKn_SSI_JUMP n), 0, 32⟩
def FBKn_ERR_CNT_COUNT (n : Nat) : Fld := ⟨(R.FBKn_ERR_CNT n), 0, 16⟩
def FBKn_IRQ_STATUS_STANDSTILL_OUT (n : Nat) : Fld := ⟨(R.FBKn_IRQ_STATUS n), 5, 1⟩
def FBKn_IRQ_STATUS_STANDSTILL_IN (n : Nat) : Fld := ⟨(R.FBKn_IRQ_STATUS n), 4, 1⟩
def FBKn_IRQ_STATUS_FAULT_CLEARED (n : Nat) : Fld := ⟨(R.FBKn_IRQ_STATUS n), 3, 1⟩
def FBKn_IRQ_STATUS_FAULT_REPORT (n : Nat) : Fld := ⟨(R.FBKn_IRQ_STATUS n), 2, 1⟩
def FBKn_IRQ_STATUS_FAULT (n : Nat) : Fld := ⟨(R.FBKn_IRQ_STATUS n), 1, 1⟩
def FBKn_IRQ_STATUS_INDEX (n : Nat) : Fld := ⟨(R.FBKn_IRQ_STATUS n), 0, 1⟩
def FBKn_IRQ_ENABLE_ENABLE (n : Nat) : Fld := ⟨(R.FBKn_IRQ_ENABLE n), 0, 6⟩
def OBSn_CFG_EN (n : Nat) : Fld := ⟨(R.OBSn_CFG n), 31, 1⟩
def OBSn_CFG_STALL_STOP (n : Nat) : Fld := ⟨(R.OBSn_CFG n), 30, 1⟩
def OBSn_CFG_R_TRACK (n : Nat) : Fld := ⟨(R.OBSn_CFG n), 29, 1⟩
def OBSn_CFG_EMF_EN (n : Nat) : Fld := ⟨(R.OBSn_CFG n), 27, 1⟩
def OBSn_CFG_ANGLE_EN (n : Nat) : Fld := ⟨(R.OBSn_CFG n), 26, 1⟩
def OBSn_CFG_STALL_CNT (n : Nat) : Fld := ⟨(R.OBSn_CFG n), 16, 8⟩
def OBSn_CFG_SETTLE (n : Nat) : Fld := ⟨(R.OBSn_CFG n), 8, 8⟩
def OBSn_CFG_FILT (n : Nat) : Fld := ⟨(R.OBSn_CFG n), 0, 4⟩
def OBSn_MOTOR_R_VALUE (n : Nat) : Fld := ⟨(R.OBSn_MOTOR_R n), 0, 16⟩
def OBSn_MOTOR_L_VALUE (n : Nat) : Fld := ⟨(R.OBSn_MOTOR_L n), 0, 16⟩
def OBSn_MOTOR_KE_VALUE (n : Nat) : Fld := ⟨(R.OBSn_MOTOR_KE n), 0, 16⟩
def OBSn_DT_COMP_TIME (n : Nat) : Fld := ⟨(R.OBSn_DT_COMP n), 0, 8⟩
def OBSn_VMIN_SPEED (n : Nat) : Fld := ⟨(R.OBSn_VMIN n), 0, 32⟩
def OBSn_STALL_CFG_EMF_LOSS (n : Nat) : Fld := ⟨(R.OBSn_STALL_CFG n), 16, 8⟩
def OBSn_STALL_CFG_DELTA_STALL (n : Nat) : Fld := ⟨(R.OBSn_STALL_CFG n), 0, 13⟩
def OBSn_DEV_CFG_DEV_EN (n : Nat) : Fld := ⟨(R.OBSn_DEV_CFG n), 31, 1⟩
def OBSn_DEV_CFG_DEV_STOP (n : Nat) : Fld := ⟨(R.OBSn_DEV_CFG n), 30, 1⟩
def OBSn_DEV_CFG_WATCH_DISARMED (n : Nat) : Fld := ⟨(R.OBSn_DEV_CFG n), 29, 1⟩
def OBSn_DEV_CFG_ADOPT (n : Nat) : Fld := ⟨(R.OBSn_DEV_CFG n), 28, 1⟩
def OBSn_DEV_CFG_SYNC (n : Nat) : Fld := ⟨(R.OBSn_DEV_CFG n), 27, 1⟩
def OBSn_DEV_CFG_DEV_CNT (n : Nat) : Fld := ⟨(R.OBSn_DEV_CFG n), 0, 8⟩
def OBSn_DEV_WIN_WIN (n : Nat) : Fld := ⟨(R.OBSn_DEV_WIN n), 0, 32⟩
def OBSn_STATUS_VALID (n : Nat) : Fld := ⟨(R.OBSn_STATUS n), 31, 1⟩
def OBSn_STATUS_WHY (n : Nat) : Fld := ⟨(R.OBSn_STATUS n), 28, 3⟩
def OBSn_STATUS_STALL (n : Nat) : Fld := ⟨(R.OBSn_STATUS n), 27, 1⟩
def OBSn_STATUS_DEV_OUT (n : Nat) : Fld := ⟨(R.OBSn_STATUS n), 26, 1⟩
def OBSn_STATUS_DEV_ACTIVE (n : Nat) : Fld := ⟨(R.OBSn_STATUS n), 25, 1⟩
def OBSn_STATUS_DEV_REF_VALID (n : Nat) : Fld := ⟨(R.OBSn_STATUS n), 24, 1⟩
def OBSn_STATUS_R_LIMIT (n : Nat) : Fld := ⟨(R.OBSn_STATUS n), 23, 1⟩
def OBSn_STATUS_DIV (n : Nat) : Fld := ⟨(R.OBSn_STATUS n), 21, 2⟩
def OBSn_STATUS_EMF_CRIT (n : Nat) : Fld := ⟨(R.OBSn_STATUS n), 20, 1⟩
def OBSn_STATUS_ANGLE_CRIT (n : Nat) : Fld := ⟨(R.OBSn_STATUS n), 19, 1⟩
def OBSn_STATUS_STALL_RUN (n : Nat) : Fld := ⟨(R.OBSn_STATUS n), 8, 8⟩
def OBSn_STATUS_DEV_RUN (n : Nat) : Fld := ⟨(R.OBSn_STATUS n), 0, 8⟩
def OBSn_LOAD_LOAD_ANGLE (n : Nat) : Fld := ⟨(R.OBSn_LOAD n), 16, 16⟩
def OBSn_LOAD_LOAD (n : Nat) : Fld := ⟨(R.OBSn_LOAD n), 0, 16⟩
def OBSn_MARGIN_EMF_RATIO (n : Nat) : Fld := ⟨(R.OBSn_MARGIN n), 16, 16⟩
def OBSn_MARGIN_STALL_MARGIN (n : Nat) : Fld := ⟨(R.OBSn_MARGIN n), 0, 16⟩
def OBSn_EMF_EB (n : Nat) : Fld := ⟨(R.OBSn_EMF n), 16, 16⟩
def OBSn_EMF_EA (n : Nat) : Fld := ⟨(R.OBSn_EMF n), 0, 16⟩
def OBSn_R_EST_R (n : Nat) : Fld := ⟨(R.OBSn_R_EST n), 0, 16⟩
def OBSn_DEV_DEV (n : Nat) : Fld := ⟨(R.OBSn_DEV n), 0, 32⟩
def OBSn_DEV_MAX_MAX (n : Nat) : Fld := ⟨(R.OBSn_DEV_MAX n), 0, 32⟩
def OBSn_DEV_REF_REF (n : Nat) : Fld := ⟨(R.OBSn_DEV_REF n), 0, 32⟩
def OBSn_DEV_REF_HI_UPPER (n : Nat) : Fld := ⟨(R.OBSn_DEV_REF_HI n), 0, 16⟩
def OBSn_DECL_CNT_DEV_DECL (n : Nat) : Fld := ⟨(R.OBSn_DECL_CNT n), 16, 16⟩
def OBSn_DECL_CNT_STALL_DECL (n : Nat) : Fld := ⟨(R.OBSn_DECL_CNT n), 0, 16⟩
def OBSn_IRQ_STATUS_R_LIMIT (n : Nat) : Fld := ⟨(R.OBSn_IRQ_STATUS n), 5, 1⟩
def OBSn_IRQ_STATUS_DEV_REF_LOST (n : Nat) : Fld := ⟨(R.OBSn_IRQ_STATUS n), 4, 1⟩
def OBSn_IRQ_STATUS_DEV_ADOPTED (n : Nat) : Fld := ⟨(R.OBSn_IRQ_STATUS n), 3, 1⟩
def OBSn_IRQ_STATUS_DEV_DISARMED (n : Nat) : Fld := ⟨(R.OBSn_IRQ_STATUS n), 2, 1⟩
def OBSn_IRQ_STATUS_DEVIATION (n : Nat) : Fld := ⟨(R.OBSn_IRQ_STATUS n), 1, 1⟩
def OBSn_IRQ_STATUS_STALL (n : Nat) : Fld := ⟨(R.OBSn_IRQ_STATUS n), 0, 1⟩
def OBSn_IRQ_ENABLE_ENABLE (n : Nat) : Fld := ⟨(R.OBSn_IRQ_ENABLE n), 0, 6⟩
def PMC_CTRL_URGENT : Fld := ⟨R.PMC_CTRL, 2, 1⟩
def PMC_CTRL_STOP : Fld := ⟨R.PMC_CTRL, 1, 1⟩
def PMC_CTRL_START : Fld := ⟨R.PMC_CTRL, 0, 1⟩
def PMC_SCAN_CFG_PERIOD : Fld := ⟨R.PMC_SCAN_CFG, 16, 16⟩
def PMC_SCAN_CFG_ENTRY : Fld := ⟨R.PMC_SCAN_CFG, 8, 5⟩
def PMC_SCAN_CFG_AUTOSTART : Fld := ⟨R.PMC_SCAN_CFG, 2, 1⟩
def PMC_SCAN_CFG_MODE : Fld := ⟨R.PMC_SCAN_CFG, 0, 2⟩
def PMC_SCAN_MASK_ENTRIES : Fld := ⟨R.PMC_SCAN_MASK, 0, 32⟩
def PMC_URG_MASK_ENTRIES : Fld := ⟨R.PMC_URG_MASK, 0, 32⟩
def PMC_STATUS_ENTRY_A : Fld := ⟨R.PMC_STATUS, 25, 5⟩
def PMC_STATUS_ENTRY_B : Fld := ⟨R.PMC_STATUS, 20, 5⟩
def PMC_STATUS_INTLV_PAUSED : Fld := ⟨R.PMC_STATUS, 6, 1⟩
def PMC_STATUS_BUSY_B : Fld := ⟨R.PMC_STATUS, 5, 1⟩
def PMC_STATUS_BUSY_A : Fld := ⟨R.PMC_STATUS, 4, 1⟩
def PMC_STATUS_URGENT : Fld := ⟨R.PMC_STATUS, 3, 1⟩
def PMC_STATUS_PEND : Fld := ⟨R.PMC_STATUS, 2, 1⟩
def PMC_STATUS_RUN : Fld := ⟨R.PMC_STATUS, 1, 1⟩
def PMC_STATUS_REF_READY : Fld := ⟨R.PMC_STATUS, 0, 1⟩
def PMC_URG_DROP_COUNT : Fld := ⟨R.PMC_URG_DROP, 0, 16⟩
def PMC_SCAN_MISS_COUNT : Fld := ⟨R.PMC_SCAN_MISS, 0, 16⟩
def PMC_REF_EARLY_COUNT : Fld := ⟨R.PMC_REF_EARLY, 0, 16⟩
def PMC_REF_CFG_EXT : Fld := ⟨R.PMC_REF_CFG, 8, 1⟩
def PMC_REF_CFG_SEL : Fld := ⟨R.PMC_REF_CFG, 4, 2⟩
def PMC_REF_CFG_BUF_EN : Fld := ⟨R.PMC_REF_CFG, 0, 1⟩
def PMC_REF_STATUS_STATE : Fld := ⟨R.PMC_REF_STATUS, 14, 2⟩
def PMC_REF_STATUS_FAILED : Fld := ⟨R.PMC_REF_STATUS, 8, 3⟩
def PMC_REF_STATUS_WARN : Fld := ⟨R.PMC_REF_STATUS, 4, 3⟩
def PMC_REF_DEV_DEV_BC : Fld := ⟨R.PMC_REF_DEV, 20, 10⟩
def PMC_REF_DEV_DEV_AC : Fld := ⟨R.PMC_REF_DEV, 10, 10⟩
def PMC_REF_DEV_DEV_AB : Fld := ⟨R.PMC_REF_DEV, 0, 10⟩
def PMC_REF_GOOD_FRAME : Fld := ⟨R.PMC_REF_GOOD, 0, 32⟩
def PMC_IRQ_STATUS_REF_SWITCH : Fld := ⟨R.PMC_IRQ_STATUS, 8, 1⟩
def PMC_IRQ_STATUS_REF_NO_MAJORITY : Fld := ⟨R.PMC_IRQ_STATUS, 7, 1⟩
def PMC_IRQ_STATUS_REF_FAIL : Fld := ⟨R.PMC_IRQ_STATUS, 6, 1⟩
def PMC_IRQ_STATUS_REF_SPLIT : Fld := ⟨R.PMC_IRQ_STATUS, 5, 1⟩
def PMC_IRQ_STATUS_REF_WARN : Fld := ⟨R.PMC_IRQ_STATUS, 4, 1⟩
def PMC_IRQ_STATUS_REF_READY : Fld := ⟨R.PMC_IRQ_STATUS, 3, 1⟩
def PMC_IRQ_STATUS_URG_DROP : Fld := ⟨R.PMC_IRQ_STATUS, 2, 1⟩
def PMC_IRQ_STATUS_SCAN_MISS : Fld := ⟨R.PMC_IRQ_STATUS, 1, 1⟩
def PMC_IRQ_STATUS_SCAN_DONE : Fld := ⟨R.PMC_IRQ_STATUS, 0, 1⟩
def PMC_IRQ_ENABLE_ENABLE : Fld := ⟨R.PMC_IRQ_ENABLE, 0, 9⟩
def PMC_OW_THR_THR : Fld := ⟨R.PMC_OW_THR, 0, 24⟩
def PMC_LIMIT_FLAGS_FLAG : Fld := ⟨R.PMC_LIMIT_FLAGS, 0, 32⟩
def PMC_EVT_LIMIT_ENTRY : Fld := ⟨R.PMC_EVT_LIMIT, 0, 32⟩
def PMC_EVT_OPEN_ENTRY : Fld := ⟨R.PMC_EVT_OPEN, 0, 32⟩
def PMC_EVT_ENABLE_OPEN_WIRE : Fld := ⟨R.PMC_EVT_ENABLE, 1, 1⟩
def PMC_EVT_ENABLE_LIMIT : Fld := ⟨R.PMC_EVT_ENABLE, 0, 1⟩
def PMC_RESe_RESULT (n : Nat) : Fld := ⟨(R.PMC_RESe n), 0, 32⟩
def PMC_CFGe_OW_I (n : Nat) : Fld := ⟨(R.PMC_CFGe n), 18, 2⟩
def PMC_CFGe_OW (n : Nat) : Fld := ⟨(R.PMC_CFGe n), 16, 2⟩
def PMC_CFGe_MEDIAN (n : Nat) : Fld := ⟨(R.PMC_CFGe n), 12, 2⟩
def PMC_CFGe_RATE (n : Nat) : Fld := ⟨(R.PMC_CFGe n), 8, 3⟩
def PMC_CFGe_DIFF (n : Nat) : Fld := ⟨(R.PMC_CFGe n), 4, 1⟩
def PMC_CFGe_GAIN (n : Nat) : Fld := ⟨(R.PMC_CFGe n), 0, 3⟩
def PMC_OFFSETe_VALUE (n : Nat) : Fld := ⟨(R.PMC_OFFSETe n), 0, 24⟩
def PMC_GAINe_VALUE (n : Nat) : Fld := ⟨(R.PMC_GAINe n), 0, 24⟩
def PMC_LIM_LOe_LIMIT (n : Nat) : Fld := ⟨(R.PMC_LIM_LOe n), 0, 24⟩
def PMC_LIM_HIe_LIMIT (n : Nat) : Fld := ⟨(R.PMC_LIM_HIe n), 0, 24⟩
def PMC_STATe_CLIP_CNT (n : Nat) : Fld := ⟨(R.PMC_STATe n), 8, 8⟩
def PMC_STATe_OPEN (n : Nat) : Fld := ⟨(R.PMC_STATe n), 2, 1⟩
def PMC_STATe_ABOVE (n : Nat) : Fld := ⟨(R.PMC_STATe n), 1, 1⟩
def PMC_STATe_BELOW (n : Nat) : Fld := ⟨(R.PMC_STATe n), 0, 1⟩
def CMPc_CFG_TEST (n : Nat) : Fld := ⟨(R.CMPc_CFG n), 13, 3⟩
def CMPc_CFG_DEG (n : Nat) : Fld := ⟨(R.CMPc_CFG n), 8, 2⟩
def CMPc_CFG_HYST (n : Nat) : Fld := ⟨(R.CMPc_CFG n), 4, 2⟩
def CMPc_CFG_POL (n : Nat) : Fld := ⟨(R.CMPc_CFG n), 1, 1⟩
def CMPc_CFG_EN (n : Nat) : Fld := ⟨(R.CMPc_CFG n), 0, 1⟩
def CMPc_DAC_CODE (n : Nat) : Fld := ⟨(R.CMPc_DAC n), 0, 10⟩
def CMPc_STATUS_SELFTEST_FAIL (n : Nat) : Fld := ⟨(R.CMPc_STATUS n), 12, 1⟩
def CMPc_STATUS_THR_CLIP (n : Nat) : Fld := ⟨(R.CMPc_STATUS n), 11, 1⟩
def CMPc_STATUS_RB_FAIL (n : Nat) : Fld := ⟨(R.CMPc_STATUS n), 10, 1⟩
def CMPc_STATUS_RB_RESULT (n : Nat) : Fld := ⟨(R.CMPc_STATUS n), 8, 2⟩
def CMPc_STATUS_ST_STEP (n : Nat) : Fld := ⟨(R.CMPc_STATUS n), 5, 3⟩
def CMPc_STATUS_ST_RESULT (n : Nat) : Fld := ⟨(R.CMPc_STATUS n), 3, 2⟩
def CMPc_STATUS_BLANKED (n : Nat) : Fld := ⟨(R.CMPc_STATUS n), 2, 1⟩
def CMPc_STATUS_OUT (n : Nat) : Fld := ⟨(R.CMPc_STATUS n), 1, 1⟩
def CMPc_STATUS_RAW (n : Nat) : Fld := ⟨(R.CMPc_STATUS n), 0, 1⟩
def CMPc_DAC_RB_RESULT (n : Nat) : Fld := ⟨(R.CMPc_DAC_RB n), 0, 32⟩
def CMP_TRIP_LO_TRIP : Fld := ⟨R.CMP_TRIP_LO, 0, 32⟩
def CMP_TRIP_HI_TRIP : Fld := ⟨R.CMP_TRIP_HI, 0, 8⟩
def CMP_OUT_LO_OUT : Fld := ⟨R.CMP_OUT_LO, 0, 32⟩
def CMP_OUT_HI_OUT : Fld := ⟨R.CMP_OUT_HI, 0, 8⟩
def CMP_EVT_ENABLE_RB_FAIL : Fld := ⟨R.CMP_EVT_ENABLE, 3, 1⟩
def CMP_EVT_ENABLE_SELFTEST_FAIL : Fld := ⟨R.CMP_EVT_ENABLE, 2, 1⟩
def CMP_EVT_ENABLE_THR_CLIP : Fld := ⟨R.CMP_EVT_ENABLE, 1, 1⟩
def CMP_EVT_ENABLE_TRIP : Fld := ⟨R.CMP_EVT_ENABLE, 0, 1⟩
def NETp_CFG_EN (n : Nat) : Fld := ⟨(R.NETp_CFG n), 0, 1⟩
def NETp_STATUS_OFFSET_VALID (n : Nat) : Fld := ⟨(R.NETp_STATUS n), 11, 1⟩
def NETp_STATUS_DELAY_VALID (n : Nat) : Fld := ⟨(R.NETp_STATUS n), 10, 1⟩
def NETp_STATUS_REASON (n : Nat) : Fld := ⟨(R.NETp_STATUS n), 8, 2⟩
def NETp_STATUS_LINK_VER (n : Nat) : Fld := ⟨(R.NETp_STATUS n), 4, 4⟩
def NETp_STATUS_STATE (n : Nat) : Fld := ⟨(R.NETp_STATUS n), 0, 3⟩
def NETp_DELAY_ASYM (n : Nat) : Fld := ⟨(R.NETp_DELAY n), 16, 16⟩
def NETp_DELAY_DELAY (n : Nat) : Fld := ⟨(R.NETp_DELAY n), 0, 16⟩
def NETp_OFFSET_OFFSET (n : Nat) : Fld := ⟨(R.NETp_OFFSET n), 0, 32⟩
def NETp_TEST_LOOP (n : Nat) : Fld := ⟨(R.NETp_TEST n), 2, 2⟩
def NETp_TEST_PATTERN (n : Nat) : Fld := ⟨(R.NETp_TEST n), 0, 2⟩
def NETp_CNT_COUNT (n j : Nat) : Fld := ⟨(R.NETp_CNT n j), 0, 16⟩
def NET_NODE_NUMBERED : Fld := ⟨R.NET_NODE, 31, 1⟩
def NET_NODE_NODE : Fld := ⟨R.NET_NODE, 16, 12⟩
def NET_NODE_FWD_LAT : Fld := ⟨R.NET_NODE, 0, 10⟩
def NET_CFG_PRIO : Fld := ⟨R.NET_CFG, 28, 4⟩
def NET_CFG_ROOT : Fld := ⟨R.NET_CFG, 27, 1⟩
def NET_CFG_SUP_MISS : Fld := ⟨R.NET_CFG, 16, 4⟩
def NET_CFG_SUP_AXES : Fld := ⟨R.NET_CFG, 0, 8⟩
def NET_RING_TOPO_EPOCH : Fld := ⟨R.NET_RING, 16, 16⟩
def NET_RING_FEATURES : Fld := ⟨R.NET_RING, 8, 8⟩
def NET_RING_RING_VER : Fld := ⟨R.NET_RING, 4, 4⟩
def NET_RING_ROOT_HERE : Fld := ⟨R.NET_RING, 3, 1⟩
def NET_RING_SUP_LOST : Fld := ⟨R.NET_RING, 2, 1⟩
def NET_RING_ISOLATED : Fld := ⟨R.NET_RING, 1, 1⟩
def NET_RING_WRAPPED : Fld := ⟨R.NET_RING, 0, 1⟩
def NET_CYCLE_LEN : Fld := ⟨R.NET_CYCLE, 0, 32⟩
def NET_TIME_LO_TIME : Fld := ⟨R.NET_TIME_LO, 0, 32⟩
def NET_TIME_HI_TIME : Fld := ⟨R.NET_TIME_HI, 0, 32⟩
def NET_TIME_STATUS_EPOCH : Fld := ⟨R.NET_TIME_STATUS, 16, 16⟩
def NET_TIME_STATUS_SLEWING : Fld := ⟨R.NET_TIME_STATUS, 2, 1⟩
def NET_TIME_STATUS_HOLDOVER : Fld := ⟨R.NET_TIME_STATUS, 1, 1⟩
def NET_TIME_STATUS_LOCKED : Fld := ⟨R.NET_TIME_STATUS, 0, 1⟩
def NET_TIME_ERR_ERR : Fld := ⟨R.NET_TIME_ERR, 0, 32⟩
def NET_TIME_CFG_STEP_THR : Fld := ⟨R.NET_TIME_CFG, 16, 16⟩
def NET_TIME_CFG_HOLDOVER : Fld := ⟨R.NET_TIME_CFG, 0, 16⟩
def NET_TIME_SET_LO_TIME : Fld := ⟨R.NET_TIME_SET_LO, 0, 32⟩
def NET_TIME_SET_HI_TIME : Fld := ⟨R.NET_TIME_SET_HI, 0, 32⟩
def NET_ROOT_CMD_FROM_CAL : Fld := ⟨R.NET_ROOT_CMD, 8, 1⟩
def NET_ROOT_CMD_CMD : Fld := ⟨R.NET_ROOT_CMD, 0, 8⟩
def NET_ROOT_CYCLE_LEN : Fld := ⟨R.NET_ROOT_CYCLE, 0, 32⟩
def NET_ROOT_CFG_REPLICA_EN : Fld := ⟨R.NET_ROOT_CFG, 17, 1⟩
def NET_ROOT_CFG_AUTH_EN : Fld := ⟨R.NET_ROOT_CFG, 16, 1⟩
def NET_ROOT_CFG_MBX_SLOTS : Fld := ⟨R.NET_ROOT_CFG, 0, 11⟩
def NET_AUTH_CFG_STRICT : Fld := ⟨R.NET_AUTH_CFG, 4, 1⟩
def NET_AUTH_CFG_REQUIRE_READ : Fld := ⟨R.NET_AUTH_CFG, 3, 1⟩
def NET_AUTH_CFG_REQUIRED : Fld := ⟨R.NET_AUTH_CFG, 2, 1⟩
def NET_AUTH_CFG_TX_KEY : Fld := ⟨R.NET_AUTH_CFG, 0, 2⟩
def NET_KEYk_KEY (n : Nat) : Fld := ⟨(R.NET_KEYk n), 0, 32⟩
def NET_MBX_CFG_EVQ_EN : Fld := ⟨R.NET_MBX_CFG, 31, 1⟩
def NET_MBX_CFG_DEST_ROOT : Fld := ⟨R.NET_MBX_CFG, 30, 1⟩
def NET_MBX_CFG_DEST : Fld := ⟨R.NET_MBX_CFG, 16, 12⟩
def NET_MBX_CFG_CREDIT : Fld := ⟨R.NET_MBX_CFG, 0, 4⟩
def NET_MBX_STATUS_EVQ_OVF : Fld := ⟨R.NET_MBX_STATUS, 16, 16⟩
def NET_MBX_STATUS_EVQ_LEVEL : Fld := ⟨R.NET_MBX_STATUS, 0, 9⟩
def NET_ROLE_SEL_SEL : Fld := ⟨R.NET_ROLE_SEL, 0, 8⟩
def NET_ROLE_ROLE : Fld := ⟨R.NET_ROLE, 16, 16⟩
def NET_ROLE_EPOCH : Fld := ⟨R.NET_ROLE, 0, 16⟩
def NET_NAK_CNT_AUTH : Fld := ⟨R.NET_NAK_CNT, 16, 16⟩
def NET_NAK_CNT_STALE : Fld := ⟨R.NET_NAK_CNT, 0, 16⟩
def NET_IRQ_STATUS_LOOP_REFUSED : Fld := ⟨R.NET_IRQ_STATUS, 10, 1⟩
def NET_IRQ_STATUS_FEATURES_CHANGED : Fld := ⟨R.NET_IRQ_STATUS, 9, 1⟩
def NET_IRQ_STATUS_AUTH_FAIL : Fld := ⟨R.NET_IRQ_STATUS, 8, 1⟩
def NET_IRQ_STATUS_STALE_ROLE : Fld := ⟨R.NET_IRQ_STATUS, 7, 1⟩
def NET_IRQ_STATUS_EVQ_OVF : Fld := ⟨R.NET_IRQ_STATUS, 6, 1⟩
def NET_IRQ_STATUS_NODE_RENUMBERED : Fld := ⟨R.NET_IRQ_STATUS, 5, 1⟩
def NET_IRQ_STATUS_ISOLATED : Fld := ⟨R.NET_IRQ_STATUS, 4, 1⟩
def NET_IRQ_STATUS_SUP_LOST : Fld := ⟨R.NET_IRQ_STATUS, 3, 1⟩
def NET_IRQ_STATUS_TIME_STEP : Fld := ⟨R.NET_IRQ_STATUS, 2, 1⟩
def NET_IRQ_STATUS_TIME_LOST : Fld := ⟨R.NET_IRQ_STATUS, 1, 1⟩
def NET_IRQ_STATUS_TIME_LOCKED : Fld := ⟨R.NET_IRQ_STATUS, 0, 1⟩
def NET_IRQ_ENABLE_ENABLE : Fld := ⟨R.NET_IRQ_ENABLE, 0, 11⟩
def NVS_STATUS_QUEUE : Fld := ⟨R.NVS_STATUS, 4, 5⟩
def NVS_STATUS_PLS_PENDING : Fld := ⟨R.NVS_STATUS, 3, 1⟩
def NVS_STATUS_RESTORING : Fld := ⟨R.NVS_STATUS, 2, 1⟩
def NVS_STATUS_HOST_BUSY : Fld := ⟨R.NVS_STATUS, 1, 1⟩
def NVS_STATUS_BUSY : Fld := ⟨R.NVS_STATUS, 0, 1⟩
def NVS_CFG_AUTO_RESTORE : Fld := ⟨R.NVS_CFG, 9, 1⟩
def NVS_CFG_AUTOSAVE : Fld := ⟨R.NVS_CFG, 0, 8⟩
def NVS_HU_CFG_REMEASURE : Fld := ⟨R.NVS_HU_CFG, 24, 8⟩
def NVS_HU_CFG_P_HU : Fld := ⟨R.NVS_HU_CFG, 14, 10⟩
def NVS_HU_CFG_V_MIN : Fld := ⟨R.NVS_HU_CFG, 0, 9⟩
def NVS_CHOLD_STATE : Fld := ⟨R.NVS_CHOLD, 30, 2⟩
def NVS_CHOLD_C_MEAS : Fld := ⟨R.NVS_CHOLD, 0, 16⟩
def NVS_HOLD_VHOLD : Fld := ⟨R.NVS_HOLD, 16, 16⟩
def NVS_HOLD_E_AVAIL : Fld := ⟨R.NVS_HOLD, 0, 16⟩
def NVS_PLS_CFG_WAIT : Fld := ⟨R.NVS_PLS_CFG, 0, 7⟩
def NVS_PLS_STATUS_SEQ : Fld := ⟨R.NVS_PLS_STATUS, 4, 28⟩
def NVS_PLS_STATUS_SOURCE : Fld := ⟨R.NVS_PLS_STATUS, 2, 2⟩
def NVS_PLS_STATUS_CONSUMED : Fld := ⟨R.NVS_PLS_STATUS, 1, 1⟩
def NVS_PLS_STATUS_SLOT : Fld := ⟨R.NVS_PLS_STATUS, 0, 1⟩
def NVS_CMD_ID : Fld := ⟨R.NVS_CMD, 8, 8⟩
def NVS_CMD_CMD : Fld := ⟨R.NVS_CMD, 0, 8⟩
def NVS_RESULT_CMD : Fld := ⟨R.NVS_RESULT, 8, 8⟩
def NVS_RESULT_CODE : Fld := ⟨R.NVS_RESULT, 0, 8⟩
def NVS_REC_LEN_VALUE : Fld := ⟨R.NVS_REC_LEN, 0, 32⟩
def NVS_REC_GEN_VALUE : Fld := ⟨R.NVS_REC_GEN, 0, 32⟩
def NVS_BUF_PAGE_PAGE : Fld := ⟨R.NVS_BUF_PAGE, 0, 2⟩
def NVS_REC_DIV_ID : Fld := ⟨R.NVS_REC_DIV, 0, 32⟩
def NVS_REC_DIV_HI_ID : Fld := ⟨R.NVS_REC_DIV_HI, 0, 31⟩
def NVS_REC_LOST_ID : Fld := ⟨R.NVS_REC_LOST, 0, 32⟩
def NVS_REC_LOST_HI_ID : Fld := ⟨R.NVS_REC_LOST_HI, 0, 31⟩
def NVS_ENERGY_CNT_COUNT : Fld := ⟨R.NVS_ENERGY_CNT, 0, 16⟩
def NVS_SCRUB_CNT_UE_CNT : Fld := ⟨R.NVS_SCRUB_CNT, 16, 16⟩
def NVS_SCRUB_CNT_CE_CNT : Fld := ⟨R.NVS_SCRUB_CNT, 0, 16⟩
def NVS_SCRUB_ADDR_VALID : Fld := ⟨R.NVS_SCRUB_ADDR, 31, 1⟩
def NVS_SCRUB_ADDR_ADDR : Fld := ⟨R.NVS_SCRUB_ADDR, 0, 26⟩
def NVS_SPARE_FREE : Fld := ⟨R.NVS_SPARE, 0, 15⟩
def NVS_LOG_HEAD_SEQ : Fld := ⟨R.NVS_LOG_HEAD, 0, 32⟩
def NVS_LOG_TAIL_SEQ : Fld := ⟨R.NVS_LOG_TAIL, 0, 32⟩
def NVS_LOG_SEL_SEQ : Fld := ⟨R.NVS_LOG_SEL, 0, 32⟩
def NVS_LOG_LOST_FOUND : Fld := ⟨R.NVS_LOG_LOST, 31, 1⟩
def NVS_LOG_LOST_COUNT : Fld := ⟨R.NVS_LOG_LOST, 0, 16⟩
def NVS_LOG_ENTRYw_WORD (n : Nat) : Fld := ⟨(R.NVS_LOG_ENTRYw n), 0, 32⟩
def NVS_REP_CFG_EN : Fld := ⟨R.NVS_REP_CFG, 31, 1⟩
def NVS_REP_CFG_KEEP_DAYS : Fld := ⟨R.NVS_REP_CFG, 0, 10⟩
def NVS_REP_OWNk_STATE (n : Nat) : Fld := ⟨(R.NVS_REP_OWNk n), 30, 2⟩
def NVS_REP_OWNk_HOLDER (n : Nat) : Fld := ⟨(R.NVS_REP_OWNk n), 16, 12⟩
def NVS_REP_OWNk_VERSION (n : Nat) : Fld := ⟨(R.NVS_REP_OWNk n), 0, 16⟩
def NVS_REP_HELDj_STATE (n : Nat) : Fld := ⟨(R.NVS_REP_HELDj n), 30, 2⟩
def NVS_REP_HELDj_OWNER (n : Nat) : Fld := ⟨(R.NVS_REP_HELDj n), 16, 12⟩
def NVS_REP_HELDj_VERSION (n : Nat) : Fld := ⟨(R.NVS_REP_HELDj n), 0, 16⟩
def NVS_REP_STATUS_STATE : Fld := ⟨R.NVS_REP_STATUS, 28, 4⟩
def NVS_REP_STATUS_OFFERS : Fld := ⟨R.NVS_REP_STATUS, 24, 4⟩
def NVS_REP_STATUS_SOURCE : Fld := ⟨R.NVS_REP_STATUS, 12, 12⟩
def NVS_REP_STATUS_CODE : Fld := ⟨R.NVS_REP_STATUS, 0, 8⟩
def NVS_IRQ_STATUS_BANK_DAMAGED : Fld := ⟨R.NVS_IRQ_STATUS, 18, 1⟩
def NVS_IRQ_STATUS_SPARE_LOW : Fld := ⟨R.NVS_IRQ_STATUS, 17, 1⟩
def NVS_IRQ_STATUS_RESTORE_FAILED : Fld := ⟨R.NVS_IRQ_STATUS, 16, 1⟩
def NVS_IRQ_STATUS_RESTORE_DONE : Fld := ⟨R.NVS_IRQ_STATUS, 15, 1⟩
def NVS_IRQ_STATUS_REPLICA_DROPPED : Fld := ⟨R.NVS_IRQ_STATUS, 14, 1⟩
def NVS_IRQ_STATUS_REPLICA_UNPLACED : Fld := ⟨R.NVS_IRQ_STATUS, 13, 1⟩
def NVS_IRQ_STATUS_LOG_LOST : Fld := ⟨R.NVS_IRQ_STATUS, 12, 1⟩
def NVS_IRQ_STATUS_SCRUB_UE : Fld := ⟨R.NVS_IRQ_STATUS, 11, 1⟩
def NVS_IRQ_STATUS_SCRUB_DONE : Fld := ⟨R.NVS_IRQ_STATUS, 10, 1⟩
def NVS_IRQ_STATUS_CHOLD_LOW : Fld := ⟨R.NVS_IRQ_STATUS, 9, 1⟩
def NVS_IRQ_STATUS_CHOLD_DONE : Fld := ⟨R.NVS_IRQ_STATUS, 8, 1⟩
def NVS_IRQ_STATUS_PLS_RESTORED : Fld := ⟨R.NVS_IRQ_STATUS, 7, 1⟩
def NVS_IRQ_STATUS_PLS_DONE : Fld := ⟨R.NVS_IRQ_STATUS, 6, 1⟩
def NVS_IRQ_STATUS_COMMIT_DONE : Fld := ⟨R.NVS_IRQ_STATUS, 5, 1⟩
def NVS_IRQ_STATUS_ENERGY_LOW : Fld := ⟨R.NVS_IRQ_STATUS, 4, 1⟩
def NVS_IRQ_STATUS_WRITE_FAIL : Fld := ⟨R.NVS_IRQ_STATUS, 3, 1⟩
def NVS_IRQ_STATUS_RECORD_LOST : Fld := ⟨R.NVS_IRQ_STATUS, 2, 1⟩
def NVS_IRQ_STATUS_RECORD_DIVERGED : Fld := ⟨R.NVS_IRQ_STATUS, 1, 1⟩
def NVS_IRQ_STATUS_RECORD_REPAIRED : Fld := ⟨R.NVS_IRQ_STATUS, 0, 1⟩
def NVS_IRQ_ENABLE_ENABLE : Fld := ⟨R.NVS_IRQ_ENABLE, 0, 19⟩
def NVS_BUF_DATA (n : Nat) : Fld := ⟨(R.NVS_BUF n), 0, 32⟩
def SUP_STATUS_STATE : Fld := ⟨R.SUP_STATUS, 29, 3⟩
def SUP_STATUS_VIO_OK : Fld := ⟨R.SUP_STATUS, 8, 1⟩
def SUP_STATUS_VBAT_LOW : Fld := ⟨R.SUP_STATUS, 7, 1⟩
def SUP_STATUS_TSD : Fld := ⟨R.SUP_STATUS, 6, 1⟩
def SUP_STATUS_TEMP_WARN : Fld := ⟨R.SUP_STATUS, 5, 1⟩
def SUP_STATUS_HU_READY : Fld := ⟨R.SUP_STATUS, 4, 1⟩
def SUP_STATUS_VDRV_OK : Fld := ⟨R.SUP_STATUS, 3, 1⟩
def SUP_STATUS_VM_OV : Fld := ⟨R.SUP_STATUS, 2, 1⟩
def SUP_STATUS_VM_GOOD : Fld := ⟨R.SUP_STATUS, 1, 1⟩
def SUP_STATUS_VM_FAIL : Fld := ⟨R.SUP_STATUS, 0, 1⟩
def SUP_VM_CFG_OV : Fld := ⟨R.SUP_VM_CFG, 24, 8⟩
def SUP_VM_CFG_HYST : Fld := ⟨R.SUP_VM_CFG, 16, 2⟩
def SUP_VM_CFG_FAIL : Fld := ⟨R.SUP_VM_CFG, 0, 9⟩
def SUP_VM_VM_MIN : Fld := ⟨R.SUP_VM, 16, 16⟩
def SUP_VM_VM_NOW : Fld := ⟨R.SUP_VM, 0, 16⟩
def SUP_VDRV_CFG_EN : Fld := ⟨R.SUP_VDRV_CFG, 8, 1⟩
def SUP_VDRV_CFG_SET : Fld := ⟨R.SUP_VDRV_CFG, 0, 3⟩
def SUP_HU_CFG_BOOST : Fld := ⟨R.SUP_HU_CFG, 24, 8⟩
def SUP_HU_CFG_ICHG : Fld := ⟨R.SUP_HU_CFG, 0, 4⟩
def SUP_PF_CFG_SHED : Fld := ⟨R.SUP_PF_CFG, 31, 1⟩
def SUP_PF_CFG_SHED_DELAY : Fld := ⟨R.SUP_PF_CFG, 0, 10⟩
def SUP_TEMP_CFG_WARN : Fld := ⟨R.SUP_TEMP_CFG, 0, 8⟩
def SUP_TEMP_ANA : Fld := ⟨R.SUP_TEMP, 8, 8⟩
def SUP_TEMP_CTRL : Fld := ⟨R.SUP_TEMP, 0, 8⟩
def SUP_RST_CAUSE_CAUSE : Fld := ⟨R.SUP_RST_CAUSE, 0, 8⟩
def SUP_RST_CMD_KEY : Fld := ⟨R.SUP_RST_CMD, 24, 8⟩
def SUP_RST_CMD_CMD : Fld := ⟨R.SUP_RST_CMD, 0, 8⟩
def SUP_WDT_CFG_EN : Fld := ⟨R.SUP_WDT_CFG, 31, 1⟩
def SUP_WDT_CFG_TIMEOUT : Fld := ⟨R.SUP_WDT_CFG, 0, 16⟩
def SUP_WDT_KICK_KICK : Fld := ⟨R.SUP_WDT_KICK, 0, 32⟩
def SUP_IRQ_STATUS_CAL_SYNC : Fld := ⟨R.SUP_IRQ_STATUS, 10, 1⟩
def SUP_IRQ_STATUS_CAL_SET : Fld := ⟨R.SUP_IRQ_STATUS, 9, 1⟩
def SUP_IRQ_STATUS_OSC_STOP : Fld := ⟨R.SUP_IRQ_STATUS, 8, 1⟩
def SUP_IRQ_STATUS_VBAT_LOW : Fld := ⟨R.SUP_IRQ_STATUS, 7, 1⟩
def SUP_IRQ_STATUS_TSD : Fld := ⟨R.SUP_IRQ_STATUS, 6, 1⟩
def SUP_IRQ_STATUS_TEMP_WARN : Fld := ⟨R.SUP_IRQ_STATUS, 5, 1⟩
def SUP_IRQ_STATUS_HU_READY : Fld := ⟨R.SUP_IRQ_STATUS, 4, 1⟩
def SUP_IRQ_STATUS_VDRV_FAIL : Fld := ⟨R.SUP_IRQ_STATUS, 3, 1⟩
def SUP_IRQ_STATUS_VM_OV : Fld := ⟨R.SUP_IRQ_STATUS, 2, 1⟩
def SUP_IRQ_STATUS_VM_GOOD : Fld := ⟨R.SUP_IRQ_STATUS, 1, 1⟩
def SUP_IRQ_STATUS_VM_FAIL : Fld := ⟨R.SUP_IRQ_STATUS, 0, 1⟩
def SUP_IRQ_ENABLE_ENABLE : Fld := ⟨R.SUP_IRQ_ENABLE, 0, 11⟩
def CAL_SEC_LO_SEC : Fld := ⟨R.CAL_SEC_LO, 0, 32⟩
def CAL_SEC_HI_SEC : Fld := ⟨R.CAL_SEC_HI, 0, 16⟩
def CAL_SUBSEC_TICKS : Fld := ⟨R.CAL_SUBSEC, 0, 15⟩
def CAL_DATE_BEYOND : Fld := ⟨R.CAL_DATE, 31, 1⟩
def CAL_DATE_YEAR : Fld := ⟨R.CAL_DATE, 12, 8⟩
def CAL_DATE_MONTH : Fld := ⟨R.CAL_DATE, 8, 4⟩
def CAL_DATE_DAY : Fld := ⟨R.CAL_DATE, 3, 5⟩
def CAL_DATE_WEEKDAY : Fld := ⟨R.CAL_DATE, 0, 3⟩
def CAL_TIME_HOUR : Fld := ⟨R.CAL_TIME, 12, 5⟩
def CAL_TIME_MINUTE : Fld := ⟨R.CAL_TIME, 6, 6⟩
def CAL_TIME_SECOND : Fld := ⟨R.CAL_TIME, 0, 6⟩
def CAL_SET_LO_SEC : Fld := ⟨R.CAL_SET_LO, 0, 32⟩
def CAL_SET_HI_SEC : Fld := ⟨R.CAL_SET_HI, 0, 32⟩
def CAL_CFG_NET_SYNC : Fld := ⟨R.CAL_CFG, 31, 1⟩
def CAL_CFG_TRIM : Fld := ⟨R.CAL_CFG, 0, 8⟩
def CAL_STATUS_PENDING : Fld := ⟨R.CAL_STATUS, 3, 1⟩
def CAL_STATUS_TIME_VALID : Fld := ⟨R.CAL_STATUS, 2, 1⟩
def CAL_STATUS_SRC : Fld := ⟨R.CAL_STATUS, 1, 1⟩
def CAL_STATUS_OSC_STOP : Fld := ⟨R.CAL_STATUS, 0, 1⟩
def SYS_ID_PART : Fld := ⟨R.SYS_ID, 16, 16⟩
def SYS_ID_STEPPING : Fld := ⟨R.SYS_ID, 8, 8⟩
def SYS_ID_GRADE : Fld := ⟨R.SYS_ID, 4, 4⟩
def SYS_SERIAL_LO_SERIAL : Fld := ⟨R.SYS_SERIAL_LO, 0, 32⟩
def SYS_SERIAL_HI_SERIAL : Fld := ⟨R.SYS_SERIAL_HI, 0, 32⟩
def SYS_VER_A_HOST_MAX : Fld := ⟨R.SYS_VER_A, 24, 8⟩
def SYS_VER_A_HOST_MIN : Fld := ⟨R.SYS_VER_A, 16, 8⟩
def SYS_VER_A_IMAGE_MAX : Fld := ⟨R.SYS_VER_A, 8, 8⟩
def SYS_VER_A_IMAGE_MIN : Fld := ⟨R.SYS_VER_A, 0, 8⟩
def SYS_VER_B_RING_MAX : Fld := ⟨R.SYS_VER_B, 8, 8⟩
def SYS_VER_B_RING_MIN : Fld := ⟨R.SYS_VER_B, 0, 8⟩
def SYS_IRQ_ROLLUP_BLOCK : Fld := ⟨R.SYS_IRQ_ROLLUP, 0, 14⟩
def HOST_TSTAT_EXEC : Fld := ⟨R.HOST_TSTAT, 8, 7⟩
def HOST_TSTAT_STATUS : Fld := ⟨R.HOST_TSTAT, 0, 8⟩
def HOST_CFG_INT_PP : Fld := ⟨R.HOST_CFG, 1, 1⟩
def HOST_CFG_INT_EN : Fld := ⟨R.HOST_CFG, 0, 1⟩
def HOST_ERR_CNT_COUNT : Fld := ⟨R.HOST_ERR_CNT, 0, 16⟩
def DBG_CTRL_KEY : Fld := ⟨R.DBG_CTRL, 24, 8⟩
def DBG_CTRL_RESET : Fld := ⟨R.DBG_CTRL, 4, 1⟩
def DBG_CTRL_STEP : Fld := ⟨R.DBG_CTRL, 3, 1⟩
def DBG_CTRL_RESUME : Fld := ⟨R.DBG_CTRL, 2, 1⟩
def DBG_CTRL_SAFE : Fld := ⟨R.DBG_CTRL, 1, 1⟩
def DBG_CTRL_HALT : Fld := ⟨R.DBG_CTRL, 0, 1⟩
def DBG_STATUS_LOCKED : Fld := ⟨R.DBG_STATUS, 4, 1⟩
def DBG_STATUS_BSCAN_BLOCKED : Fld := ⟨R.DBG_STATUS, 3, 1⟩
def DBG_STATUS_TABLE_RELOAD : Fld := ⟨R.DBG_STATUS, 2, 1⟩
def DBG_STATUS_STEPPING : Fld := ⟨R.DBG_STATUS, 1, 1⟩
def DBG_STATUS_HALTED : Fld := ⟨R.DBG_STATUS, 0, 1⟩
def DBG_LOCK_KEY : Fld := ⟨R.DBG_LOCK, 24, 8⟩
def DBG_LOCK_LOCK : Fld := ⟨R.DBG_LOCK, 0, 1⟩
def TEST_CTRL_KEY : Fld := ⟨R.TEST_CTRL, 24, 8⟩
def TEST_CTRL_AXES : Fld := ⟨R.TEST_CTRL, 16, 8⟩
def TEST_CTRL_MODE : Fld := ⟨R.TEST_CTRL, 0, 2⟩
def TEST_MRAM_PAGE_PAGE : Fld := ⟨R.TEST_MRAM_PAGE, 0, 15⟩
def TEST_MRAM_DATA (n : Nat) : Fld := ⟨(R.TEST_MRAM n), 0, 32⟩
end F

/-- The rows of the SYS block. -/
def rowsSYS : List RegRow := [
  ⟨R.SYS_ID, 1, 0x4, 1, 0x4, 0x0, 0x0, 0x0, 0x0, 0x0, 0x81400000⟩,
  ⟨R.SYS_SERIAL_LO, 1, 0x4, 1, 0x4, 0x0, 0x0, 0x0, 0x0, 0x0, 0x0⟩,
  ⟨R.SYS_SERIAL_HI, 1, 0x4, 1, 0x4, 0x0, 0x0, 0x0, 0x0, 0x0, 0x0⟩,
  ⟨R.SYS_VER_A, 1, 0x4, 1, 0x4, 0x0, 0x0, 0x0, 0x0, 0x0, 0x1010302⟩,
  ⟨R.SYS_VER_B, 1, 0x4, 1, 0x4, 0x0, 0x0, 0x0, 0x0, 0x0, 0x201⟩,
  ⟨R.SYS_IRQ_ROLLUP, 1, 0x4, 1, 0x4, 0x0, 0x0, 0x0, 0x0, 0x0, 0x0⟩]

/-- The rows of the FRM block. -/
def rowsFRM : List RegRow := [
  ⟨R.FRM_PERIOD, 1, 0x4, 1, 0x4, 0x0, 0x0, 0x0, 0x0, 0x0, 0x2710⟩,
  ⟨R.FRM_COUNT, 1, 0x4, 1, 0x4, 0x0, 0x0, 0x0, 0x0, 0x0, 0x0⟩,
  ⟨R.FRM_CTRL, 1, 0x4, 1, 0x4, 0x10F, 0x0, 0x0, 0x0, 0x0, 0x2⟩,
  ⟨R.FRM_STATUS, 1, 0x4, 1, 0x4, 0x0, 0x0, 0x68, 0x0, 0x0, 0xF00⟩,
  ⟨R.FRM_OVR_COUNT, 1, 0x4, 1, 0x4, 0x0, 0x0, 0x0, 0x0, 0xFFFF, 0x0⟩,
  ⟨R.FRM_SWAP_FRAME, 1, 0x4, 1, 0x4, 0x0, 0x0, 0x0, 0x0, 0x0, 0x0⟩,
  ⟨R.FRM_PWM_DIV, 1, 0x4, 1, 0x4, 0x0, 0x0, 0x0, 0x0, 0x0, 0x0⟩,
  ⟨R.FRM_PLACE_TOTAL, 1, 0x4, 1, 0x4, 0x0, 0x0, 0x0, 0x0, 0x0, 0x0⟩,
  ⟨R.FRM_PLACE_LIMIT, 1, 0x4, 1, 0x4, 0x0, 0x0, 0x0, 0x0, 0x0, 0x8CA0⟩,
  ⟨R.FRM_PLACE_LANEi 0, 4, 0x4, 1, 0x4, 0x0, 0x0, 0x0, 0x0, 0x0, 0x0⟩,
  ⟨R.FRM_PLACE_PCT, 1, 0x4, 1, 0x4, 0x0, 0x0, 0x0, 0x0, 0x0, 0x0⟩,
  ⟨R.FRM_PLACE_TASKn 0, 64, 0x4, 1, 0x4, 0x0, 0x0, 0x0, 0x0, 0x0, 0x0⟩,
  ⟨R.FRM_MAINT_REQ, 1, 0x4, 1, 0x4, 0x0, 0x0, 0x0, 0x0, 0x0, 0x0⟩,
  ⟨R.FRM_MAINT_RESULT, 1, 0x4, 1, 0x4, 0x0, 0x0, 0x0, 0x0, 0x0, 0x0⟩,
  ⟨R.FRM_MAINT_ABORT, 1, 0x4, 1, 0x4, 0x0, 0x0, 0x0, 0x0, 0x0, 0x0⟩,
  ⟨R.FRM_MAINT_BUSY_CNT, 1, 0x4, 1, 0x4, 0x0, 0x0, 0x0, 0x0, 0xFFFF, 0x0⟩,
  ⟨R.FRM_MAINT_SKIP_CNT, 1, 0x4, 1, 0x4, 0x0, 0x0, 0x0, 0x0, 0xFFFF, 0x0⟩,
  ⟨R.FRM_MAINT_SLOTn 0, 16, 0x4, 1, 0x4, 0x0, 0x0, 0x0, 0x0, 0x0, 0x0⟩,
  ⟨R.FRM_IRQ_STATUS, 1, 0x4, 1, 0x4, 0x0, 0x0, 0xFF, 0x0, 0x0, 0x0⟩,
  ⟨R.FRM_IRQ_ENABLE, 1, 0x4, 1, 0x4, 0xFF, 0x0, 0x0, 0x0, 0x0, 0x7⟩]

/-- The rows of the CFG block. -/
def rowsCFG : List RegRow := [
  ⟨R.CFG_STATUS, 1, 0x4, 1, 0x4, 0x0, 0x0, 0x0, 0x0, 0x0, 0xF00000⟩,
  ⟨R.CFG_LOAD_CMD, 1, 0x4, 1, 0x4, 0x0, 0x0, 0x0, 0x0, 0x0, 0x0⟩,
  ⟨R.CFG_LOAD_ADDR, 1, 0x4, 1, 0x4, 0x3FFFFC, 0x0, 0x0, 0x0, 0x0, 0x0⟩,
  ⟨R.CFG_LOAD_DATA, 1, 0x4, 1, 0x4, 0x0, 0x0, 0x0, 0x0, 0x0, 0x0⟩,
  ⟨R.CFG_RESULT, 1, 0x4, 1, 0x4, 0x0, 0x0, 0x0, 0x0, 0x0, 0xFF0000⟩,
  ⟨R.CFG_SWAP_TIMEOUT, 1, 0x4, 1, 0x4, 0xFFF, 0x0, 0x0, 0x0, 0x0, 0x3C⟩,
  ⟨R.CFG_ACTIVE_ID, 1, 0x4, 1, 0x4, 0x0, 0x0, 0x0, 0x0, 0x0, 0x0⟩,
  ⟨R.CFG_PART_CRCi 0, 9, 0x4, 1, 0x4, 0x0, 0x0, 0x0, 0x0, 0x0, 0x0⟩,
  ⟨R.CFG_KEY_STATUS, 1, 0x4, 1, 0x4, 0x0, 0x0, 0x0, 0x0, 0x0, 0x0⟩,
  ⟨R.CFG_OTP_CMD, 1, 0x4, 1, 0x4, 0x0, 0x0, 0x0, 0x0, 0x0, 0x0⟩,
  ⟨R.CFG_OTP_DATAi 0, 16, 0x4, 1, 0x4, 0x0, 0x0, 0x0, 0x0, 0x0, 0x0⟩,
  ⟨R.CFG_TABLE_PAGE, 1, 0x4, 1, 0x4, 0x1FF, 0x0, 0x0, 0x0, 0x0, 0x0⟩,
  ⟨R.CFG_IRQ_STATUS, 1, 0x4, 1, 0x4, 0x0, 0x0, 0xF, 0x0, 0x0, 0x0⟩,
  ⟨R.CFG_IRQ_ENABLE, 1, 0x4, 1, 0x4, 0xF, 0x0, 0x0, 0x0, 0x0, 0xE⟩]

/-- The rows of the MOT block. -/
def rowsMOT : List RegRow := [
  ⟨R.MOTn_MODE 0, 8, 0x200, 1, 0x4, 0x137, 0x0, 0x0, 0x0, 0x0, 0x0⟩,
  ⟨R.MOTn_CMD 0, 8, 0x200, 1, 0x4, 0x0, 0x0, 0x0, 0x0, 0x0, 0x0⟩,
  ⟨R.MOTn_RESULT 0, 8, 0x200, 1, 0x4, 0x0, 0x0, 0x0, 0x0, 0x0, 0x0⟩,
  ⟨R.MOTn_STATUS 0, 8, 0x200, 1, 0x4, 0x0, 0x0, 0x0, 0x0, 0x0, 0x0⟩,
  ⟨R.MOTn_VSTART 0, 8, 0x200, 1, 0x4, 0xFFFFFFFF, 0x0, 0x0, 0x0, 0x0, 0x0⟩,
  ⟨R.MOTn_VSTART_HI 0, 8, 0x200, 1, 0x4, 0xFF, 0x0, 0x0, 0x0, 0x0, 0x0⟩,
  ⟨R.MOTn_VMAX 0, 8, 0x200, 1, 0x4, 0xFFFFFFFF, 0x0, 0x0, 0x0, 0x0, 0x0⟩,
  ⟨R.MOTn_VMAX_HI 0, 8, 0x200, 1, 0x4, 0xFF, 0x0, 0x0, 0x0, 0x0, 0x0⟩,
  ⟨R.MOTn_VBREAK 0, 8, 0x200, 1, 0x4, 0xFFFFFFFF, 0x0, 0x0, 0x0, 0x0, 0x0⟩,
  ⟨R.MOTn_VBREAK_HI 0, 8, 0x200, 1, 0x4, 0xFF, 0x0, 0x0, 0x0, 0x0, 0x0⟩,
  ⟨R.MOTn_VSTOP 0, 8, 0x200, 1, 0x4, 0xFFFFFFFF, 0x0, 0x0, 0x0, 0x0, 0xA00⟩,
  ⟨R.MOTn_VSTOP_HI 0, 8, 0x200, 1, 0x4, 0xFF, 0x0, 0x0, 0x0, 0x0, 0x0⟩,
  ⟨R.MOTn_A1 0, 8, 0x200, 1, 0x4, 0xFFFFFFFF, 0x0, 0x0, 0x0, 0x0, 0x0⟩,
  ⟨R.MOTn_A2 0, 8, 0x200, 1, 0x4, 0xFFFFFFFF, 0x0, 0x0, 0x0, 0x0, 0x0⟩,
  ⟨R.MOTn_D2 0, 8, 0x200, 1, 0x4, 0xFFFFFFFF, 0x0, 0x0, 0x0, 0x0, 0x0⟩,
  ⟨R.MOTn_D1 0, 8, 0x200, 1, 0x4, 0xFFFFFFFF, 0x0, 0x0, 0x0, 0x0, 0x0⟩,
  ⟨R.MOTn_TARGET 0, 8, 0x200, 1, 0x4, 0xFFFFFFFF, 0x0, 0x0, 0x0, 0x0, 0x0⟩,
  ⟨R.MOTn_TARGET_HI 0, 8, 0x200, 1, 0x4, 0xFFFF, 0x0, 0x0, 0x0, 0x0, 0x0⟩,
  ⟨R.MOTn_POS 0, 8, 0x200, 1, 0x4, 0xFFFFFFFF, 0x0, 0x0, 0x0, 0x0, 0x0⟩,
  ⟨R.MOTn_POS_HI 0, 8, 0x200, 1, 0x4, 0xFFFF, 0x0, 0x0, 0x0, 0x0, 0x0⟩,
  ⟨R.MOTn_VEL 0, 8, 0x200, 1, 0x4, 0x0, 0x0, 0x0, 0x0, 0x0, 0x0⟩,
  ⟨R.MOTn_VEL_HI 0, 8, 0x200, 1, 0x4, 0x0, 0x0, 0x0, 0x0, 0x0, 0x0⟩,
  ⟨R.MOTn_VTARGET 0, 8, 0x200, 1, 0x4, 0xFFFFFFFF, 0x0, 0x0, 0x0, 0x0, 0x0⟩,
  ⟨R.MOTn_VTARGET_HI 0, 8, 0x200, 1, 0x4, 0xFF, 0x0, 0x0, 0x0, 0x0, 0x0⟩,
  ⟨R.MOTn_MODULO 0, 8, 0x200, 1, 0x4, 0x0, 0xFFFFFFFF, 0x0, 0x0, 0x0, 0x0⟩,
  ⟨R.MOTn_MODULO_HI 0, 8, 0x200, 1, 0x4, 0x0, 0xFFFF, 0x0, 0x0, 0x0, 0x0⟩,
  ⟨R.MOTn_SOFT_MIN 0, 8, 0x200, 1, 0x4, 0xFFFFFFFF, 0x0, 0x0, 0x0, 0x0, 0x0⟩,
  ⟨R.MOTn_SOFT_MIN_HI 0, 8, 0x200, 1, 0x4, 0xFFFF, 0x0, 0x0, 0x0, 0x0, 0x0⟩,
  ⟨R.MOTn_SOFT_MAX 0, 8, 0x200, 1, 0x4, 0xFFFFFFFF, 0x0, 0x0, 0x0, 0x0, 0x0⟩,
  ⟨R.MOTn_SOFT_MAX_HI 0, 8, 0x200, 1, 0x4, 0xFFFF, 0x0, 0x0, 0x0, 0x0, 0x0⟩,
  ⟨R.MOTn_STOP_STYLE 0, 8, 0x200, 1, 0x4, 0x1F, 0x0, 0x0, 0x0, 0x0, 0x6⟩,
  ⟨R.MOTn_LIMIT_CFG 0, 8, 0x200, 1, 0x4, 0x0, 0xFF0003, 0x0, 0x0, 0x0, 0x320003⟩,
  ⟨R.MOTn_HOME_CFG 0, 8, 0x200, 1, 0x4, 0x0, 0x37, 0x0, 0x0, 0x0, 0x0⟩,
  ⟨R.MOTn_HOME_VEL 0, 8, 0x200, 1, 0x4, 0xFFFFFFFF, 0x0, 0x0, 0x0, 0x0, 0x0⟩,
  ⟨R.MOTn_HOME_VEL_HI 0, 8, 0x200, 1, 0x4, 0xFF, 0x0, 0x0, 0x0, 0x0, 0x0⟩,
  ⟨R.MOTn_HOME_TRAVEL 0, 8, 0x200, 1, 0x4, 0xFFFFFFFF, 0x0, 0x0, 0x0, 0x0, 0x0⟩,
  ⟨R.MOTn_HOME_OFFSET 0, 8, 0x200, 1, 0x4, 0xFFFFFFFF, 0x0, 0x0, 0x0, 0x0, 0x0⟩,
  ⟨R.MOTn_HOME_OFFSET_HI 0, 8, 0x200, 1, 0x4, 0xFFFF, 0x0, 0x0, 0x0, 0x0, 0x0⟩,
  ⟨R.MOTn_LATCH 0, 8, 0x200, 1, 0x4, 0x0, 0x0, 0x0, 0x0, 0x0, 0x0⟩,
  ⟨R.MOTn_LATCH_HI 0, 8, 0x200, 1, 0x4, 0x0, 0x0, 0x0, 0x0, 0x0, 0x0⟩,
  ⟨R.MOTn_HOME_BACKOFF 0, 8, 0x200, 1, 0x4, 0xFFFFFFFF, 0x0, 0x0, 0x0, 0x0, 0x0⟩,
  ⟨R.MOTn_FOLLOW_CFG 0, 8, 0x200, 1, 0x4, 0x0, 0x11F, 0x0, 0x0, 0x0, 0x8⟩,
  ⟨R.MOTn_STEP_DROP 0, 8, 0x200, 1, 0x4, 0x0, 0x0, 0x0, 0x0, 0xFFFF, 0x0⟩,
  ⟨R.MOTn_STOP_CAUSE 0, 8, 0x200, 1, 0x4, 0x0, 0x0, 0x0, 0x0, 0x0, 0x0⟩,
  ⟨R.MOTn_IRQ_STATUS 0, 8, 0x200, 1, 0x4, 0x0, 0x0, 0x3FF, 0x0, 0x0, 0x0⟩,
  ⟨R.MOTn_IRQ_ENABLE 0, 8, 0x200, 1, 0x4, 0x3FF, 0x0, 0x0, 0x0, 0x0, 0x174⟩,
  ⟨R.MOTn_GEAR_CFG 0, 8, 0x200, 1, 0x4, 0xF7F03, 0x0, 0x0, 0x0, 0x0, 0x0⟩,
  ⟨R.MOTn_GEAR_NUM 0, 8, 0x200, 1, 0x4, 0xFFFFFFFF, 0x0, 0x0, 0x0, 0x0, 0x1⟩,
  ⟨R.MOTn_GEAR_DEN 0, 8, 0x200, 1, 0x4, 0xFFFFFFFF, 0x0, 0x0, 0x0, 0x0, 0x1⟩,
  ⟨R.MOTn_GEAR_NEXT_NUM 0, 8, 0x200, 1, 0x4, 0xFFFFFFFF, 0x0, 0x0, 0x0, 0x0, 0x1⟩,
  ⟨R.MOTn_GEAR_NEXT_DEN 0, 8, 0x200, 1, 0x4, 0xFFFFFFFF, 0x0, 0x0, 0x0, 0x0, 0x1⟩,
  ⟨R.MOTn_GEAR_BLEND 0, 8, 0x200, 1, 0x4, 0xFFFFF, 0x0, 0x0, 0x0, 0x0, 0x0⟩,
  ⟨R.MOTn_GEAR_CHG_POS 0, 8, 0x200, 1, 0x4, 0xFFFFFFFF, 0x0, 0x0, 0x0, 0x0, 0x0⟩,
  ⟨R.MOTn_GEAR_CHG_POS_HI 0, 8, 0x200, 1, 0x4, 0xFFFF, 0x0, 0x0, 0x0, 0x0, 0x0⟩,
  ⟨R.MOTn_GEAR_CTRL 0, 8, 0x200, 1, 0x4, 0x6, 0x0, 0x0, 0x1, 0x0, 0x0⟩,
  ⟨R.MOTn_GEAR_STATUS 0, 8, 0x200, 1, 0x4, 0x0, 0x0, 0x0, 0x0, 0x0, 0x0⟩,
  ⟨R.MOTn_GEAR_MASTER 0, 8, 0x200, 1, 0x4, 0x0, 0x0, 0x0, 0x0, 0x0, 0x0⟩,
  ⟨R.MOTn_GEAR_MASTER_HI 0, 8, 0x200, 1, 0x4, 0x0, 0x0, 0x0, 0x0, 0x0, 0x0⟩,
  ⟨R.MOTn_GEAR_JUMP_MAX 0, 8, 0x200, 1, 0x4, 0xFFFFFFFF, 0x0, 0x0, 0x0, 0x0, 0x0⟩,
  ⟨R.MOTn_GEAR_IRQ_STATUS 0, 8, 0x200, 1, 0x4, 0x0, 0x0, 0x7F, 0x0, 0x0, 0x0⟩,
  ⟨R.MOTn_GEAR_IRQ_ENABLE 0, 8, 0x200, 1, 0x4, 0x7F, 0x0, 0x0, 0x0, 0x0, 0x63⟩,
  ⟨R.MOTn_TCMD_TIME 0, 8, 0x200, 1, 0x4, 0xFFFFFFFF, 0x0, 0x0, 0x0, 0x0, 0x0⟩,
  ⟨R.MOTn_TCMD_TIME_HI 0, 8, 0x200, 1, 0x4, 0xFFFFFFFF, 0x0, 0x0, 0x0, 0x0, 0x0⟩,
  ⟨R.MOTn_TCMD_ARG 0, 8, 0x200, 1, 0x4, 0xFFFFFFFF, 0x0, 0x0, 0x0, 0x0, 0x0⟩,
  ⟨R.MOTn_TCMD_ARG_HI 0, 8, 0x200, 1, 0x4, 0xFFFF, 0x0, 0x0, 0x0, 0x0, 0x0⟩,
  ⟨R.MOTn_TCMD_SUBMIT 0, 8, 0x200, 1, 0x4, 0x0, 0x0, 0x0, 0x0, 0x0, 0x0⟩,
  ⟨R.MOTn_TCMD_RESULT 0, 8, 0x200, 1, 0x4, 0x0, 0x0, 0x0, 0x0, 0x0, 0x0⟩,
  ⟨R.MOTn_TCMD_SLOTj 0 0, 8, 0x200, 4, 0x4, 0x0, 0x0, 0x0, 0x0, 0x0, 0x0⟩,
  ⟨R.MOTn_TCMD_CANCEL 0, 8, 0x200, 1, 0x4, 0x0, 0x0, 0x0, 0x0, 0x0, 0x0⟩,
  ⟨R.MOTn_TCMD_DROP_CNT 0, 8, 0x200, 1, 0x4, 0x0, 0x0, 0x0, 0x0, 0xFFFF, 0x0⟩]

/-- The rows of the CUR block. -/
def rowsCUR : List RegRow := [
  ⟨R.CURn_CFG 0, 8, 0x100, 1, 0x4, 0x80, 0x1F, 0x0, 0x0, 0x0, 0x0⟩,
  ⟨R.CURn_STATUS 0, 8, 0x100, 1, 0x4, 0x0, 0x0, 0x0, 0x0, 0x0, 0x0⟩,
  ⟨R.CURn_IRUN 0, 8, 0x100, 1, 0x4, 0xFFFF, 0x0, 0x0, 0x0, 0x0, 0x0⟩,
  ⟨R.CURn_IHOLD 0, 8, 0x100, 1, 0x4, 0xFFFF, 0x0, 0x0, 0x0, 0x0, 0x0⟩,
  ⟨R.CURn_ICL_MIN 0, 8, 0x100, 1, 0x4, 0xFFFF, 0x0, 0x0, 0x0, 0x0, 0x0⟩,
  ⟨R.CURn_KP 0, 8, 0x100, 1, 0x4, 0xFFFFFF, 0x0, 0x0, 0x0, 0x0, 0x0⟩,
  ⟨R.CURn_KI 0, 8, 0x100, 1, 0x4, 0xFFFFFFFF, 0x0, 0x0, 0x0, 0x0, 0x0⟩,
  ⟨R.CURn_STANDSTILL 0, 8, 0x100, 1, 0x4, 0xC0FFFFFF, 0x0, 0x0, 0x0, 0x0, 0x1901F4⟩,
  ⟨R.CURn_GUARD 0, 8, 0x100, 1, 0x4, 0x3, 0x0, 0x0, 0x0, 0x0, 0x0⟩,
  ⟨R.CURn_COMM_OFFSET 0, 8, 0x100, 1, 0x4, 0x3FFF, 0x0, 0x0, 0x0, 0x0, 0x0⟩,
  ⟨R.CURn_LEAD 0, 8, 0x100, 1, 0x4, 0xFFFF1FFF, 0x0, 0x0, 0x0, 0x0, 0x10001000⟩,
  ⟨R.CURn_ENC_NUM 0, 8, 0x100, 1, 0x4, 0x0, 0xFFFFFFFF, 0x0, 0x0, 0x0, 0x1⟩,
  ⟨R.CURn_ENC_DEN 0, 8, 0x100, 1, 0x4, 0x0, 0xFFFFFFFF, 0x0, 0x0, 0x0, 0x1⟩,
  ⟨R.CURn_DIAG_CFG 0, 8, 0x100, 1, 0x4, 0x8F3FFFFF, 0x0, 0x0, 0x0, 0x0, 0x3010040⟩,
  ⟨R.CURn_DIAG_STATUS 0, 8, 0x100, 1, 0x4, 0x0, 0x0, 0x0, 0x0, 0xFFFF0003, 0x0⟩,
  ⟨R.CURn_IA 0, 8, 0x100, 1, 0x4, 0x0, 0x0, 0x0, 0x0, 0x0, 0x0⟩,
  ⟨R.CURn_IB 0, 8, 0x100, 1, 0x4, 0x0, 0x0, 0x0, 0x0, 0x0, 0x0⟩,
  ⟨R.CURn_SETP 0, 8, 0x100, 1, 0x4, 0x0, 0x0, 0x0, 0x0, 0x0, 0x0⟩,
  ⟨R.CURn_UOUT 0, 8, 0x100, 1, 0x4, 0x0, 0x0, 0x0, 0x0, 0x0, 0x0⟩,
  ⟨R.CURn_ANGLE 0, 8, 0x100, 1, 0x4, 0x0, 0x0, 0x0, 0x0, 0x0, 0x0⟩,
  ⟨R.CURn_HOLD_CNT 0, 8, 0x100, 1, 0x4, 0x0, 0x0, 0x0, 0x0, 0xFFFF, 0x0⟩,
  ⟨R.CURn_IRQ_STATUS 0, 8, 0x100, 1, 0x4, 0x0, 0x0, 0x3FF, 0x0, 0x0, 0x0⟩,
  ⟨R.CURn_IRQ_ENABLE 0, 8, 0x100, 1, 0x4, 0x3FF, 0x0, 0x0, 0x0, 0x0, 0x1D1⟩,
  ⟨R.CURn_SHUNT 0, 8, 0x100, 1, 0x4, 0x0, 0xFFFFFFFF, 0x0, 0x0, 0x0, 0x0⟩]

/-- The rows of the PWM block. -/
def rowsPWM : List RegRow := [
  ⟨R.PWMk_CMP_RISE 0, 32, 0x20, 1, 0x4, 0x0, 0x1FFFFF, 0x0, 0x0, 0x0, 0x0⟩,
  ⟨R.PWMk_CMP_FALL 0, 32, 0x20, 1, 0x4, 0x0, 0x1FFFFF, 0x0, 0x0, 0x0, 0x0⟩,
  ⟨R.PWMk_COMMIT 0, 32, 0x20, 1, 0x4, 0x0, 0x0, 0x0, 0x0, 0x0, 0x0⟩,
  ⟨R.PWMk_ACT_RISE 0, 32, 0x20, 1, 0x4, 0x0, 0x0, 0x0, 0x0, 0x0, 0x0⟩,
  ⟨R.PWMk_ACT_FALL 0, 32, 0x20, 1, 0x4, 0x0, 0x0, 0x0, 0x0, 0x0, 0x0⟩,
  ⟨R.PWMk_CFG 0, 32, 0x20, 1, 0x4, 0x0, 0xFFF3, 0x0, 0x0, 0x0, 0xA00⟩,
  ⟨R.PWMk_FORCE 0, 32, 0x20, 1, 0x4, 0x3, 0x0, 0x0, 0x0, 0x0, 0x0⟩,
  ⟨R.PWMk_STATUS 0, 32, 0x20, 1, 0x4, 0x0, 0x0, 0x0, 0x0, 0xFFFF0000, 0x1⟩,
  ⟨R.PWM_AUXa_CMP_RISE 0, 8, 0x20, 1, 0x4, 0x1FFFFF, 0x0, 0x0, 0x0, 0x0, 0x0⟩,
  ⟨R.PWM_AUXa_CMP_FALL 0, 8, 0x20, 1, 0x4, 0x1FFFFF, 0x0, 0x0, 0x0, 0x0, 0x0⟩,
  ⟨R.PWM_AUXa_COMMIT 0, 8, 0x20, 1, 0x4, 0x0, 0x0, 0x0, 0x0, 0x0, 0x0⟩,
  ⟨R.PWM_AUXa_ACT_RISE 0, 8, 0x20, 1, 0x4, 0x0, 0x0, 0x0, 0x0, 0x0, 0x0⟩,
  ⟨R.PWM_AUXa_ACT_FALL 0, 8, 0x20, 1, 0x4, 0x0, 0x0, 0x0, 0x0, 0x0, 0x0⟩,
  ⟨R.PWM_AUXa_CFG 0, 8, 0x20, 1, 0x4, 0x0, 0x1FFFFB, 0x0, 0x0, 0x0, 0xC0⟩,
  ⟨R.PWM_AUXa_STATUS 0, 8, 0x20, 1, 0x4, 0x0, 0x0, 0x0, 0x0, 0x0, 0x0⟩,
  ⟨R.PWM_AXn_COUNT 0, 8, 0x4, 1, 0x4, 0x0, 0x0, 0x0, 0x0, 0x0, 0x0⟩,
  ⟨R.PWM_EVTu_CFG 0, 16, 0x4, 1, 0x4, 0xFF0007, 0x0, 0x0, 0x0, 0x0, 0x0⟩,
  ⟨R.PWM_EVTu_CMP 0, 16, 0x4, 1, 0x4, 0xFFFF, 0x0, 0x0, 0x0, 0x0, 0x0⟩,
  ⟨R.PWM_FAULT_LATCH, 1, 0x4, 1, 0x4, 0x0, 0x0, 0xFF, 0x0, 0x0, 0x0⟩,
  ⟨R.PWM_FAULT_FORCE, 1, 0x4, 1, 0x4, 0x0, 0x0, 0x0, 0x0, 0x0, 0x0⟩,
  ⟨R.PWM_LATE_CNT, 1, 0x4, 1, 0x4, 0x0, 0x0, 0x0, 0x0, 0xFFFF, 0x0⟩,
  ⟨R.PWM_STATUS, 1, 0x4, 1, 0x4, 0x0, 0x0, 0x0, 0x0, 0x0, 0x0⟩,
  ⟨R.PWM_IRQ_STATUS, 1, 0x4, 1, 0x4, 0x0, 0x0, 0x3FF, 0x0, 0x0, 0x0⟩,
  ⟨R.PWM_IRQ_ENABLE, 1, 0x4, 1, 0x4, 0x3FF, 0x0, 0x0, 0x0, 0x0, 0xFF⟩,
  ⟨R.PWM_EVT_STATUS, 1, 0x4, 1, 0x4, 0x0, 0x0, 0xFFFFFFFF, 0x0, 0x0, 0x0⟩,
  ⟨R.PWM_EVT_ENABLE, 1, 0x4, 1, 0x4, 0xFFFF, 0x0, 0x0, 0x0, 0x0, 0x0⟩,
  ⟨R.PWM_FAULT_SRCn 0, 8, 0x4, 1, 0x4, 0x0, 0x0, 0x0, 0x0, 0x0, 0x0⟩]

/-- The rows of the GDR block. -/
def rowsGDR : List RegRow := [
  ⟨R.GDRk_DRIVE 0, 32, 0x10, 1, 0x4, 0x0, 0xFFFF, 0x0, 0x0, 0x0, 0x4444⟩,
  ⟨R.GDRk_CFG 0, 32, 0x10, 1, 0x4, 0x0, 0x13F3F, 0x0, 0x0, 0x0, 0x10505⟩,
  ⟨R.GDRk_VDS 0, 32, 0x10, 1, 0x4, 0x0, 0x303F303F, 0x0, 0x0, 0x0, 0x10201020⟩,
  ⟨R.GDRk_STATUS 0, 32, 0x10, 1, 0x4, 0x0, 0x0, 0x0, 0x0, 0xFF00, 0x0⟩,
  ⟨R.GDR_CTRL, 1, 0x4, 1, 0x4, 0x0, 0x3, 0x0, 0x0, 0x0, 0x2⟩,
  ⟨R.GDR_BST_UV, 1, 0x4, 1, 0x4, 0x0, 0x0, 0xFFFFFFFF, 0x0, 0x0, 0x0⟩,
  ⟨R.GDR_HS_FAIL, 1, 0x4, 1, 0x4, 0x0, 0x0, 0xFFFFFFFF, 0x0, 0x0, 0x0⟩,
  ⟨R.GDR_VDS_H, 1, 0x4, 1, 0x4, 0x0, 0x0, 0xFFFFFFFF, 0x0, 0x0, 0x0⟩,
  ⟨R.GDR_VDS_L, 1, 0x4, 1, 0x4, 0x0, 0x0, 0xFFFFFFFF, 0x0, 0x0, 0x0⟩,
  ⟨R.GDR_STATUS, 1, 0x4, 1, 0x4, 0x0, 0x0, 0x2, 0x0, 0x0, 0x0⟩,
  ⟨R.GDR_GUARDn 0, 2, 0x4, 1, 0x4, 0x0, 0x1, 0x300, 0x0, 0x0, 0x0⟩,
  ⟨R.GDR_IRQ_STATUS, 1, 0x4, 1, 0x4, 0x0, 0x0, 0xFFFFFFCF, 0x0, 0x0, 0x0⟩,
  ⟨R.GDR_IRQ_ENABLE, 1, 0x4, 1, 0x4, 0xFFFFFFFF, 0x0, 0x0, 0x0, 0x0, 0xFFFFFFC3⟩]

/-- The rows of the CSA block. -/
def rowsCSA : List RegRow := [
  ⟨R.CSAs_CFG 0, 32, 0x20, 1, 0x4, 0x3, 0xCC0, 0x0, 0x0, 0x0, 0x2⟩,
  ⟨R.CSAs_OFFSET 0, 32, 0x20, 1, 0x4, 0xFFFFFF, 0x0, 0x0, 0x0, 0x0, 0x0⟩,
  ⟨R.CSAs_GAIN 0, 32, 0x20, 1, 0x4, 0xFFFFFF, 0x0, 0x0, 0x0, 0x0, 0x400000⟩,
  ⟨R.CSAs_FAST 0, 32, 0x20, 1, 0x4, 0x0, 0x0, 0x0, 0x0, 0x0, 0x0⟩,
  ⟨R.CSAs_FINE 0, 32, 0x20, 1, 0x4, 0x0, 0x0, 0x0, 0x0, 0x0, 0x0⟩,
  ⟨R.CSAs_AVG 0, 32, 0x20, 1, 0x4, 0x0, 0x0, 0x0, 0x0, 0x0, 0x0⟩,
  ⟨R.CSAs_STATUS 0, 32, 0x20, 1, 0x4, 0x0, 0x0, 0x0, 0x0, 0xFF, 0x80000000⟩,
  ⟨R.CSAs_DCB_EST 0, 16, 0x20, 1, 0x4, 0x0, 0xFFFFFF, 0x0, 0x0, 0x0, 0x0⟩,
  ⟨R.CSA_CTRL, 1, 0x4, 1, 0x4, 0x0, 0x0, 0x0, 0x0, 0x0, 0x0⟩,
  ⟨R.CSA_STATUS, 1, 0x4, 1, 0x4, 0x0, 0x0, 0x0, 0x0, 0x0, 0x0⟩,
  ⟨R.CSA_DCBn_CFG 0, 8, 0x4, 1, 0x4, 0x0, 0x9FC03FFF, 0x0, 0x0, 0x0, 0x16800032⟩,
  ⟨R.CSA_DCBn_STATUS 0, 8, 0x4, 1, 0x4, 0x0, 0x0, 0x0, 0x0, 0xFFFF, 0xD8010000⟩,
  ⟨R.CSA_EVT_CLIP, 1, 0x4, 1, 0x4, 0x0, 0x0, 0xFFFFFFFF, 0x0, 0x0, 0x0⟩,
  ⟨R.CSA_EVT_SETTLED, 1, 0x4, 1, 0x4, 0x0, 0x0, 0xFFFFFFFF, 0x0, 0x0, 0x0⟩,
  ⟨R.CSA_EVT_MISC, 1, 0x4, 1, 0x4, 0x0, 0x0, 0x1FFFFFF, 0x0, 0x0, 0x0⟩,
  ⟨R.CSA_EVT_ENABLE, 1, 0x4, 1, 0x4, 0x1F, 0x0, 0x0, 0x0, 0x0, 0x7⟩]

/-- The rows of the PMC block. -/
def rowsPMC : List RegRow := [
  ⟨R.PMC_CTRL, 1, 0x4, 1, 0x4, 0x0, 0x0, 0x0, 0x0, 0x0, 0x0⟩,
  ⟨R.PMC_SCAN_CFG, 1, 0x4, 1, 0x4, 0xFFFF1F07, 0x0, 0x0, 0x0, 0x0, 0x0⟩,
  ⟨R.PMC_SCAN_MASK, 1, 0x4, 1, 0x4, 0xFFFFFFFF, 0x0, 0x0, 0x0, 0x0, 0x0⟩,
  ⟨R.PMC_URG_MASK, 1, 0x4, 1, 0x4, 0xFFFFFFFF, 0x0, 0x0, 0x0, 0x0, 0x0⟩,
  ⟨R.PMC_STATUS, 1, 0x4, 1, 0x4, 0x0, 0x0, 0x0, 0x0, 0x0, 0x0⟩,
  ⟨R.PMC_URG_DROP, 1, 0x4, 1, 0x4, 0x0, 0x0, 0x0, 0x0, 0xFFFF, 0x0⟩,
  ⟨R.PMC_SCAN_MISS, 1, 0x4, 1, 0x4, 0x0, 0x0, 0x0, 0x0, 0xFFFF, 0x0⟩,
  ⟨R.PMC_REF_EARLY, 1, 0x4, 1, 0x4, 0x0, 0x0, 0x0, 0x0, 0xFFFF, 0x0⟩,
  ⟨R.PMC_REF_CFG, 1, 0x4, 1, 0x4, 0x31, 0x100, 0x0, 0x0, 0x0, 0x0⟩,
  ⟨R.PMC_REF_STATUS, 1, 0x4, 1, 0x4, 0x0, 0x0, 0x700, 0x0, 0x0, 0xC000⟩,
  ⟨R.PMC_REF_DEV, 1, 0x4, 1, 0x4, 0x0, 0x0, 0x0, 0x0, 0x0, 0x0⟩,
  ⟨R.PMC_REF_GOOD, 1, 0x4, 1, 0x4, 0x0, 0x0, 0x0, 0x0, 0x0, 0x0⟩,
  ⟨R.PMC_IRQ_STATUS, 1, 0x4, 1, 0x4, 0x0, 0x0, 0x1FF, 0x0, 0x0, 0x0⟩,
  ⟨R.PMC_IRQ_ENABLE, 1, 0x4, 1, 0x4, 0x1FF, 0x0, 0x0, 0x0, 0x0, 0x1F4⟩,
  ⟨R.PMC_OW_THR, 1, 0x4, 1, 0x4, 0xFFFFFF, 0x0, 0x0, 0x0, 0x0, 0x10000⟩,
  ⟨R.PMC_LIMIT_FLAGS, 1, 0x4, 1, 0x4, 0x0, 0x0, 0x0, 0x0, 0x0, 0x0⟩,
  ⟨R.PMC_EVT_LIMIT, 1, 0x4, 1, 0x4, 0x0, 0x0, 0xFFFFFFFF, 0x0, 0x0, 0x0⟩,
  ⟨R.PMC_EVT_OPEN, 1, 0x4, 1, 0x4, 0x0, 0x0, 0xFFFFFFFF, 0x0, 0x0, 0x0⟩,
  ⟨R.PMC_EVT_ENABLE, 1, 0x4, 1, 0x4, 0x3, 0x0, 0x0, 0x0, 0x0, 0x3⟩,
  ⟨R.PMC_RESe 0, 32, 0x4, 1, 0x4, 0x0, 0x0, 0x0, 0x0, 0x0, 0x0⟩,
  ⟨R.PMC_CFGe 0, 32, 0x18, 1, 0x4, 0xF3717, 0x0, 0x0, 0x0, 0x0, 0x300⟩,
  ⟨R.PMC_OFFSETe 0, 32, 0x18, 1, 0x4, 0xFFFFFF, 0x0, 0x0, 0x0, 0x0, 0x0⟩,
  ⟨R.PMC_GAINe 0, 32, 0x18, 1, 0x4, 0xFFFFFF, 0x0, 0x0, 0x0, 0x0, 0x400000⟩,
  ⟨R.PMC_LIM_LOe 0, 32, 0x18, 1, 0x4, 0xFFFFFF, 0x0, 0x0, 0x0, 0x0, 0x800000⟩,
  ⟨R.PMC_LIM_HIe 0, 32, 0x18, 1, 0x4, 0xFFFFFF, 0x0, 0x0, 0x0, 0x0, 0x7FFFFF⟩,
  ⟨R.PMC_STATe 0, 32, 0x18, 1, 0x4, 0x0, 0x0, 0x0, 0x0, 0xFF00, 0x0⟩]

/-- The rows of the CMP block. -/
def rowsCMP : List RegRow := [
  ⟨R.CMPc_CFG 0, 40, 0x10, 1, 0x4, 0xE330, 0x3, 0x0, 0x0, 0x0, 0x1⟩,
  ⟨R.CMPc_DAC 0, 40, 0x10, 1, 0x4, 0x3FF, 0x0, 0x0, 0x0, 0x0, 0x0⟩,
  ⟨R.CMPc_STATUS 0, 40, 0x10, 1, 0x4, 0x0, 0x0, 0x1C00, 0x0, 0x0, 0x0⟩,
  ⟨R.CMPc_DAC_RB 0, 40, 0x10, 1, 0x4, 0x0, 0x0, 0x0, 0x0, 0x0, 0x0⟩,
  ⟨R.CMP_TRIP_LO, 1, 0x4, 1, 0x4, 0x0, 0x0, 0xFFFFFFFF, 0x0, 0x0, 0x0⟩,
  ⟨R.CMP_TRIP_HI, 1, 0x4, 1, 0x4, 0x0, 0x0, 0xFF, 0x0, 0x0, 0x0⟩,
  ⟨R.CMP_OUT_LO, 1, 0x4, 1, 0x4, 0x0, 0x0, 0x0, 0x0, 0x0, 0x0⟩,
  ⟨R.CMP_OUT_HI, 1, 0x4, 1, 0x4, 0x0, 0x0, 0x0, 0x0, 0x0, 0x0⟩,
  ⟨R.CMP_EVT_ENABLE, 1, 0x4, 1, 0x4, 0xF, 0x0, 0x0, 0x0, 0x0, 0xF⟩]

/-- The rows of the FBK block. -/
def rowsFBK : List RegRow := [
  ⟨R.FBKn_CFG 0, 8, 0x80, 1, 0x4, 0x0, 0xFF033FD7, 0x0, 0x0, 0x0, 0x8030200⟩,
  ⟨R.FBKn_STATUS 0, 8, 0x80, 1, 0x4, 0x0, 0x0, 0x0, 0x0, 0x0, 0x700⟩,
  ⟨R.FBKn_FAULT 0, 8, 0x80, 1, 0x4, 0x0, 0x0, 0xFFF, 0x0, 0x0, 0x0⟩,
  ⟨R.FBKn_FAULT_MASK 0, 8, 0x80, 1, 0x4, 0xFFF, 0x0, 0x0, 0x0, 0x0, 0xFFF⟩,
  ⟨R.FBKn_POS 0, 8, 0x80, 1, 0x4, 0xFFFFFFFF, 0x0, 0x0, 0x0, 0x0, 0x0⟩,
  ⟨R.FBKn_POS_HI 0, 8, 0x80, 1, 0x4, 0xFFFF, 0x0, 0x0, 0x0, 0x0, 0x0⟩,
  ⟨R.FBKn_SPEED 0, 8, 0x80, 1, 0x4, 0x0, 0x0, 0x0, 0x0, 0x0, 0x0⟩,
  ⟨R.FBKn_SPEED_HI 0, 8, 0x80, 1, 0x4, 0x0, 0x0, 0x0, 0x0, 0x0, 0x0⟩,
  ⟨R.FBKn_SPEED_CFG 0, 8, 0x80, 1, 0x4, 0xFFFF000F, 0x0, 0x0, 0x0, 0x0, 0x640002⟩,
  ⟨R.FBKn_INDEX_POS 0, 8, 0x80, 1, 0x4, 0x0, 0x0, 0x0, 0x0, 0x0, 0x0⟩,
  ⟨R.FBKn_INDEX_POS_HI 0, 8, 0x80, 1, 0x4, 0x0, 0x0, 0x0, 0x0, 0x0, 0x0⟩,
  ⟨R.FBKn_INDEX_FRAME 0, 8, 0x80, 1, 0x4, 0x0, 0x0, 0x0, 0x0, 0x0, 0x0⟩,
  ⟨R.FBKn_INDEX_CYC 0, 8, 0x80, 1, 0x4, 0x0, 0x0, 0x0, 0x0, 0xFFFF0000, 0x0⟩,
  ⟨R.FBKn_INDEX_CHK 0, 8, 0x80, 1, 0x4, 0x0, 0xFFFFFFFF, 0x0, 0x0, 0x0, 0x1000000⟩,
  ⟨R.FBKn_AMP_CFG 0, 8, 0x80, 1, 0x4, 0xFFFFFFFF, 0x0, 0x0, 0x0, 0x0, 0x799A3333⟩,
  ⟨R.FBKn_AMP 0, 8, 0x80, 1, 0x4, 0x0, 0x0, 0x0, 0x0, 0xFFFF0000, 0x7FFF0000⟩,
  ⟨R.FBKn_SSI_CFG 0, 8, 0x80, 1, 0x4, 0x0, 0xFF333F, 0x0, 0x0, 0x0, 0xD⟩,
  ⟨R.FBKn_SSI_TIMING 0, 8, 0x80, 1, 0x4, 0x0, 0x3F3FFF, 0x0, 0x0, 0x0, 0x140014⟩,
  ⟨R.FBKn_SSI_RAW 0, 8, 0x80, 1, 0x4, 0x0, 0x0, 0x0, 0x0, 0x0, 0x0⟩,
  ⟨R.FBKn_SSI_JUMP 0, 8, 0x80, 1, 0x4, 0xFFFFFFFF, 0x0, 0x0, 0x0, 0x0, 0x0⟩,
  ⟨R.FBKn_ERR_CNT 0, 8, 0x80, 1, 0x4, 0x0, 0x0, 0x0, 0x0, 0xFFFF, 0x0⟩,
  ⟨R.FBKn_IRQ_STATUS 0, 8, 0x80, 1, 0x4, 0x0, 0x0, 0x3F, 0x0, 0x0, 0x0⟩,
  ⟨R.FBKn_IRQ_ENABLE 0, 8, 0x80, 1, 0x4, 0x3F, 0x0, 0x0, 0x0, 0x0, 0x6⟩]

/-- The rows of the OBS block. -/
def rowsOBS : List RegRow := [
  ⟨R.OBSn_CFG 0, 8, 0x80, 1, 0x4, 0x0, 0xECFFFF0F, 0x0, 0x0, 0x0, 0x4C082004⟩,
  ⟨R.OBSn_MOTOR_R 0, 8, 0x80, 1, 0x4, 0xFFFF, 0x0, 0x0, 0x0, 0x0, 0x1⟩,
  ⟨R.OBSn_MOTOR_L 0, 8, 0x80, 1, 0x4, 0xFFFF, 0x0, 0x0, 0x0, 0x0, 0x1⟩,
  ⟨R.OBSn_MOTOR_KE 0, 8, 0x80, 1, 0x4, 0xFFFF, 0x0, 0x0, 0x0, 0x0, 0x1⟩,
  ⟨R.OBSn_DT_COMP 0, 8, 0x80, 1, 0x4, 0xFF, 0x0, 0x0, 0x0, 0x0, 0xA⟩,
  ⟨R.OBSn_VMIN 0, 8, 0x80, 1, 0x4, 0xFFFFFFFF, 0x0, 0x0, 0x0, 0x0, 0x28000⟩,
  ⟨R.OBSn_STALL_CFG 0, 8, 0x80, 1, 0x4, 0xFF1FFF, 0x0, 0x0, 0x0, 0x0, 0x800C00⟩,
  ⟨R.OBSn_DEV_CFG 0, 8, 0x80, 1, 0x4, 0x0, 0xF00000FF, 0x0, 0x0, 0x0, 0x40000004⟩,
  ⟨R.OBSn_DEV_WIN 0, 8, 0x80, 1, 0x4, 0xFFFFFFFF, 0x0, 0x0, 0x0, 0x0, 0x1800⟩,
  ⟨R.OBSn_STATUS 0, 8, 0x80, 1, 0x4, 0x0, 0x0, 0x0, 0x0, 0x0, 0x10000000⟩,
  ⟨R.OBSn_LOAD 0, 8, 0x80, 1, 0x4, 0x0, 0x0, 0x0, 0x0, 0x0, 0x0⟩,
  ⟨R.OBSn_MARGIN 0, 8, 0x80, 1, 0x4, 0x0, 0x0, 0x0, 0x0, 0x0, 0x0⟩,
  ⟨R.OBSn_EMF 0, 8, 0x80, 1, 0x4, 0x0, 0x0, 0x0, 0x0, 0x0, 0x0⟩,
  ⟨R.OBSn_R_EST 0, 8, 0x80, 1, 0x4, 0x0, 0x0, 0x0, 0x0, 0x0, 0x1⟩,
  ⟨R.OBSn_DEV 0, 8, 0x80, 1, 0x4, 0x0, 0x0, 0x0, 0x0, 0x0, 0x0⟩,
  ⟨R.OBSn_DEV_MAX 0, 8, 0x80, 1, 0x4, 0x0, 0x0, 0x0, 0x0, 0xFFFFFFFF, 0x0⟩,
  ⟨R.OBSn_DEV_REF 0, 8, 0x80, 1, 0x4, 0x0, 0x0, 0x0, 0x0, 0x0, 0x0⟩,
  ⟨R.OBSn_DEV_REF_HI 0, 8, 0x80, 1, 0x4, 0x0, 0x0, 0x0, 0x0, 0x0, 0x0⟩,
  ⟨R.OBSn_DECL_CNT 0, 8, 0x80, 1, 0x4, 0x0, 0x0, 0x0, 0x0, 0xFFFFFFFF, 0x0⟩,
  ⟨R.OBSn_IRQ_STATUS 0, 8, 0x80, 1, 0x4, 0x0, 0x0, 0x3F, 0x0, 0x0, 0x0⟩,
  ⟨R.OBSn_IRQ_ENABLE 0, 8, 0x80, 1, 0x4, 0x3F, 0x0, 0x0, 0x0, 0x0, 0x17⟩]

/-- The rows of the NET block. -/
def rowsNET : List RegRow := [
  ⟨R.NET_HERDi_CFG 0, 16, 0x10, 1, 0x4, 0xE0FF00FF, 0x0, 0x0, 0x0, 0x0, 0x0⟩,
  ⟨R.NET_HERDi_SRC 0, 16, 0x10, 1, 0x4, 0xCFFF0007, 0x0, 0x0, 0x0, 0x0, 0x0⟩,
  ⟨R.NET_HERDi_PARAM 0, 16, 0x10, 1, 0x4, 0xFFFF0F0F, 0x0, 0x0, 0x0, 0x0, 0x303⟩,
  ⟨R.NET_HERDi_STATUS 0, 16, 0x10, 1, 0x4, 0x0, 0x0, 0x7, 0x0, 0x0, 0x0⟩,
  ⟨R.NET_HERD_HOST, 1, 0x4, 1, 0x4, 0x0, 0x1F, 0x0, 0x0, 0x0, 0x0⟩,
  ⟨R.NET_HERD_CMD, 1, 0x4, 1, 0x4, 0x0, 0x0, 0x0, 0x0, 0x0, 0x0⟩,
  ⟨R.NET_HERD_RESULT, 1, 0x4, 1, 0x4, 0x0, 0x0, 0x0, 0x0, 0x0, 0x0⟩,
  ⟨R.NET_HERD_IRQ_ENABLE, 1, 0x4, 1, 0x4, 0x7, 0x0, 0x0, 0x0, 0x0, 0x7⟩,
  ⟨R.NETp_CFG 0, 3, 0x40, 1, 0x4, 0x1, 0x0, 0x0, 0x0, 0x0, 0x0⟩,
  ⟨R.NETp_STATUS 0, 3, 0x40, 1, 0x4, 0x0, 0x0, 0x0, 0x0, 0x0, 0x0⟩,
  ⟨R.NETp_DELAY 0, 3, 0x40, 1, 0x4, 0xFFFF0000, 0x0, 0x0, 0x0, 0x0, 0x0⟩,
  ⟨R.NETp_OFFSET 0, 3, 0x40, 1, 0x4, 0xFFFFFFFF, 0x0, 0x0, 0x0, 0x0, 0x0⟩,
  ⟨R.NETp_TEST 0, 3, 0x40, 1, 0x4, 0xF, 0x0, 0x0, 0x0, 0x0, 0x0⟩,
  ⟨R.NETp_CNT 0 0, 3, 0x40, 9, 0x4, 0x0, 0x0, 0x0, 0x0, 0xFFFF, 0x0⟩,
  ⟨R.NET_NODE, 1, 0x4, 1, 0x4, 0x0, 0x0, 0x0, 0x0, 0x0, 0x0⟩,
  ⟨R.NET_CFG, 1, 0x4, 1, 0x4, 0xF80F00FF, 0x0, 0x0, 0x0, 0x0, 0x300FF⟩,
  ⟨R.NET_RING, 1, 0x4, 1, 0x4, 0x0, 0x0, 0x0, 0x0, 0x0, 0x0⟩,
  ⟨R.NET_CYCLE, 1, 0x4, 1, 0x4, 0x0, 0x0, 0x0, 0x0, 0x0, 0x0⟩,
  ⟨R.NET_TIME_LO, 1, 0x4, 1, 0x4, 0x0, 0x0, 0x0, 0x0, 0x0, 0x0⟩,
  ⟨R.NET_TIME_HI, 1, 0x4, 1, 0x4, 0x0, 0x0, 0x0, 0x0, 0x0, 0x0⟩,
  ⟨R.NET_TIME_STATUS, 1, 0x4, 1, 0x4, 0x0, 0x0, 0x0, 0x0, 0x0, 0x0⟩,
  ⟨R.NET_TIME_ERR, 1, 0x4, 1, 0x4, 0x0, 0x0, 0x0, 0x0, 0x0, 0x0⟩,
  ⟨R.NET_TIME_CFG, 1, 0x4, 1, 0x4, 0xFFFFFFFF, 0x0, 0x0, 0x0, 0x0, 0x3E803E8⟩,
  ⟨R.NET_TIME_SET_LO, 1, 0x4, 1, 0x4, 0xFFFFFFFF, 0x0, 0x0, 0x0, 0x0, 0x0⟩,
  ⟨R.NET_TIME_SET_HI, 1, 0x4, 1, 0x4, 0xFFFFFFFF, 0x0, 0x0, 0x0, 0x0, 0x0⟩,
  ⟨R.NET_ROOT_CMD, 1, 0x4, 1, 0x4, 0x0, 0x0, 0x0, 0x0, 0x0, 0x0⟩,
  ⟨R.NET_ROOT_CYCLE, 1, 0x4, 1, 0x4, 0xFFFFFFFF, 0x0, 0x0, 0x0, 0x0, 0x3D090⟩,
  ⟨R.NET_ROOT_CFG, 1, 0x4, 1, 0x4, 0x307FF, 0x0, 0x0, 0x0, 0x0, 0x10⟩,
  ⟨R.NET_AUTH_CFG, 1, 0x4, 1, 0x4, 0x1F, 0x0, 0x0, 0x0, 0x0, 0x4⟩,
  ⟨R.NET_KEYk 0, 16, 0x4, 1, 0x4, 0x0, 0x0, 0x0, 0x0, 0x0, 0x0⟩,
  ⟨R.NET_MBX_CFG, 1, 0x4, 1, 0x4, 0xCFFF000F, 0x0, 0x0, 0x0, 0x0, 0xC0000001⟩,
  ⟨R.NET_MBX_STATUS, 1, 0x4, 1, 0x4, 0x0, 0x0, 0x0, 0x0, 0xFFFF0000, 0x0⟩,
  ⟨R.NET_ROLE_SEL, 1, 0x4, 1, 0x4, 0xFF, 0x0, 0x0, 0x0, 0x0, 0x0⟩,
  ⟨R.NET_ROLE, 1, 0x4, 1, 0x4, 0x0, 0x0, 0x0, 0x0, 0x0, 0x0⟩,
  ⟨R.NET_NAK_CNT, 1, 0x4, 1, 0x4, 0x0, 0x0, 0x0, 0x0, 0xFFFFFFFF, 0x0⟩,
  ⟨R.NET_IRQ_STATUS, 1, 0x4, 1, 0x4, 0x0, 0x0, 0x7FF, 0x0, 0x0, 0x0⟩,
  ⟨R.NET_IRQ_ENABLE, 1, 0x4, 1, 0x4, 0x7FF, 0x0, 0x0, 0x0, 0x0, 0x47E⟩]

/-- The rows of the NVS block. -/
def rowsNVS : List RegRow := [
  ⟨R.NVS_STATUS, 1, 0x4, 1, 0x4, 0x0, 0x0, 0x0, 0x0, 0x0, 0x0⟩,
  ⟨R.NVS_CFG, 1, 0x4, 1, 0x4, 0x2FF, 0x0, 0x0, 0x0, 0x0, 0x2FF⟩,
  ⟨R.NVS_HU_CFG, 1, 0x4, 1, 0x4, 0xFF000000, 0xFFC1FF, 0x0, 0x0, 0x0, 0x7578046⟩,
  ⟨R.NVS_CHOLD, 1, 0x4, 1, 0x4, 0x0, 0x0, 0x0, 0x0, 0x0, 0x0⟩,
  ⟨R.NVS_HOLD, 1, 0x4, 1, 0x4, 0x0, 0x0, 0x0, 0x0, 0x0, 0x0⟩,
  ⟨R.NVS_PLS_CFG, 1, 0x4, 1, 0x4, 0x0, 0x7F, 0x0, 0x0, 0x0, 0x5⟩,
  ⟨R.NVS_PLS_STATUS, 1, 0x4, 1, 0x4, 0x0, 0x0, 0x0, 0x0, 0x0, 0x0⟩,
  ⟨R.NVS_CMD, 1, 0x4, 1, 0x4, 0x0, 0x0, 0x0, 0x0, 0x0, 0x0⟩,
  ⟨R.NVS_RESULT, 1, 0x4, 1, 0x4, 0x0, 0x0, 0x0, 0x0, 0x0, 0x0⟩,
  ⟨R.NVS_REC_LEN, 1, 0x4, 1, 0x4, 0xFFFFFFFF, 0x0, 0x0, 0x0, 0x0, 0x0⟩,
  ⟨R.NVS_REC_GEN, 1, 0x4, 1, 0x4, 0x0, 0x0, 0x0, 0x0, 0x0, 0x0⟩,
  ⟨R.NVS_BUF_PAGE, 1, 0x4, 1, 0x4, 0x3, 0x0, 0x0, 0x0, 0x0, 0x0⟩,
  ⟨R.NVS_REC_DIV, 1, 0x4, 1, 0x4, 0x0, 0x0, 0x0, 0x0, 0x0, 0x0⟩,
  ⟨R.NVS_REC_DIV_HI, 1, 0x4, 1, 0x4, 0x0, 0x0, 0x0, 0x0, 0x0, 0x0⟩,
  ⟨R.NVS_REC_LOST, 1, 0x4, 1, 0x4, 0x0, 0x0, 0x0, 0x0, 0x0, 0x0⟩,
  ⟨R.NVS_REC_LOST_HI, 1, 0x4, 1, 0x4, 0x0, 0x0, 0x0, 0x0, 0x0, 0x0⟩,
  ⟨R.NVS_ENERGY_CNT, 1, 0x4, 1, 0x4, 0x0, 0x0, 0x0, 0x0, 0xFFFF, 0x0⟩,
  ⟨R.NVS_SCRUB_CNT, 1, 0x4, 1, 0x4, 0x0, 0x0, 0x0, 0x0, 0xFFFFFFFF, 0x0⟩,
  ⟨R.NVS_SCRUB_ADDR, 1, 0x4, 1, 0x4, 0x0, 0x0, 0x80000000, 0x0, 0x0, 0x0⟩,
  ⟨R.NVS_SPARE, 1, 0x4, 1, 0x4, 0x0, 0x0, 0x0, 0x0, 0x0, 0x0⟩,
  ⟨R.NVS_LOG_HEAD, 1, 0x4, 1, 0x4, 0x0, 0x0, 0x0, 0x0, 0x0, 0x0⟩,
  ⟨R.NVS_LOG_TAIL, 1, 0x4, 1, 0x4, 0x0, 0x0, 0x0, 0x0, 0x0, 0x0⟩,
  ⟨R.NVS_LOG_SEL, 1, 0x4, 1, 0x4, 0xFFFFFFFF, 0x0, 0x0, 0x0, 0x0, 0x0⟩,
  ⟨R.NVS_LOG_LOST, 1, 0x4, 1, 0x4, 0x0, 0x0, 0x0, 0x0, 0xFFFF, 0x0⟩,
  ⟨R.NVS_LOG_ENTRYw 0, 8, 0x4, 1, 0x4, 0x0, 0x0, 0x0, 0x0, 0x0, 0x0⟩,
  ⟨R.NVS_REP_CFG, 1, 0x4, 1, 0x4, 0x800003FF, 0x0, 0x0, 0x0, 0x0, 0x8000016D⟩,
  ⟨R.NVS_REP_OWNk 0, 2, 0x4, 1, 0x4, 0x0, 0x0, 0x0, 0x0, 0x0, 0x0⟩,
  ⟨R.NVS_REP_HELDj 0, 3, 0x4, 1, 0x4, 0x0, 0x0, 0x0, 0x0, 0x0, 0x0⟩,
  ⟨R.NVS_REP_STATUS, 1, 0x4, 1, 0x4, 0x0, 0x0, 0x0, 0x0, 0x0, 0x0⟩,
  ⟨R.NVS_IRQ_STATUS, 1, 0x4, 1, 0x4, 0x0, 0x0, 0x7FFFF, 0x0, 0x0, 0x0⟩,
  ⟨R.NVS_IRQ_ENABLE, 1, 0x4, 1, 0x4, 0x7FFFF, 0x0, 0x0, 0x0, 0x0, 0x7BA9E⟩,
  ⟨R.NVS_BUF 0, 256, 0x4, 1, 0x4, 0xFFFFFFFF, 0x0, 0x0, 0x0, 0x0, 0x0⟩]

/-- The rows of the SUP block. -/
def rowsSUP : List RegRow := [
  ⟨R.SUP_STATUS, 1, 0x4, 1, 0x4, 0x0, 0x0, 0x0, 0x0, 0x0, 0x0⟩,
  ⟨R.SUP_VM_CFG, 1, 0x4, 1, 0x4, 0x0, 0xFF0301FF, 0x0, 0x0, 0x0, 0x90010038⟩,
  ⟨R.SUP_VM, 1, 0x4, 1, 0x4, 0x0, 0x0, 0x0, 0x0, 0xFFFF0000, 0xFFFF0000⟩,
  ⟨R.SUP_VDRV_CFG, 1, 0x4, 1, 0x4, 0x0, 0x107, 0x0, 0x0, 0x0, 0x104⟩,
  ⟨R.SUP_HU_CFG, 1, 0x4, 1, 0x4, 0xFF00000F, 0x0, 0x0, 0x0, 0x0, 0x3⟩,
  ⟨R.SUP_PF_CFG, 1, 0x4, 1, 0x4, 0x0, 0x800003FF, 0x0, 0x0, 0x0, 0x0⟩,
  ⟨R.SUP_TEMP_CFG, 1, 0x4, 1, 0x4, 0xFF, 0x0, 0x0, 0x0, 0x0, 0x7D⟩,
  ⟨R.SUP_TEMP, 1, 0x4, 1, 0x4, 0x0, 0x0, 0x0, 0x0, 0x0, 0x0⟩,
  ⟨R.SUP_RST_CAUSE, 1, 0x4, 1, 0x4, 0x0, 0x0, 0x0, 0x0, 0x0, 0x0⟩,
  ⟨R.SUP_RST_CMD, 1, 0x4, 1, 0x4, 0x0, 0x0, 0x0, 0x0, 0x0, 0x0⟩,
  ⟨R.SUP_WDT_CFG, 1, 0x4, 1, 0x4, 0xFFFF, 0x0, 0x0, 0x80000000, 0x0, 0x3E8⟩,
  ⟨R.SUP_WDT_KICK, 1, 0x4, 1, 0x4, 0x0, 0x0, 0x0, 0x0, 0x0, 0x0⟩,
  ⟨R.SUP_IRQ_STATUS, 1, 0x4, 1, 0x4, 0x0, 0x0, 0x7FF, 0x0, 0x0, 0x0⟩,
  ⟨R.SUP_IRQ_ENABLE, 1, 0x4, 1, 0x4, 0x7FF, 0x0, 0x0, 0x0, 0x0, 0x1ED⟩,
  ⟨R.CAL_SEC_LO, 1, 0x4, 1, 0x4, 0x0, 0x0, 0x0, 0x0, 0x0, 0x0⟩,
  ⟨R.CAL_SEC_HI, 1, 0x4, 1, 0x4, 0x0, 0x0, 0x0, 0x0, 0x0, 0x0⟩,
  ⟨R.CAL_SUBSEC, 1, 0x4, 1, 0x4, 0x0, 0x0, 0x0, 0x0, 0x0, 0x0⟩,
  ⟨R.CAL_DATE, 1, 0x4, 1, 0x4, 0x0, 0x0, 0x0, 0x0, 0x0, 0x0⟩,
  ⟨R.CAL_TIME, 1, 0x4, 1, 0x4, 0x0, 0x0, 0x0, 0x0, 0x0, 0x0⟩,
  ⟨R.CAL_SET_LO, 1, 0x4, 1, 0x4, 0xFFFFFFFF, 0x0, 0x0, 0x0, 0x0, 0x0⟩,
  ⟨R.CAL_SET_HI, 1, 0x4, 1, 0x4, 0xFFFFFFFF, 0x0, 0x0, 0x0, 0x0, 0x0⟩,
  ⟨R.CAL_CFG, 1, 0x4, 1, 0x4, 0x800000FF, 0x0, 0x0, 0x0, 0x0, 0x0⟩,
  ⟨R.CAL_STATUS, 1, 0x4, 1, 0x4, 0x0, 0x0, 0x1, 0x0, 0x0, 0x0⟩]

/-- The rows of the DBG block. -/
def rowsDBG : List RegRow := [
  ⟨R.HOST_TSTAT, 1, 0x4, 1, 0x4, 0x0, 0x0, 0x0, 0x0, 0x0, 0xA0⟩,
  ⟨R.HOST_CFG, 1, 0x4, 1, 0x4, 0x3, 0x0, 0x0, 0x0, 0x0, 0x1⟩,
  ⟨R.HOST_ERR_CNT, 1, 0x4, 1, 0x4, 0x0, 0x0, 0x0, 0x0, 0xFFFF, 0x0⟩,
  ⟨R.DBG_CTRL, 1, 0x4, 1, 0x4, 0x0, 0x0, 0x0, 0x0, 0x0, 0x0⟩,
  ⟨R.DBG_STATUS, 1, 0x4, 1, 0x4, 0x0, 0x0, 0x8, 0x0, 0x0, 0x0⟩,
  ⟨R.DBG_LOCK, 1, 0x4, 1, 0x4, 0x0, 0x0, 0x0, 0x0, 0x0, 0x0⟩,
  ⟨R.TEST_CTRL, 1, 0x4, 1, 0x4, 0xFF0003, 0x0, 0x0, 0x0, 0x0, 0x0⟩,
  ⟨R.TEST_MRAM_PAGE, 1, 0x4, 1, 0x4, 0x7FFF, 0x0, 0x0, 0x0, 0x0, 0x0⟩,
  ⟨R.TEST_MRAM 0, 512, 0x4, 1, 0x4, 0xFFFFFFFF, 0x0, 0x0, 0x0, 0x0, 0x0⟩]

/-- Does offset `a` belong to the row? -/
def RegRow.has (r : RegRow) (a : Nat) : Bool :=
  decide (r.base ≤ a) && decide ((a - r.base) / r.s1 < r.n1) &&
    decide ((a - r.base) % r.s1 / r.s2 < r.n2) && decide ((a - r.base) % r.s1 % r.s2 = 0)

/-- The row of the register at offset `a`; none where no chapter defines it (R10). -/
def findRow (a : Nat) : Option RegRow :=
  let rows :=
    if a < 0x400 then rowsSYS
    else if a < 0x800 then rowsFRM
    else if a < 0x1000 then rowsCFG
    else if a < 0x2000 then rowsMOT
    else if a < 0x2800 then rowsCUR
    else if a < 0x3000 then rowsPWM
    else if a < 0x3400 then rowsGDR
    else if a < 0x3C00 then rowsCSA
    else if a < 0x4000 then rowsPMC
    else if a < 0x4400 then rowsCMP
    else if a < 0x4800 then rowsFBK
    else if a < 0x5000 then rowsOBS
    else if a < 0x6000 then rowsNET
    else if a < 0x6800 then rowsNVS
    else if a < 0x7000 then rowsSUP
    else if a < 0x8000 then rowsDBG
    else []
  rows.find? (·.has a)

/-- The value of the register at offset `a` at reset: the value of its row. Two registers whose value depends on the
index: CMPcc_CFG.POL is 1 and CMPcc_DAC.CODE is 0 on the odd comparators up to 31, and CODE is 0x3FF on the others. -/
def resetWord (a : Nat) : Word :=
  match findRow a with
  | none => 0
  | some r =>
    let c := (a - 0x4000) / 0x10
    let below := decide (c % 2 = 1) && decide (c ≤ 31)
    if r.base = R.CMPc_CFG 0 then BitVec.ofNat 32 (if below then r.reset + 2 else r.reset)
    else if r.base = R.CMPc_DAC 0 then (if below then 0 else 0x3FF)
    else BitVec.ofNat 32 r.reset

end Sys2Proof.Machine
end

