-- ==== Sys2Proof/Machine/Bits.lean ====
section
/-!
DEFINITION. Bit fields of a register word, sparse maps in canonical form, and the rounding and saturation that the
spec uses in every block (Table 1.3: convergent rounding, saturation).
-/
namespace Sys2Proof.Machine

/-- The word with ones in bits `lo` to `lo + len - 1`. -/
def maskN (lo len : Nat) : Word := BitVec.ofNat 32 ((2 ^ len - 1) * 2 ^ lo)

/-- Bits `lo` to `lo + len - 1` of a word, as a number. -/
def bitsOf (w : Word) (lo len : Nat) : Nat := w.toNat / 2 ^ lo % 2 ^ len

/-- The word with bits `lo` to `lo + len - 1` replaced by the low bits of `v`. -/
def setBits (w : Word) (lo len v : Nat) : Word :=
  (w &&& ~~~ maskN lo len) ||| BitVec.ofNat 32 (v % 2 ^ len * 2 ^ lo)

/-- Replace in `old` the bits of `mask` by those of `new`. -/
def mergeMask (old new : Word) (mask : Nat) : Word :=
  (old &&& ~~~ BitVec.ofNat 32 mask) ||| (new &&& BitVec.ofNat 32 mask)

/-- A sparse map from numbers, kept with rising keys and without an entry that equals what an unlisted key reads as. -/
abbrev SMap (β : Type) := List (Nat × β)

/-- The value at key `k`; an unlisted key reads as `d k`. -/
def SMap.get {β : Type} (d : Nat → β) : SMap β → Nat → β
  | [], k => d k
  | (a, v) :: m, k => if a = k then v else SMap.get d m k

/-- Put `v` at `k` in key order. -/
def SMap.insert {β : Type} (k : Nat) (v : β) : SMap β → SMap β
  | [] => [(k, v)]
  | (a, w) :: m =>
    if a = k then (k, v) :: m
    else if k < a then (k, v) :: (a, w) :: m
    else (a, w) :: SMap.insert k v m

/-- Drop every entry at `k`. -/
def SMap.erase {β : Type} (k : Nat) : SMap β → SMap β
  | [] => []
  | (a, w) :: m => if a = k then SMap.erase k m else (a, w) :: SMap.erase k m

/-- Write `v` at `k`: an entry is kept only where it differs from the unlisted value. -/
def SMap.set {β : Type} [DecidableEq β] (d : Nat → β) (m : SMap β) (k : Nat) (v : β) : SMap β :=
  if v = d k then SMap.erase k m else SMap.insert k v m

/-- The canonical form: keys strictly rising, no entry equal to the unlisted value. -/
def SMap.wf {β : Type} [DecidableEq β] (d : Nat → β) : SMap β → Bool
  | [] => true
  | (a, v) :: m =>
    decide (v ≠ d a) && (match m with
      | [] => true
      | (b, _) :: _ => decide (a < b)) && SMap.wf d m

/-- Write several values in turn. -/
def SMap.setMany {β : Type} [DecidableEq β] (d : Nat → β) (m : SMap β) (l : List (Nat × β)) : SMap β :=
  l.foldl (fun m p => m.set d p.1 p.2) m

/-- Convergent rounding of `x / d` for `d > 0`: to the nearest integer, a tie to the even one (Table 1.3). -/
def convDiv (x : Int) (d : Nat) : Int :=
  let q := x / (d : Int)
  let r := x % (d : Int)
  if 2 * r > (d : Int) then q + 1
  else if 2 * r = (d : Int) then (if q % 2 = 0 then q else q + 1)
  else q

/-- Truncation of `x / d` toward zero, `d > 0`. -/
def truncDiv (x : Int) (d : Nat) : Int :=
  if 0 ≤ x then x / (d : Int) else -((-x) / (d : Int))

/-- `x` limited to `lo .. hi`. -/
def clampI (lo hi x : Int) : Int := if x < lo then lo else if hi < x then hi else x

/-- `x` limited to `lo .. hi`. -/
def clampN (lo hi x : Nat) : Nat := if x < lo then lo else if hi < x then hi else x

/-- Saturation to a signed `w`-bit number. -/
def satS (w : Nat) (x : Int) : Int := clampI (-(2 ^ (w - 1) : Nat)) ((2 ^ (w - 1) : Nat) - 1) x

/-- Saturation to an unsigned `w`-bit number. -/
def satU (w : Nat) (x : Nat) : Nat := if x < 2 ^ w then x else 2 ^ w - 1

/-- Add `k` to a count that stops at the largest `w`-bit number. -/
def satAdd (w a k : Nat) : Nat := satU w (a + k)

/-- One as a number where a condition holds, else zero. -/
def b2n (b : Bool) : Nat := if b then 1 else 0

/-- The little-endian bytes of `n`, `k` of them (R4). -/
def leBytes : Nat → Nat → List Byte
  | 0, _ => []
  | k + 1, n => BitVec.ofNat 8 n :: leBytes k (n / 256)

/-- The number that little-endian bytes spell (R4). -/
def ofLe : List Byte → Nat
  | [] => 0
  | b :: bs => b.toNat + 256 * ofLe bs

/-- Insert into a list sorted by `le`, after the members it equals. -/
def insertBy {α : Type} (le : α → α → Bool) (a : α) : List α → List α
  | [] => [a]
  | b :: l => if le b a then b :: insertBy le a l else a :: b :: l

/-- Sort by `le`, keeping the order of equals. -/
def sortBy {α : Type} (le : α → α → Bool) (l : List α) : List α := l.foldl (fun acc a => insertBy le a acc) []

/-- Digit-by-digit square root: `k` binary digits from the top. -/
def isqrtGo : Nat → Nat → Nat → Nat
  | 0, _, r => r
  | k + 1, n, r => if (r + 2 ^ k) * (r + 2 ^ k) ≤ n then isqrtGo k n (r + 2 ^ k) else isqrtGo k n r

/-- The integer part of the square root of `n < 2^128`. -/
def isqrt (n : Nat) : Nat := isqrtGo 64 n 0

/-- The square root rounded to the nearest integer. -/
def rsqrt (n : Nat) : Nat := (isqrt (4 * n) + 1) / 2

/-- The sum of a list of integers. -/
def sumI (l : List Int) : Int := l.foldl (· + ·) 0

/-- The largest member of a list of naturals, 0 for none. -/
def maxN (l : List Nat) : Nat := l.foldl Nat.max 0

end Sys2Proof.Machine
end

