-- ==== Sys2Proof/Machine/State.lean ====
section
/-!
DEFINITION. The state of the block, plain data. Every register of the register map lives in `regs` (single home, status
registers included); the structures hold what no register shows. `pending` is the queue of waiting commands.
-/
namespace Sys2Proof.Machine

/-- Reasons a step stops with a fault. The spec gives the block none: an undefined offset reads 0 (R10) and every event
has a stated effect; no meaning raises one. Safe: nothing can be proved from it. -/
inductive Fault where
  /-- Raised by no meaning. Safe. -/
  | none
deriving DecidableEq, Repr

/-- Reasons a command has no meaning. -/
inductive Refusal where
  /-- Raised by an arm of `exec` without a meaning yet. Safe: the machine stops where the hardware goes on. -/
  | notModelled (mnemonic : String)
deriving DecidableEq, Repr

/-! ## The event log and the event queue (R353, R375) -/

/-- One entry of the event log (Table 15.6); its CRC is computed when the entry is shown. -/
structure LogEntry where
  seq : Nat
  kind : Nat
  endpoint : Nat
  bit : Nat
  flags : Nat
  time : Nat
  epoch : Nat
  reg : Nat
  frame : Nat
  data : Word
deriving DecidableEq, Repr

/-- One EVENT message waiting in the event queue (Table 14.3). -/
structure EvMsg where
  endpoint : Nat
  bit : Nat
  reg : Nat
  time : Nat
  seq : Nat
  frame : Nat
  obj : Word
  epoch : Nat
deriving DecidableEq, Repr

/-! ## Frame engine and configuration (chapters 1 and 2) -/

/-- Where in a frame the engine stands (Table 1.1). -/
inductive FrameStage where
  | idle
  | window
  | output
  | guard
deriving DecidableEq, Repr

/-- One step of a task body or of table memory (Table 2.11). -/
structure MStep where
  g : Word
  e0 : Word
  e1 : Word
  e2 : Word
deriving DecidableEq, Repr

/-- A data-memory access entry of a task (Table 2.10). -/
structure IoEntry where
  write : Bool
  start : Nat
  count : Nat
deriving DecidableEq, Repr

/-- A task descriptor of an image (Table 2.9). -/
structure TaskDesc where
  cls : Nat
  axis : Nat
  wide : Bool
  divs : Nat
  rank : Nat
  cycles : Nat
  id : Nat
  deps : List Nat
  io : List IoEntry
  body : List MStep
deriving DecidableEq, Repr

/-- A placed task (R441, FRM_PLACE_TASKnn) with the first of its steps in table memory. -/
structure Placed where
  cls : Nat
  axis : Nat
  wide : Bool
  lane : Nat
  div : Nat
  phase : Nat
  start : Nat
  cycles : Nat
  row : Nat
  steps : Nat
deriving DecidableEq, Repr

/-- A fabric route (Table 2.6). -/
structure Route where
  sink : Nat
  src : Nat
  inv : Bool
deriving DecidableEq, Repr

/-- A microstep table of an image (R64): number, kind and the Q1.15 values. -/
structure MTable where
  num : Nat
  kind : Nat
  vals : List Int
deriving DecidableEq, Repr

/-- A PARAM entry (Table 2.15). -/
structure ParamEntry where
  dmem : Bool
  carry : Bool
  hostW : Bool
  addr : Nat
  data : List Word
deriving DecidableEq, Repr

/-- What one partition of a configuration says. -/
structure PartCfg where
  present : Bool
  routes : List Route
  tasks : List TaskDesc
  tables : List MTable
  params : List ParamEntry
deriving DecidableEq, Repr

/-- The DEVICE section (Table 2.4): the period C, the divisor and the offset of each axis. -/
structure DevCfg where
  cycles : Nat
  m : List Nat
  offset : List Nat
deriving DecidableEq, Repr

/-- A whole configuration: the nine partitions and the DEVICE section. -/
structure Config where
  parts : List PartCfg
  dev : DevCfg
  format : Nat
  imageId : Nat
  standstill : Nat
deriving DecidableEq, Repr

/-- The result of the frame builder (R28, R441). -/
structure Placement where
  tasks : List Placed
  total : Nat
  busy : List Nat
  makespan : List Nat
  demoted : Bool
deriving DecidableEq, Repr

/-- The section bytes of one partition as a bank stores them, in directory order, with the manifest and the signature
section of the image they came from (R54). -/
structure StoredPart where
  secs : List (Nat × List Byte)
  manifest : List Byte
  sig : Option (List Byte)
deriving DecidableEq, Repr

/-- One image bank (R46): its nine partitions and whether a scrub found it damaged. -/
structure Bank where
  parts : List (Option StoredPart)
  damaged : Bool
deriving DecidableEq, Repr

/-- A key slot (R53): 0 empty, 1 programmed, 2 revoked, and the public point. -/
structure KeySlot where
  st : Nat
  x : Nat
  y : Nat
deriving DecidableEq, Repr

/-- A configuration that the builder is placing or has placed for the next frame start. -/
structure Job where
  bank : Nat
  cfg : Config
  place : Placement
  axis : Option Nat
  fallback : Bool
deriving DecidableEq, Repr

/-- The frame engine (chapter 1): the stage; the placed tasks, table memory, predicate flags and data memory; the export
regions as the previous frame ended; the output buffer; window writes that wait for the latch; consecutive overruns and
whether the present frame overruns; the axes disarmed after the latch and the axes with STANDSTILL published by the frame
before, bit n for axis n; whether the guard stage has committed the swap; the last result per requester port and the core cycles at which the
activities began; the claim of the start-up (R47). -/
structure Frm where
  stage : FrameStage
  tasks : List Placed
  table : SMap Word
  flags : BitVec 320
  dmem : SMap Word
  exports : SMap Word
  obuf : SMap (Option Word)
  winQ : List (Nat × Word)
  overruns : Nat
  lastOverrun : Bool
  disarmedAt : Nat
  stillAt : Nat
  swapCommit : Bool
  maintResult : Vector Word 4
  slotStart : Vector Nat 16
  claimStart : Bool
deriving DecidableEq, Repr

/-- The configuration loader (chapter 2). -/
structure Cfg where
  banks : Vector Bank 2
  run : Config
  img : SMap Byte
  page : Option Nat
  held : List Nat
  port : Option Path
  ver : Option Job
  act : Option Job
  swap : Option Job
  boot : Option Job
  otpData : Vector Word 16
  otpOp : Option (Nat × Nat)
  otpKey : Nat × Nat
  keys : Vector KeySlot 4
deriving DecidableEq, Repr


/-- The event log (R375) and the event queue (R353): entries waiting in RAM, entries in MRAM oldest first, the next
sequence number, the chunks a scrub found unreadable; messages waiting, next SEQ, messages lost since the last one
sent, whether the next one carries OVERFLOW; the summary groups of Table 13.6 raised since the last processed pass. -/
structure LogSys where
  buf : List LogEntry
  area : List LogEntry
  seq : Nat
  badSeqs : List Nat
  evq : List EvMsg
  evSeq : Nat
  evLost : Nat
  evOvf : Bool
  raised : Nat
deriving DecidableEq, Repr

/-! ## Non-volatile store (chapter 15) -/

/-- One copy of a record: its header fields, its payload, and whether a block of it is uncorrectable (R362). -/
structure RecCopy where
  id : Nat
  restored : Bool
  gen : Nat
  time : Nat
  epoch : Nat
  payload : List Byte
  bad : Bool
deriving DecidableEq, Repr

/-- A waiting commit (R364): the record, whether the host asked for it, the payload a host commit took from the buffer,
the copy that a repair keeps, whether RESTORED is set. -/
structure Commit where
  id : Nat
  host : Bool
  payload : List Byte
  keep : Option RecCopy
  restored : Bool
deriving DecidableEq, Repr

/-- The axis block of the power-loss store (Table 15.5). -/
structure AxisBlock where
  pos : Int
  homed : Bool
  uncertain : Bool
  ref : Bool
  devRefValid : Bool
  guardShort : Bool
  vel : Int
  fbkPos : Int
  ssiOff : Int
  devRef : Int
  stopCause : Word
deriving DecidableEq, Repr

/-- A power-loss store in slot A or B (R371) with its CONSUMED mark (R374). -/
structure PlsStore where
  seq : Nat
  time : Nat
  epoch : Nat
  node : Nat
  frame : Nat
  trigger : Nat
  axes : List AxisBlock
  samples : List (Nat × Nat)
  consumed : Bool
deriving DecidableEq, Repr

/-- A foreign replica slot (R380): the owner, its serial, version, the blocks committed, the block in staging, how many
blocks it has, and the manifest CRC of the OFFER. -/
structure Held where
  owner : Nat
  serial : Nat
  version : Nat
  nblocks : Nat
  size : Nat
  blocks : List (Nat × List Byte)
  staging : List (Nat × List Byte)
  stageBlock : Nat
deriving DecidableEq, Repr

/-- The placement of an own replica (R379): the candidate asked or holding (0 to 3 on its own side, 4 to 7 on the other),
whether an OFFER waits for its answer, the blocks (with CRC) that the holder has acknowledged, the blocks sent since. -/
structure OwnRep where
  candidate : Nat
  offered : Bool
  acked : List (Nat × Nat)
  sent : List (Nat × Nat)
deriving DecidableEq, Repr

/-- A restore in progress (R382): the offers in hand (holder, version, size), the holder in use, the blocks received. -/
structure Restore where
  offers : List (Nat × Nat × Nat)
  source : Option Nat
  blocks : List (Nat × List Byte)
  staging : List (Nat × List Byte)
  stageBlock : Nat
deriving DecidableEq, Repr

/-- The power-loss sequence (R370, R371). -/
inductive PlsPhase where
  | idle
  | armed
  | snapped
  | writing
  | done
deriving DecidableEq, Repr

/-- The non-volatile store (chapter 15). -/
structure Nvs where
  recs : SMap (List (Option RecCopy))
  queue : List Commit
  running : Option Commit
  retry : List Commit
  cUseNf : Nat
  pls : Vector (Option PlsStore) 2
  plsPhase : PlsPhase
  plsStart : Nat
  snapshot : Option PlsStore
  samples : List (Nat × Nat)
  sampleAt : Nat
  vhold : Nat
  bufBytes : SMap Byte
  mramRest : SMap Byte
  safetyDirty : List Nat
  own : Vector OwnRep 2
  heldReps : Vector Held 3
  repVersion : Nat
  repDirty : Bool
  restore : Option Restore
deriving DecidableEq, Repr
/-! ## Motion, gearing and timed commands (chapters 3 and 4) -/

/-- The moving part of a profile (R78): position in µst and speed in µst/s, both with 32 fraction bits, the direction of
the last motion, whether the previous frame decelerated toward the target (R87), the segment of this frame. -/
structure Kin where
  x : Int
  v : Nat
  fwd : Bool
  decel : Bool
  seg : Nat
deriving DecidableEq, Repr

/-- Where a homing run stands (R108). -/
inductive HomePhase where
  | away
  | search
  | indexWait
  | stopping
  | backoff
deriving DecidableEq, Repr

/-- A homing run: its phase, the distance searched (32 fraction bits), the backoff target, the time of the switch
reference in core cycles. -/
structure Homing where
  phase : HomePhase
  travel : Nat
  aim : Int
  refTime : Int
deriving DecidableEq, Repr

/-- The gear of an axis (R116, R120, R125): the previous master estimate, the remainder, the slave position and the
direction of a running blend, the number of the herd record in use, its correction and the frames since it arrived. -/
structure Gear where
  m : Int
  rem : Int
  xc : Int
  sPos : Bool
  recNo : Nat
  corr : Int
  corrAge : Nat
deriving DecidableEq, Repr

/-- A pending timed command beside what MOTn_TCMD_SLOTj shows (R129): its time, its operand, the order of acceptance,
the path it came by. -/
structure TSlot where
  time : Nat
  arg : Nat
  order : Nat
  path : Path
deriving DecidableEq, Repr

/-- A running ENC_CAL (R140): the starting x, the cycles run, the sum, count, least and greatest of the records, the
feedback position at the start and the change found at the turn. -/
structure EncCal where
  start : Int
  ran : Nat
  sum : Int
  count : Nat
  lo : Int
  hi : Int
  fb0 : Int
  turn : Option Int
deriving DecidableEq, Repr

/-- An axis (chapters 3 and 4). `xOut` is the position output of the previous frame, `still` the standstill that the
frame's profile step found, `causes` the stop causes for the next latch, `chg` the debounced level changes and `edges`
the counted STEP edges since the last one, `hist` the outputs of a homing run with the instants they took effect,
`index` and `stall` what a homing run waits for. -/
structure Axis where
  armed : Bool
  kin : Kin
  run : Bool
  xOut : Int
  still : Bool
  stopOpen : Bool
  ramping : Bool
  imm : Bool
  softAim : Option Int
  causes : List (Nat × Nat)
  bridgeOff : Bool
  followOff : Bool
  edges : List Bool
  chg : List (LimitInput × Bool × Int)
  home : Option Homing
  hist : List (Int × Int)
  index : Option Int
  stall : Bool
  cmdTaken : Bool
  modChanged : Bool
  propagate : Bool
  gear : Gear
  cal : Option EncCal
  slots : Vector TSlot 4
deriving DecidableEq, Repr

/-- An axis without motion: what an index outside 0 to 7 reads. -/
def restAxis : Axis :=
  { armed := false, kin := ⟨0, 0, false, false, 0⟩, run := false, xOut := 0, still := false, stopOpen := false,
    ramping := false, imm := false, softAim := none, causes := [], bridgeOff := false, followOff := false, edges := [],
    chg := [], home := none, hist := [], index := none, stall := false, cmdTaken := false, modChanged := false,
    propagate := false, gear := ⟨0, 0, 0, true, 0, 0, 0⟩, cal := none, slots := Vector.replicate 4 ⟨0, 0, 0, .host⟩ }

/-- A master record (R124): position, velocity in Q32.8, sample time. -/
structure MRec where
  pos : Int
  vel : Int
  time : Nat
deriving DecidableEq, Repr

/-- The herd side of a membership (R124 to R128): the latest present record and the one before it, how many have
arrived, consecutive cycles without one, whether this cycle brought one, MASTER_OK, the SEQ of the RAW record that the
Bellwether sent last, the latest RAW record seen, the words of the latest present record, remote member axes that
reported READY. -/
structure Herd where
  cur : Option MRec
  prev : Option MRec
  count : Nat
  missed : Nat
  seen : Bool
  ok : Bool
  rawSeq : Option Nat
  raw : List Byte
  words : List Word
  ready : Nat
deriving DecidableEq, Repr

/-- A membership without records. -/
def restHerd : Herd :=
  { cur := none, prev := none, count := 0, missed := 0, seen := false, ok := false, rawSeq := none, raw := [], words := [],
    ready := 0 }

/-! ## Sensing (chapter 8) -/

/-- One sinc3 output of a fast path (R207): its value in DATA units, whether it is valid, whether it clipped. -/
structure Sample where
  val : Int
  valid : Bool
  clip : Bool
deriving DecidableEq, Repr

/-- An averaging window (R19, R212): the sum of its valid outputs, their number, whether one clipped, whether one
carried RANGE_CHG, whether any output, valid or not, carried it. -/
structure Window where
  sum : Int
  cnt : Nat
  clip : Bool
  chg : Bool
  anyChg : Bool
deriving DecidableEq, Repr

/-- A running OFFSET_CAL (R226): whether INPUT = ZERO is in force, the sum and the number of fine results taken, whether
one was clipped or invalid. -/
structure OffCal where
  zero : Bool
  sum : Int
  cnt : Nat
  bad : Bool
deriving DecidableEq, Repr

/-- A sense channel (chapter 8): the last fast samples, newest first; the window being filled and the last complete one;
the inputs of the three half-band stages, newest first; the outputs since the period start; the correction and the
median in force; a change that waits for its frame start; whether the last event still settles; the DC estimate with 16
fraction bits; the tags. -/
structure Chan where
  hist : List Sample
  win : Window
  done : Window
  hb : List (List Int)
  outs : Nat
  offset : Int
  gain : Nat
  median : Nat
  input : Nat
  pending : Bool
  settling : Bool
  est : Int
  fastTag : Nat
  fineTag : Nat
  avgTag : Nat
  cal : Option OffCal
deriving DecidableEq, Repr

/-- A window without outputs. -/
def emptyWindow : Window := ⟨0, 0, false, false, false⟩

/-- A channel at reset. -/
def resetChan : Chan :=
  { hist := [], win := emptyWindow, done := emptyWindow, hb := [[], [], []], outs := 0, offset := 0, gain := 0x400000,
    median := 0, input := 0, pending := false, settling := false, est := 0, fastTag := 0, fineTag := 0, avgTag := 0,
    cal := none }

/-! ## Pulse-width modulator and gate drivers (chapters 6 and 7) -/

/-- A half-bridge channel with its gate driver: the pending and late sets; the frame commit of this frame's output stage
and the one that loads at the next frame-aligned boundary; the active set of the previous period; the demands H and L;
whether the period is a refresh period; core cycles since the last charging period; UV: in force, seen in this period,
consecutive periods; the gates commanded on, the gates known below 1.5 V, the side that waits to turn on (true: high). -/
structure Bridge where
  pend : Option (Nat × Nat)
  late : Option (Nat × Nat)
  frameSet : Option (Nat × Nat)
  ready : Option (Nat × Nat)
  before : Nat × Nat
  h : Bool
  l : Bool
  refresh : Bool
  charge : Nat
  uv : Bool
  uvSeen : Bool
  uvRun : Nat
  hsOn : Bool
  lsOn : Bool
  hsLow : Bool
  lsLow : Bool
  wait : Option Bool
deriving DecidableEq, Repr

/-- A half-bridge at reset: off, its gates low, without a charging period within the longest REFRESH_AFTER (R168; DEDUCED, log
entry 2). -/
def restBridge : Bridge :=
  { pend := none, late := none, frameSet := none, ready := none, before := (0, 0), h := false, l := false,
    refresh := false, charge := 4000000, uv := false, uvSeen := false, uvRun := 0, hsOn := false, lsOn := false,
    hsLow := true, lsLow := true, wait := none }

/-- The PWM side of an axis: the index of the period since the frame-aligned boundary, the coil level in force, the one
set by this frame's output stage and the one that loads at the next frame-aligned boundary (Table 5.3 codes), the
number of periods begun. -/
structure PwmAxis where
  idx : Nat
  level : Nat
  levelSet : Option Nat
  levelReady : Option Nat
  periods : Nat
deriving DecidableEq, Repr

/-- The PWM side of an axis at reset. -/
def restPwm : PwmAxis := ⟨0, 0, none, none, 0⟩

/-- An auxiliary channel (R176): pending, late and frame sets, whether a change of its mode waits for a boundary. -/
structure Aux where
  pend : Option (Nat × Nat)
  late : Option (Nat × Nat)
  frameSet : Option (Nat × Nat)
  ready : Option (Nat × Nat)
  changing : Bool
deriving DecidableEq, Repr

/-- An auxiliary channel at reset. -/
def restAux : Aux := ⟨none, none, none, none, false⟩

/-! ## Comparators (chapter 12) -/

/-- The comparators: whether the trip outputs are released (R311), the comparators whose output holds its level after a
rescale (R306), the CODE and HYST of the user while a self-test runs (R309), by comparator, whether a rescale fell into
the conversion of a running DAC readback (R310). -/
structure CmpSys where
  ready : Bool
  hold : List Nat
  saved : List (Nat × Nat × Nat)
  rbBad : Bool
deriving DecidableEq, Repr

/-! ## Precision converter (chapter 11) -/

/-- What a conversion serves: a scan or an urgent scan with the entries still to come, or interleaving. -/
inductive ConvKind where
  | scan (rest : List Nat)
  | urgent (rest : List Nat)
  | interleave
deriving DecidableEq, Repr

/-- A conversion in progress: its kind and entry, PMC_CFGee as it started, its number in the order of conversion and
check starts, whether it carries REF_SUSPECT already (R287, R292). -/
structure Conv where
  kind : ConvKind
  entry : Nat
  cfg : Word
  seq : Nat
  suspect : Bool
deriving DecidableEq, Repr

/-- The converter: the conversions on A and B; the last number given to a conversion or check start, the number of the
running check and of the last good one, the frame in which the running check started; by entry, the number of the
conversion whose result is shown, the raw results since the median history was cleared (newest first, none for an
invalid one) and the last raw result under the same settings with its clip; consecutive deviations of each pair and the
pairs that disagreed in the latest comparison (AB, AC, BC); whether SEL changed since REF_READY last set; the core cycles
at which REF_READY last set and cleared. -/
structure Pmc where
  a : Option Conv
  b : Option Conv
  seq : Nat
  checkSeq : Nat
  goodSeq : Nat
  checkFrame : Nat
  resSeq : Vector Nat 32
  hist : Vector (List (Option Int)) 32
  prev : Vector (Option (Int × Bool)) 32
  warn : Vector Nat 3
  pairs : Vector Bool 3
  selChange : Bool
  readyAt : Nat
  clearedAt : Nat
deriving DecidableEq, Repr

/-- The converter at reset. -/
def restPmc : Pmc :=
  { a := none, b := none, seq := 0, checkSeq := 0, goodSeq := 0, checkFrame := 0, resSeq := Vector.replicate 32 0,
    hist := Vector.replicate 32 [], prev := Vector.replicate 32 none, warn := Vector.replicate 3 0,
    pairs := Vector.replicate 3 false, selChange := false, readyAt := 0, clearedAt := 0 }

/-! ## Commutation and current regulation (chapter 5) -/

/-- An open-coil check that waits for its outputs (R155): the instants in steps after which the first and the second
output are taken, and the first output so far. -/
structure OpenCheck where
  a : Nat
  b : Nat
  first : Option (Int × Bool)
deriving DecidableEq, Repr

/-- A phase loop (R143 to R159): the integrator with 47 fraction bits; the sign of the last clip; frames clipped and not
clipped in a row; frames held in a row; frames without a qualifying period; a stretch pulse to insert; frames since the
last one was inserted, 0 for none whose window is still to come; failing checks in a row; frames since a pass;
the last fast output; the waiting checks. -/
structure Phase where
  integ : Int
  clip : Int
  clipRun : Nat
  freeRun : Nat
  heldRun : Nat
  noQual : Nat
  stretch : Bool
  stretchAge : Nat
  fails : Nat
  age : Nat
  last : Option (Int × Bool)
  checks : List OpenCheck
deriving DecidableEq, Repr

/-- A phase loop at reset. -/
def restPhase : Phase :=
  { integ := 0, clip := 0, clipRun := 0, freeRun := 0, heldRun := 0, noQual := 0, stretch := false, stretchAge := 0,
    fails := 0, age := 0, last := none, checks := [] }

/-- The regulator of an axis: A_run with 32 fraction bits, the standstill timer in frames, the axis range, a release of
the guard short and a power-fail short that wait for their boundary. -/
structure CurAxis where
  aRun : Nat
  timer : Nat
  range : Nat
  release : Bool
  pfShort : Bool
deriving DecidableEq, Repr

/-- A regulator at reset. -/
def restCur : CurAxis := ⟨0, 0, 2, false, false⟩

/-! ## Feedback (chapter 9) and observers (chapter 10) -/

/-- A feedback channel: the raw position; the offset and the last accepted value of SSI; the angle of the last usable
pair; the accepted A, B and the last valid Hall sector; the changes of r as (core cycles, r), newest first; the last
index capture; conditions that hold (bits of Table 9.6); pairs outside the window in a row; frames without a usable
pair and whether this frame had one; the start of a running transfer; whether the next transfer is checked; a position
to restore at the first frame or pair; the other half of a pair that waits; FAULT as the last input latch saw it. -/
structure Fbk where
  raw : Int
  offset : Int
  value : Option Nat
  angle : Option Nat
  ab : Bool × Bool
  sector : Option Nat
  hist : List (Nat × Int)
  prevIndex : Option Int
  newIndex : Bool
  conds : Nat
  ampRun : Nat
  idleFrames : Nat
  pairSeen : Bool
  transfer : Option Nat
  checkJump : Bool
  restore : Option (Int × Bool)
  half : Option (Bool × Nat × Int × Bool × Bool)
  faultSeen : Bool
deriving DecidableEq, Repr

/-- A feedback channel at reset. -/
def restFbk : Fbk :=
  { raw := 0, offset := 0, value := none, angle := none, ab := (false, false), sector := none, hist := [],
    prevIndex := none, newIndex := false, conds := 0, ampRun := 0, idleFrames := 0, pairSeen := false, transfer := none,
    checkJump := false, restore := none, half := none, faultSeen := false }

/-- What the observer keeps of one frame (R253): the latched means of both phases and whether they were valid, u of both
phases, VM in mV, idx, the commanded velocity, A_run and whether it equals IRUN, COIL_STATE, RANGE_SETTLE, a stretch
pulse in the window, STANDSTILL. -/
structure ObsFrame where
  i : Int × Int
  ok : Bool
  u : Int × Int
  vm : Nat
  idx : Nat
  vel : Int
  aRun : Nat
  full : Bool
  coil : Nat
  settle : Bool
  stretch : Bool
  still : Bool
deriving DecidableEq, Repr

/-- An observer: the frame history, newest first; the filtered load angle with 16 fraction bits and the EMF ratio with
24; whether the last update was valid; frames since the last invalid condition; R_EST with 8 fraction bits more; the
published feedforward (Q1.15 of 64 V); a stall declaration to publish; a deviation declared and not yet inside again;
an adoption to make; the stall that the last latch saw; REF as the last latch saw it. -/
structure Obs where
  hist : List ObsFrame
  dlt : Int
  rho : Int
  valid : Bool
  since : Nat
  rEst : Nat
  ff : Int × Int
  stallNow : Bool
  devHeld : Bool
  adopt : Bool
  seen : Bool
  refSeen : Bool
deriving DecidableEq, Repr

/-- An observer at reset. -/
def restObs : Obs :=
  { hist := [], dlt := 0, rho := 0, valid := false, since := 0, rEst := 0, ff := (0, 0), stallNow := false,
    devHeld := false, adopt := false, seen := false, refSeen := false }

/-- The backup domain (R404 to R409): the seconds, the core cycle at which the present second began, a staged value and
the core cycle of its commit, whether the next second boundary takes network time, whether the crystal stands still. -/
structure Backup where
  sec : Nat
  secAt : Nat
  staged : Option Nat
  stagedAt : Nat
  sync : Bool
  stopped : Bool
deriving DecidableEq, Repr

/-- The guard domain beside its short latches (R403): the copies of PF_SHORT and DRVEN_RELEASE, bit n for axis n, and the
shed latch with its copy of FAIL + HYST in mV. -/
structure Guard where
  pfShort : Nat
  drvenRel : Nat
  shed : Option Nat
deriving DecidableEq, Repr

/-- Supervision (chapter 16): whether the converters run, whether VDRV stands still after an overvoltage, the state that
start-up has reached in the codes of SUP_STATUS.STATE, the core cycle at which the watchdog was last restarted, VM_FAIL as the
last input latch saw it. -/
structure Sup where
  power : Bool
  ovStop : Bool
  reached : Nat
  wdtAt : Nat
  failSeen : Bool
deriving DecidableEq, Repr

/-! ## The network (chapters 13 and 14) -/

/-- A segment that the node sends: the port, the delay in ns after the event that makes it send, the bytes from TYPE to
the FCS. -/
structure Tx where
  port : Nat
  after : Nat
  bytes : List Byte
deriving DecidableEq, Repr

/-- A port: TRAIN segments with AGREED sent and received, the latest valid delay samples in quarter nanoseconds (newest
first), whether the next request waits 50 µs more, unmarked errored segments in this cycle and in the one before, whether
it loops back for its partner, whether its PRBS checker is locked. -/
structure NetPort where
  sent : Nat
  recv : Nat
  samples : List Int
  backoff : Bool
  errNow : Bool
  errPrev : Bool
  looping : Bool
  prbs : Bool
deriving DecidableEq, Repr

/-- A port at rest. -/
def restPort : NetPort :=
  { sent := 0, recv := 0, samples := [], backoff := false, errNow := false, errPrev := false, looping := false,
    prbs := false }

/-- A request that waits for its input latch (R354): the port it came in by, the message, the time in core cycles at which
its segment was checked. -/
structure Req where
  port : PortIx
  msg : Mbx
  time : Nat
deriving DecidableEq, Repr

/-- A node in the root's tree (R328, R329), in position order: its parent's position and the parent's port, the fields of
its ENUM entry, the number and slot given to it. -/
structure TopoEnt where
  parent : Nat
  via : Nat
  arrival : Nat
  usable : Nat
  hint : Option Nat
  serial : Nat
  versions : Nat
  node : Option Nat
deriving DecidableEq, Repr

/-- What kind of cycle the root sends next or has sent last (R328, Table 14.7). -/
inductive RootStage where
  | normal
  | enumerate
  | assign
  | loopWait
deriving DecidableEq, Repr

/-- The root's side: the number of the cycle sent last, CYCLE_TIME of the next one in half ns, LIFE, the stage, whether an
enumeration is asked for, the number of ENUM entries, the tree in force and the one being built, messages to relay, a link
to reopen (node, port), whether it yields at the next cycle, the pass time P in ns of the last enumeration, the slew still
to run and a step to make (half ns), the first sending port of the current cycle, whether more than 1,024 slots came back
with MBX_PENDING; by herd, the remaining candidates and the Bellwether epoch given last; the register words read for the
offsets (node, address, word); the returned slots (cycle, index, bytes); WRAP_1 and WRAP_2 as last returned; the returns of an ENUM cycle so far (entries
filled, port); whether path offsets are to be written; the records of the cycle
sent last; the links of the topology, each end a position and a port. -/
structure RootSt where
  cycleNo : Nat
  nextTime : Nat
  life : Nat
  stage : RootStage
  want : Bool
  entries : Nat
  topo : List TopoEnt
  built : List TopoEnt
  relay : List Mbx
  reopen : Option (Nat × Nat)
  yield : Bool
  passNs : Nat
  slew : Int
  step : Option Int
  first : Option Nat
  many : Bool
  elect : List (Nat × List Nat)
  epochs : List (Nat × Nat)
  words : List (Nat × Nat × Word)
  slots : List (Nat × Nat × List Byte)
  wraps : Nat × Nat
  returns : List (Nat × Nat)
  offsets : Bool
  records : Nat
  edges : List ((Nat × Nat) × (Nat × Nat))
deriving DecidableEq, Repr

/-- The node's network side: local network time in half ns at the frame start; the present root with its priority; the
ports; what the last network command sent; the cycle of the latest HEADER and its start in ns, the ports it was sent on,
its arrival port; the position in the latest ENUM cycle with its epoch; the slot index; all (slot, node) pairs of the latest ASSIGN
cycle; the number stored in the identity record; a port to
open at the next cycle; the role words by endpoint; queued messages (PRIORITY, responses, own requests, replica
messages) and requests taken in; the last COUNTER accepted by (source, key) and the millisecond and number of the last one
sent; CMD with its cycle, the time it was checked and whether it is new; CMD with its cycle as the last input latch took it
and whether that was its first latch; the event groups whose flags stood at the last
output stage and STATUS of that stage; times of the latest valid HEADER and processed pass; the servo's good passes in a
row, whether the local time was stepped since the lock was lost, the frame shift still to make (half ns); supervision:
previous LIFE, misses and good passes in a row; whether this pass saw an errored segment or a loop; whether records of
this cycle may be taken (R124); the root's side. -/
structure Net where
  timeH : Nat
  root : Option Nat
  rootPrio : Nat
  ports : Vector NetPort 3
  tx : List Tx
  cycle : Option Nat
  cycleTime : Nat
  sentOn : List Nat
  arrival : Option Nat
  enumPos : Option (Nat × Nat)
  slot : Nat
  nodes : List (Nat × Nat)
  hint : Option Nat
  reopen : Option Nat
  roles : SMap Word
  prio : List Mbx
  resp : List Mbx
  own : List Mbx
  rep : List Mbx
  inQ : List Req
  counters : List ((Nat × Nat) × Nat)
  sentCtr : Nat × Nat
  cmd : List Word
  cmdCycle : Nat
  cmdAt : Nat
  cmdNew : Bool
  cmdIn : List Word
  cmdInCycle : Nat
  fresh : Bool
  groups : Nat
  status : List Word
  headerAt : Nat
  passAt : Nat
  lock : Nat
  stepped : Bool
  shift : Nat
  life : Option Nat
  misses : Nat
  goods : Nat
  errPass : Bool
  loopPass : Bool
  recOk : Bool
  rs : RootSt
deriving DecidableEq, Repr

/-- A root's side at rest. -/
def restRoot : RootSt :=
  { cycleNo := 0, nextTime := 0, life := 0, stage := .normal, want := false, entries := 64, topo := [], built := [],
    relay := [], reopen := none, yield := false, passNs := 0, slew := 0, step := none, first := none, many := false,
    elect := [], epochs := [], words := [], slots := [], wraps := (0, 0),
    returns := [], offsets := false, records := 0, edges := [] }

/-- The network side at reset. -/
def restNet : Net :=
  { timeH := 0, root := none, rootPrio := 0, ports := Vector.replicate 3 restPort, tx := [], cycle := none, cycleTime := 0, sentOn := [],
    arrival := none, enumPos := none, slot := 0, nodes := [], hint := none, reopen := none, roles := [], prio := [], resp := [],
    own := [], rep := [], inQ := [], counters := [], sentCtr := (0, 0), cmd := [], cmdCycle := 0, cmdAt := 0,
    cmdNew := false, cmdIn := [], cmdInCycle := 0, fresh := false, groups := 0, status := [], headerAt := 0, passAt := 0, lock := 0, stepped := false, shift := 0,
    life := none, misses := 0, goods := 0, errPass := false, loopPass := false, recOk := false, rs := restRoot }

/-! ## Host port and debug (chapter 17) -/

/-- Host port H: the bytes that HMISO sent from the fifth byte of the last transaction on; the words and the status byte
of the last READ with a good header (R417), and whether one has executed; the core cycle up to which HCS_N must stay high after a WRITE
(R416). -/
structure HostPort where
  out : List Byte
  words : List Word
  readStatus : Nat
  ran : Bool
  freeAt : Nat
deriving DecidableEq, Repr

/-- The debug unit: whether the sequencer halts at the end of the frame; the core cycle from which a RESUME takes effect;
whether one frame of a STEP is to run or runs; the instruction in force at the test access port (0xFF: BYPASS); the value
that its data register captured last; the cells of the boundary register as last loaded; the code (0 OK, 1 REFUSED) and
the word of the last DBG_ACCESS. -/
structure Debug where
  halt : Bool
  resumeAt : Option Nat
  step : Bool
  tap : Nat
  dr : Nat
  cells : List Bool
  result : Nat × Word
deriving DecidableEq, Repr

/-- A host write that waits for the input latch: a motion, gear or herd command, or a timed-command submission with the
TIME and ARG that stood when it was written. -/
inductive Latched where
  | cmd (c : Instr)
  | submit (p : Path) (n : AxisIx) (w : Word) (time arg : Nat)
deriving DecidableEq, Repr

/-- The state of the GK8140. -/
structure State where
  pending : List Instr
  free : Nat
  held : Bool
  now : Nat
  regs : SMap Word
  staged : List (Path × Nat × Word)
  snaps : List (Path × Nat × Word)
  frm : Frm
  cfg : Cfg
  log : LogSys
  nvs : Nvs
  backup : Backup
  guard : Guard
  sup : Sup
  net : Net
  axes : Vector Axis 8
  herds : Vector Herd 16
  latchQ : List Latched
  sub : Nat
  vm : Nat
  balls : SMap Bool
  chans : Vector Chan 32
  bridges : Vector Bridge 32
  pwmAxes : Vector PwmAxis 8
  aux : Vector Aux 8
  timers : Vector Nat 16
  phases : Vector Phase 16
  curs : Vector CurAxis 8
  fbks : Vector Fbk 8
  obss : Vector Obs 8
  dcb : Vector Nat 8
  cmp : CmpSys
  pmc : Pmc
  host : HostPort
  dbg : Debug
deriving DecidableEq, Repr

/-! ## Reset -/

/-- A bank of a blank MRAM (R46). -/
def blankBank : Bank := ⟨List.replicate 9 none, false⟩

/-- The configuration in force before an image is active: an empty table at C = 10,000 (R14). -/
def resetConfig : Config :=
  { parts := List.replicate 9 ⟨false, [], [], [], []⟩,
    dev := { cycles := 10000, m := List.replicate 8 1, offset := List.replicate 8 0 }, format := 0, imageId := 0,
    standstill := 0 }

/-- The frame engine at reset. -/
def resetFrm : Frm :=
  { stage := .idle, tasks := [], table := [], flags := 0, dmem := [], exports := [], obuf := [], winQ := [],
    overruns := 0, lastOverrun := false, disarmedAt := 0, stillAt := 0, swapCommit := false, maintResult := Vector.replicate 4 0,
    slotStart := Vector.replicate 16 0, claimStart := true }

/-- The loader at reset. -/
def resetCfg : Cfg :=
  { banks := Vector.replicate 2 blankBank, run := resetConfig, img := [], page := none, held := [], port := none,
    ver := none, act := none, swap := none, boot := none, otpData := Vector.replicate 16 0, otpOp := none,
    otpKey := (0, 0), keys := Vector.replicate 4 ⟨0, 0, 0⟩ }

/-- The store of a blank MRAM. -/
def resetNvs : Nvs :=
  { recs := [], queue := [], running := none, retry := [], cUseNf := 0, pls := Vector.replicate 2 none, plsPhase := .idle,
    plsStart := 0, snapshot := none, samples := [], sampleAt := 0, vhold := 0, bufBytes := [], mramRest := [],
    safetyDirty := [], own := Vector.replicate 2 ⟨0, false, [], []⟩, heldReps := Vector.replicate 3 ⟨0, 0, 0, 0, 0, [], [], 0⟩,
    repVersion := 0, repDirty := false, restore := none }

/-- The log and the event queue at reset: empty. -/
def resetLog : LogSys :=
  { buf := [], area := [], seq := 0, badSeqs := [], evq := [], evSeq := 0, evLost := 0, evOvf := false, raised := 0 }

/-- The entry of a reset (R391, Table 15.6) at time 0. -/
def resetEntry (seq cause : Nat) : LogEntry :=
  { seq := seq, kind := 5, endpoint := 0, bit := 0, flags := 0, time := 0, epoch := 0, reg := 0, frame := 0,
    data := BitVec.ofNat 32 cause }

/-- Registers whose value at reset stands in no column of the map: NVS_SPARE 16,384 blocks, SUP_RST_CAUSE BACKUP_POR,
VIO good, FAULT_N high by its pull-up. -/
def resetRegs : SMap Word :=
  [(R.GDR_STATUS, 0x4), (R.NVS_SPARE, 0x4000), (R.SUP_STATUS, 0x100), (R.SUP_RST_CAUSE, 0x1)]

/-- The machine right after reset: the control die has just been released after the first power-up of a device with a
blank MRAM and a reset backup domain (R14, R391, R395, R404). The frame ticks at C = 10,000 with an empty table, STATE
reads BOOT, the RESET entry stands in the log. -/
def State.reset : State :=
  { pending := [], free := 0, held := false, now := 0, regs := resetRegs, staged := [], snaps := [], frm := resetFrm,
    cfg := resetCfg, log := { resetLog with buf := [resetEntry 0 1], seq := 1 }, nvs := resetNvs,
    backup := { sec := 0, secAt := 0, staged := none, stagedAt := 0, sync := false, stopped := false },
    guard := { pfShort := 0, drvenRel := 0, shed := none },
    sup := { power := true, ovStop := false, reached := 0, wdtAt := 0, failSeen := false }, net := restNet,
    axes := Vector.replicate 8 restAxis, herds := Vector.replicate 16 restHerd, latchQ := [], sub := 0, vm := 0, balls := [],
    chans := Vector.replicate 32 resetChan, bridges := Vector.replicate 32 restBridge,
    pwmAxes := Vector.replicate 8 restPwm, aux := Vector.replicate 8 restAux, timers := Vector.replicate 16 0,
    phases := Vector.replicate 16 restPhase, curs := Vector.replicate 8 restCur, fbks := Vector.replicate 8 restFbk,
    obss := Vector.replicate 8 restObs, dcb := Vector.replicate 8 0, cmp := { ready := false, hold := [], saved := [], rbBad := false },
    pmc := restPmc, host := { out := [], words := [0], readStatus := 0xA0, ran := false, freeAt := 0 },
    dbg := { halt := false, resumeAt := none, step := false, tap := 1, dr := 0, cells := [], result := (0, 0) } }

end Sys2Proof.Machine
end

