-- ==== Sys2Proof/Machine/Ops.lean ====
section
/-!
DEFINITION. The named operations of the block: register and field access, the event log and queue (R353, R375), raising
an event (R349), the shared shapes of a meaning.
-/
namespace Sys2Proof.Machine

/-! ## Registers -/

/-- The word a register holds. -/
def State.rd (s : State) (a : Nat) : Word := SMap.get resetWord s.regs a

/-- Store a register word. -/
def State.wr (s : State) (a : Nat) (w : Word) : State := { s with regs := SMap.set resetWord s.regs a w }

/-- A field of a register as a number. -/
def State.get (s : State) (f : Fld) : Nat := bitsOf (s.rd f.addr) f.lo f.len

/-- A field of a register as a signed number. -/
def State.getS (s : State) (f : Fld) : Int := sext f.len (s.get f)

/-- A one-bit field. -/
def State.flag (s : State) (f : Fld) : Bool := decide (s.get f = 1)

/-- Store a field of a register. -/
def State.put (s : State) (f : Fld) (v : Nat) : State := s.wr f.addr (setBits (s.rd f.addr) f.lo f.len v)

/-- Store a signed number in a field. -/
def State.putS (s : State) (f : Fld) (x : Int) : State := s.put f (unsext f.len x)

/-- Store a one-bit field. -/
def State.putB (s : State) (f : Fld) (b : Bool) : State := s.put f (b2n b)

/-- Advance a count field by `k`; it stops at its largest value. -/
def State.bump (s : State) (f : Fld) (k : Nat) : State := s.put f (satAdd f.len (s.get f) k)

/-- A wide value: `w` bits, the low 32 in the register at `a`, the others in the register at `a + 4` (R4). -/
def State.wide (s : State) (w a : Nat) : Nat :=
  (s.rd a).toNat + 2 ^ 32 * bitsOf (s.rd (a + 4)) 0 (w - 32)

/-- A signed wide value. -/
def State.wideS (s : State) (w a : Nat) : Int := sext w (s.wide w a)

/-- Store a wide value. -/
def State.putWide (s : State) (w a v : Nat) : State :=
  (s.wr a (BitVec.ofNat 32 v)).wr (a + 4) (BitVec.ofNat 32 (v / 2 ^ 32 % 2 ^ (w - 32)))

/-- Store a signed wide value. -/
def State.putWideS (s : State) (w a : Nat) (x : Int) : State := s.putWide w a (unsext w x)

/-! ## Vectors of block instances -/

/-- Change entry `i` of a vector. -/
def updV {α : Type} {k : Nat} (v : Vector α k) (i : Fin k) (f : α → α) : Vector α k := v.set i.val (f v[i.val])

/-- Fold a change over a list of instances. -/
def State.forAll {α : Type} (l : List α) (f : α → State → State) (s : State) : State :=
  l.foldl (fun s a => f a s) s

/-- The axes in order. -/
def axesAll : List AxisIx := List.finRange 8

/-- Does the guard domain's copy of DRVEN_RELEASE hold for axis `n` (R403)? -/
def State.drvenRel (s : State) (n : Nat) : Bool := s.guard.drvenRel.testBit n

/-- Bit `n` of a mask becomes `b`. -/
def putBit (m n : Nat) (b : Bool) : Nat :=
  if b then m ||| 2 ^ n else if m.testBit n then m - 2 ^ n else m

/-- The guard domain takes its copy of CURn_GUARD.PF_SHORT (R403). -/
def State.copyPf (s : State) (n : Nat) : State :=
  { s with guard := { s.guard with pfShort := putBit s.guard.pfShort n (s.flag (F.CURn_GUARD_PF_SHORT n)) } }

/-- The guard domain takes its copy of GDR_GUARDn.DRVEN_RELEASE (R403). -/
def State.copyDrven (s : State) (n : Nat) : State :=
  { s with guard := { s.guard with drvenRel := putBit s.guard.drvenRel n (s.flag (F.GDR_GUARDn_DRVEN_RELEASE n)) } }

/-- Run a change only where a condition holds. -/
def State.when (s : State) (c : Bool) (f : State → State) : State := if c then f s else s

/-! ## Free values -/

/-- Take the number of a fresh free value. -/
def State.fresh (s : State) : Nat × State := (s.free, { s with free := s.free + 1 })

/-! ## Time stamps (Table 15.6) -/

/-- Network time in ns. -/
def State.netTime (s : State) : Nat := s.net.timeH / 2 % 2 ^ 64

/-- The subsecond ticks of the calendar: those of the core cycles since the second began, until its boundary comes. -/
def State.calTicks (s : State) : Nat := Nat.min 32767 ((s.now + s.sub - s.backup.secAt) * 32768 / 400000000)

/-- The calendar in ns. -/
def State.calTime (s : State) : Nat := s.backup.sec * 1000000000 + s.calTicks * 1000000000 / 32768

/-- Is the node's time locked (R344)? -/
def State.locked (s : State) : Bool := s.flag F.NET_TIME_STATUS_LOCKED

/-- The stamp of a log entry: network time and its epoch while locked, calendar time and epoch 0 otherwise. -/
def State.stamp (s : State) : Nat × Nat × Nat :=
  if s.locked then (s.netTime, s.get F.NET_TIME_STATUS_EPOCH, 1) else (s.calTime, 0, 0)

/-- The frame number. -/
def State.frame (s : State) : Nat := s.get F.FRM_COUNT_COUNT

/-- Advance the reported time within the frame. -/
def State.at (s : State) (cyc : Nat) : State := { s with sub := Nat.max s.sub cyc }

/-! ## Endpoints -/

/-- The summary bit of an endpoint (Table 13.6); none for a reserved endpoint number. -/
def summaryBit (ep : Nat) : Option Nat :=
  if ep ≤ 8 then some ep
  else if 0x10 ≤ ep ∧ ep ≤ 0x17 then some 9
  else if 0x20 ≤ ep ∧ ep ≤ 0x3F then some 10
  else if 0x40 ≤ ep ∧ ep ≤ 0x67 then some 11
  else if 0x70 ≤ ep ∧ ep ≤ 0x8F then some 12
  else if 0x90 ≤ ep ∧ ep ≤ 0xA1 then some 13
  else if 0xB0 ≤ ep ∧ ep ≤ 0xBF then some 14
  else if 0xC0 ≤ ep ∧ ep ≤ 0xFF then some 15
  else none

/-- Is the endpoint number one of Table 0.6 (R8)? -/
def endpointOk (ep : Nat) : Bool := (summaryBit ep).isSome

/-- The OBJECT word of an event (Table 14.3). -/
def State.objectWord (s : State) (ep : Nat) : Word :=
  if 1 ≤ ep ∧ ep ≤ 8 then s.rd (R.MOTn_STATUS (ep - 1))
  else if 0x10 ≤ ep ∧ ep ≤ 0x17 then s.rd (R.FBKn_STATUS (ep - 0x10))
  else if 0x20 ≤ ep ∧ ep ≤ 0x3F then s.rd (R.CSAs_STATUS (ep - 0x20))
  else if 0x40 ≤ ep ∧ ep ≤ 0x67 then s.rd (R.CMPc_STATUS (ep - 0x40))
  else if 0x70 ≤ ep ∧ ep ≤ 0x8F then s.rd (R.PMC_STATe (ep - 0x70))
  else 0

/-! ## The event log -/

/-- One entry into the RAM buffer; an entry that finds the buffer full is lost and counted, and its SEQ stays used
(R375). -/
def State.logRaw (s : State) (kind ep bit reg : Nat) (data : Word) : State :=
  let (t, e, fl) := s.stamp
  let entry : LogEntry :=
    { seq := s.log.seq, kind := kind, endpoint := ep, bit := bit, flags := fl, time := t, epoch := e, reg := reg,
      frame := s.frame, data := data }
  let log := { s.log with seq := (s.log.seq + 1) % 2 ^ 32 }
  if s.log.buf.length < 512 then { s with log := { log with buf := s.log.buf ++ [entry] } }
  else ({ s with log := log }).bump F.NVS_LOG_LOST_COUNT 1

/-- Mark an enabled event for the next summary, and queue it as an EVENT message while EVQ_EN = 1 (R349, R353). An event
that finds the queue of 256 full is counted. -/
def State.notify (s : State) (ep bit reg : Nat) : State :=
  let log := match summaryBit ep with
    | some b => { s.log with raised := s.log.raised ||| 2 ^ b }
    | none => s.log
  if s.flag F.NET_MBX_CFG_EVQ_EN then
    let m : EvMsg :=
      { endpoint := ep, bit := bit, reg := reg, time := s.netTime, seq := s.log.evSeq, frame := s.frame,
        obj := s.objectWord ep, epoch := s.get F.NET_TIME_STATUS_EPOCH }
    if s.log.evq.length < 256 then
      { s with log := { log with evq := s.log.evq ++ [m], evSeq := (s.log.evSeq + 1) % 65536 } }
    else
      (({ s with log := { log with evSeq := (s.log.evSeq + 1) % 65536, evLost := s.log.evLost + 1,
                                   evOvf := true } }).bump F.NET_MBX_STATUS_EVQ_OVF 1)
  else { s with log := log }

/-- When an event enters the log: at every occurrence, only when its bit goes from 0 to 1, never. -/
inductive LogMode where
  | always
  | edge
  | never
deriving DecidableEq, Repr

/-- An event: the status register and bit it sets, its endpoint, the register and bit that enable it for INT_N and the
summary, and when it is logged. -/
structure Ev where
  reg : Nat
  bit : Nat
  ep : Nat
  enReg : Nat
  enBit : Nat
  mode : LogMode
deriving DecidableEq, Repr

/-- The status flag of an event. -/
def Ev.fld (e : Ev) : Fld := ⟨e.reg, e.bit, 1⟩

/-- Is the event enabled for INT_N and the summary? -/
def State.evOn (s : State) (e : Ev) : Bool := s.flag ⟨e.enReg, e.enBit, 1⟩

/-- Set an event's bit, log it as its mode says, and notify when it is enabled. -/
def State.raiseBit (s : State) (e : Ev) : State :=
  let was := s.flag e.fld
  let s1 := s.put e.fld 1
  let s2 := if e.mode = .always ∨ (e.mode = .edge ∧ !was) then s1.logRaw 1 e.ep e.bit e.reg (s1.objectWord e.ep) else s1
  if s2.evOn e then s2.notify e.ep e.bit e.reg else s2

/-- LOG_LOST (R375): logged only when its bit goes from 0 to 1. -/
def evLogLost : Ev := ⟨R.NVS_IRQ_STATUS, 12, 0xFF, R.NVS_IRQ_ENABLE, 12, .edge⟩

/-- EVQ_OVF (R353). -/
def evEvqOvf : Ev := ⟨R.NET_IRQ_STATUS, 6, 0, R.NET_IRQ_ENABLE, 6, .always⟩

/-- Raise LOG_LOST and EVQ_OVF where the log buffer or the event queue turned an entry away since `s0`. -/
def State.overflowEvents (s0 s : State) : State :=
  let s1 := if s0.log.buf.length = 512 ∧ s.log.seq ≠ s0.log.seq then s.raiseBit evLogLost else s
  if s0.log.evq.length = 256 ∧ s.log.evSeq ≠ s0.log.evSeq then s1.raiseBit evEvqOvf else s1

/-- Raise an event: its bit, its log entry, its message, and the overflow events that these bring. -/
def State.raise (s : State) (e : Ev) : State := State.overflowEvents s (s.raiseBit e)

/-- Raise an event where a condition holds. -/
def State.raiseIf (s : State) (c : Bool) (e : Ev) : State := if c then s.raise e else s

/-- An entry that is not an event (Table 15.6). -/
def State.logEntry (s : State) (kind ep bit : Nat) (data : Word) : State :=
  State.overflowEvents s (s.logRaw kind ep bit 0 data)

/-! ## The shapes of a meaning -/

/-- What a command does to the machine: its effect on everything but the queue of waiting commands. -/
def State.act (s : State) (f : State → State) : State := { f s with pending := s.pending }

/-- The outcome of a command on a running device: its effect. While the control die is held in reset no block clock runs
and the command has no effect (R391). -/
def live (s : State) (f : State → State) : Host.Outcome State Fault Refusal :=
  if s.held then .next s else .next (s.act f)

/-- The outcome of an event that also acts while the control die is held in reset (supplies, the guard and backup
domains, the release of the reset). -/
def always (s : State) (f : State → State) : Host.Outcome State Fault Refusal := .next (s.act f)

/-- Is EXTEST, CLAMP or HIGHZ in force (R424)? -/
def State.scanning (s : State) : Bool := decide (s.dbg.tap = 0 ∨ s.dbg.tap = 3 ∨ s.dbg.tap = 4)

/-- The outcome of a change at a digital input pin: while boundary scan holds the inputs at their last values it has no
effect (R424). -/
def liveIn (s : State) (f : State → State) : Host.Outcome State Fault Refusal :=
  live s fun s => if s.scanning then s else f s

/-! ## Words of several blocks -/

/-- Axis `n`. -/
def State.ax (s : State) (n : Nat) : Axis := s.axes.toList.getD n restAxis

/-- Change axis `n`. -/
def State.modAx (s : State) (n : Nat) (f : Axis → Axis) : State :=
  { s with axes := s.axes.setIfInBounds n (f (s.ax n)) }

/-- Is axis `n` armed (R94)? -/
def State.armed (s : State) (n : Nat) : Bool := (s.ax n).armed

/-- Is any axis armed? -/
def State.anyArmed (s : State) : Bool := (List.range 8).any s.armed

/-- Is every axis disarmed? -/
def State.allDisarmed (s : State) : Bool := !s.anyArmed

/-- Frame events (chapter 1), endpoint 0x00. -/
def evFrm (bit : Nat) : Ev := ⟨R.FRM_IRQ_STATUS, bit, 0, R.FRM_IRQ_ENABLE, bit, .always⟩

/-- Loader events (chapter 2), endpoint 0x00; the log keeps every event (R353; DEDUCED, the chapter does not say so). -/
def evCfg (bit : Nat) : Ev := ⟨R.CFG_IRQ_STATUS, bit, 0, R.CFG_IRQ_ENABLE, bit, .always⟩

/-- Axis events (chapter 3). -/
def evMot (n bit : Nat) : Ev := ⟨R.MOTn_IRQ_STATUS n, bit, n + 1, R.MOTn_IRQ_ENABLE n, bit, .always⟩

/-- Gear events (chapter 4). -/
def evGear (n bit : Nat) : Ev := ⟨R.MOTn_GEAR_IRQ_STATUS n, bit, n + 1, R.MOTn_GEAR_IRQ_ENABLE n, bit, .always⟩

/-- Regulator events (chapter 5). -/
def evCur (n bit : Nat) : Ev := ⟨R.CURn_IRQ_STATUS n, bit, n + 1, R.CURn_IRQ_ENABLE n, bit, .always⟩

/-- Observer events (chapter 10). -/
def evObs (n bit : Nat) : Ev := ⟨R.OBSn_IRQ_STATUS n, bit, n + 1, R.OBSn_IRQ_ENABLE n, bit, .always⟩

/-- Store events on endpoint `ep` (chapter 15). -/
def evNvs (bit ep : Nat) : Ev := ⟨R.NVS_IRQ_STATUS, bit, ep, R.NVS_IRQ_ENABLE, bit, .always⟩

/-- Supply events (R410). -/
def evSup (bit : Nat) : Ev := ⟨R.SUP_IRQ_STATUS, bit, 0, R.SUP_IRQ_ENABLE, bit, .always⟩

/-- Network events (chapter 14). -/
def evNet (bit : Nat) : Ev := ⟨R.NET_IRQ_STATUS, bit, 0, R.NET_IRQ_ENABLE, bit, .always⟩

end Sys2Proof.Machine
end

