-- ==== Sys2Proof/Machine/Maint.lean ====
section
/-!
DEFINITION. The maintenance arbiter (R35 to R43): activities, claims, conflicts, the 16 slots.
-/
namespace Sys2Proof.Machine

/-- Who asks the arbiter: the SOURCE code of FRM_MAINT_SLOTnn and whether it is the present root (R35, R354). -/
structure Requester where
  source : Nat
  root : Bool
deriving DecidableEq, Repr

/-- The device's own scheduler. -/
def reqDevice : Requester := ⟨0, false⟩

/-- The requester that an access path stands for: DBG_ACCESS counts as host port H (R40). -/
def requesterOf (p : Path) (s : State) : Requester :=
  match p with
  | .host => ⟨1, false⟩
  | .dbg => ⟨1, false⟩
  | .ring q src => ⟨2 + q.val, decide (s.net.root = some src)⟩
  | .image => ⟨0, false⟩

/-- The requester port whose result an access path reads (R40): H, A, B, C. -/
def portOf (p : Path) : Fin 4 :=
  match p with
  | .ring q _ => ⟨q.val + 1, by omega⟩
  | _ => 0

/-- Number of targets of an activity (Table 1.7); 0 for a code outside the table. -/
def actTargets (act : Nat) : Nat :=
  match act with
  | 1 => 3
  | 2 => 40
  | 3 => 40
  | 4 => 1
  | 5 => 1
  | 6 => 8
  | 7 => 1
  | 8 => 1
  | 9 => 32
  | 10 => 8
  | _ => 0

/-- The column *Started by* of Table 1.7. -/
def actStarter (act : Nat) (r : Requester) : Bool :=
  let host := decide (r.source = 1)
  let dev := decide (r.source = 0)
  let ring := decide (2 ≤ r.source)
  match act with
  | 1 => host || (ring && r.root)
  | 2 => host
  | 3 => host
  | 4 => dev
  | 5 => dev || host
  | 6 => host || ring
  | 7 => dev || (ring && r.root)
  | 8 => dev || host
  | 9 => host
  | 10 => host
  | _ => false

/-- The resources that Table 1.7 names, each with its instance. -/
inductive Resource where
  | port | cmp | pmcb | scrub | axis | loader | replica | hold | csa | fbk | mslot
deriving DecidableEq, Repr

/-- The resources an activity claims (Table 1.7). -/
def actClaims (act t : Nat) : List (Resource × Nat) :=
  match act with
  | 1 => [(.port, t)]
  | 2 => [(.cmp, t)]
  | 3 => [(.cmp, t), (.pmcb, 0)]
  | 4 => [(.pmcb, 0)]
  | 5 => [(.scrub, 0)]
  | 6 => [(.axis, t), (.loader, 0)]
  | 7 => [(.replica, 0)]
  | 8 => [(.hold, 0)]
  | 9 => [(.csa, t)]
  | 10 => [(.fbk, t), (.axis, t), (.mslot, 0)]
  | _ => []

/-- The pairs of activities of Table 1.8 that conflict without a shared resource. -/
def actPair (a b : Nat) : Bool :=
  let one := fun x y => decide (x = 8 ∧ (y = 5 ∨ y = 7 ∨ y = 6)) || decide (x = 1 ∧ y = 7)
  one a b || one b a

/-- The axis whose ARMED claim conflicts with an activity (Table 1.8). -/
def actArmedAxis (act t : Nat) : Option Nat :=
  if act = 2 ∧ t ≤ 31 then some (t / 4)
  else if act = 9 ∧ t ≤ 15 then some (t / 2)
  else if act = 9 then some ((t - 16) / 2)
  else none

/-- Is slot `i` busy? -/
def State.slotBusy (s : State) (i : Nat) : Bool := s.flag (F.FRM_MAINT_SLOTn_BUSY i)

/-- The activity code in slot `i`. -/
def State.slotAct (s : State) (i : Nat) : Nat := s.get (F.FRM_MAINT_SLOTn_ACTIVITY i)

/-- The target in slot `i`. -/
def State.slotTarget (s : State) (i : Nat) : Nat := s.get (F.FRM_MAINT_SLOTn_TARGET i)

/-- The slot in which an activity runs on a target. -/
def State.findAct (s : State) (act t : Nat) : Option Nat :=
  (List.range 16).find? fun i => s.slotBusy i && decide (s.slotAct i = act ∧ s.slotTarget i = t)

/-- Does an activity run on the target? -/
def State.runs (s : State) (act t : Nat) : Bool := (s.findAct act t).isSome

/-- Does an activity run on any target? -/
def State.runsAny (s : State) (act : Nat) : Bool :=
  (List.range 16).any fun i => s.slotBusy i && decide (s.slotAct i = act)

/-- Is a commit running (the standing claim NV_COMMIT)? -/
def State.nvCommit (s : State) : Bool := s.nvs.running.isSome

/-- The supply has failed and is not good again (R43): requests are refused with MAINT_POWER_FAIL. -/
def State.powerFail (s : State) : Bool :=
  s.flag F.SUP_STATUS_VM_FAIL || decide (s.get F.SUP_STATUS_STATE = 3 ∨ s.get F.SUP_STATUS_STATE = 4)

/-- Does an activity conflict with the one in slot `i` (R36)? -/
def State.clash (s : State) (act t i : Nat) : Bool :=
  s.slotBusy i &&
    ((actClaims act t).any (fun c => (actClaims (s.slotAct i) (s.slotTarget i)).contains c) ||
      actPair act (s.slotAct i))

/-- What blocks a request (R36, R37, R43): the lowest slot of a conflicting activity, or 0xFF for a standing claim.
Before the start-up measurement has ended nothing but that measurement is granted. -/
def State.blocker (s : State) (act t : Nat) (r : Requester) : Option Nat :=
  if s.frm.claimStart && !(decide (act = 8) && decide (r.source = 0) && !s.runsAny 8) then
    some ((s.findAct 8 0).getD 0xFF)
  else
    match (List.range 16).find? (s.clash act t) with
    | some i => some i
    | none =>
      if (match actArmedAxis act t with
          | some n => s.armed n
          | none => false) then some 0xFF
      else if act = 8 ∧ s.nvCommit then some 0xFF
      else none

/-- The word of FRM_MAINT_RESULT. -/
def maintWord (code slot blocker : Nat) : Word := BitVec.ofNat 32 (code + slot * 2 ^ 8 + blocker * 2 ^ 16)

/-- Log a refusal (R37); only MAINT_BUSY counts and raises MAINT_REFUSED. -/
def State.maintRefused (s : State) (code act t blocker source : Nat) : State :=
  let s1 := s.logEntry 2 0 code (BitVec.ofNat 32 (act % 256 + t % 256 * 2 ^ 8 + blocker * 2 ^ 16 + source * 2 ^ 24))
  if code = 1 then (s1.bump F.FRM_MAINT_BUSY_CNT_COUNT 1).raise (evFrm 5) else s1

/-- ENC_CAL needs its axis armed, in position mode and at standstill (R38). -/
def State.encCalReady (s : State) (n : Nat) : Bool :=
  decide (s.get (F.MOTn_STATUS_STATE n) = 1) && decide (s.get (F.MOTn_MODE_MODE n) = 0) &&
    s.flag (F.MOTn_STATUS_STANDSTILL n)

/-- Judge a request (R35, R37, R38, R39, R43): the result code, slot and blocker. -/
def State.judgeMaint (s : State) (act t : Nat) (r : Requester) : Nat × Nat × Nat :=
  if actTargets act ≤ t ∨ !actStarter act r then (2, 0, 0)
  else if s.powerFail then (4, 0, 0)
  else if act = 10 ∧ !s.encCalReady t then (3, 0, 0)
  else match s.blocker act t r with
    | some b => (1, 0, b)
    | none =>
      match (List.range 16).find? (fun i => !s.slotBusy i) with
      | none => (1, 0, 0xFE)
      | some i => (0, i, 0)

/-- Occupy slot `i`. -/
def State.occupy (s : State) (i act t source : Nat) : State :=
  let s1 := s.wr (R.FRM_MAINT_SLOTn i) (BitVec.ofNat 32 (2 ^ 31 + source * 2 ^ 28 + t * 2 ^ 8 + act))
  { s1 with frm := { s1.frm with slotStart := s1.frm.slotStart.setIfInBounds i s1.now } }

/-- Judge a request and claim its slot or log its refusal; the result word and the slot when granted. -/
def State.claim (s : State) (act t : Nat) (r : Requester) : Word × Option Nat × State :=
  let j := s.judgeMaint act t r
  if j.1 = 0 then (maintWord 0 j.2.1 0, some j.2.1, s.occupy j.2.1 act t r.source)
  else (maintWord j.1 j.2.1 j.2.2, none, s.maintRefused j.1 act t j.2.2 r.source)

/-- Keep the result of a requester port (R40); a read of FRM_MAINT_RESULT by host port H shows the host's. -/
def State.keepResult (s : State) (p : Path) (w : Word) : State :=
  { s with frm := { s.frm with maintResult := s.frm.maintResult.set (portOf p).val w } }

/-- Free slot `i`; the activity completed (MAINT_DONE) or was aborted (MAINT_ABORTED). Its claims end. The end of the
start-up measurement opens the arbiter (R43). -/
def State.endSlot (s : State) (i : Nat) (aborted : Bool) : State :=
  let act := s.slotAct i
  let s1 := s.wr (R.FRM_MAINT_SLOTn i) 0
  let s2 := if act = 8 then { s1 with frm := { s1.frm with claimStart := false } } else s1
  s2.raise (evFrm (if aborted then 6 else 4))

/-- End an activity on a target as completed. -/
def State.endAct (s : State) (act t : Nat) : State :=
  match s.findAct act t with
  | some i => s.endSlot i false
  | none => s

/-- Would ARM of axis `n` conflict with a running activity (R36, R37)? The blocking slot. -/
def State.armBlocker (s : State) (n : Nat) : Option Nat :=
  (List.range 16).find? fun i => s.slotBusy i && decide (actArmedAxis (s.slotAct i) (s.slotTarget i) = some n)

/-- Update the run times shown in the slots, in units of 10 ms (FRM_MAINT_SLOTnn.ELAPSED). -/
def State.slotTimes (s : State) : State :=
  (List.range 16).foldl (fun s i =>
    if s.slotBusy i then
      s.put (F.FRM_MAINT_SLOTn_ELAPSED i) (satU 12 ((s.now - s.frm.slotStart.getD i 0) / 4000000))
    else s) s

end Sys2Proof.Machine
end

