-- ==== Sys2Proof/Machine/Profile.lean ====
section
/-!
DEFINITION. The motion profile of one axis as arithmetic on its position and speed (R78 to R91): positions in µst and
speeds in µst/s, both scaled by 2^32; T is `c` core cycles of 2.5 ns.
-/
namespace Sys2Proof.Machine

/-- 2^32, the scale of positions and speeds. -/
def fx : Nat := 4294967296

/-- Core cycles in a second. -/
def hzCore : Nat := 400000000

/-- The ramp parameters in force (Table 3.1): speeds scaled, rates in µst/s², the frame period in cycles, the modulo
length (0: linear) and MOD_DIR. -/
structure Ramp where
  vstart : Nat
  a1 : Nat
  vbreak : Nat
  a2 : Nat
  veff : Nat
  d2 : Nat
  d1 : Nat
  vstop : Nat
  c : Nat
  len : Nat
  modDir : Nat
deriving DecidableEq, Repr

/-- One full step per frame (R80), narrowed by truncation. -/
def speedCap (c : Nat) : Nat := 4096 * hzCore * fx / c

/-- The change of speed in one frame at a rate. -/
def Ramp.rateStep (r : Ramp) (rate : Nat) : Nat := (convDiv (rate * fx * r.c : Nat) hzCore).toNat

/-- The distance of a frame whose speed goes from `u` to `v1` (R84). -/
def Ramp.dist (r : Ramp) (u v1 : Nat) : Int := convDiv ((u + v1) * r.c : Nat) (2 * hzCore)

/-- An accelerating frame, clipped at `e` (R84): the new speed and the segment. -/
def Ramp.accel (r : Ramp) (u e : Nat) : Nat × Nat :=
  if u < r.vbreak then (Nat.min (Nat.min (u + r.rateStep r.a1) e) r.vbreak, 1)
  else (Nat.min (u + r.rateStep r.a2) e, 2)

/-- A decelerating frame, clipped at `e` (R84). -/
def Ramp.brake (r : Ramp) (u e : Nat) : Nat × Nat :=
  if r.vbreak < u then (Nat.max (Nat.max (u - r.rateStep r.d2) e) r.vbreak, 4)
  else (Nat.max (u - r.rateStep r.d1) e, 5)

/-- Is `d ≤ S(u) + k·u·T` (R85, Table 3.2)? Both sides are multiplied by the rates and the clock. -/
def Ramp.within (r : Ramp) (u k : Nat) (d : Int) : Bool :=
  let w := Nat.min r.vstop u
  let b := Nat.min (Nat.max r.vbreak w) u
  let s := (u * u - b * b) * r.d1 + (b * b - w * w) * r.d2
  let den := 2 * r.d1 * r.d2
  decide (d * (den * fx * hzCore : Nat) ≤ (s * hzCore + k * u * r.c * den * fx : Nat))

/-- V_S (R86). -/
def Ramp.vs (r : Ramp) : Nat :=
  Nat.min (Nat.max r.vstart (r.rateStep (if 0 < r.vbreak then r.a1 else r.a2))) r.veff

/-- A position on the axis: wrapped by L on a modulo axis (R82). -/
def Ramp.wrap (r : Ramp) (x : Int) : Int := if r.len = 0 then x else x % (r.len * fx : Nat)

/-- The distance from `x` to `t` in the positive direction on a modulo axis. -/
def Ramp.ahead (r : Ramp) (x t : Int) : Int := (t - x) % (r.len * fx : Nat)

/-- The direction of a move from `x` to `t` (R82). -/
def Ramp.dirTo (r : Ramp) (x t : Int) : Bool :=
  if r.len = 0 then decide (x ≤ t)
  else
    match r.modDir with
    | 1 => true
    | 2 => false
    | _ => decide (2 * r.ahead x t ≤ (r.len * fx : Nat))

/-- The distance from `x` to `t` along a direction, negative where the target lies behind (R87). -/
def Ramp.distTo (r : Ramp) (x : Int) (fwd : Bool) (t : Int) : Int :=
  if r.len = 0 then (if fwd then t - x else x - t)
  else
    let f := r.ahead x t
    let b := r.ahead t x
    let along := fun (up : Bool) => if up then f else b
    if r.dirTo x t = fwd ∨ f = 0 then along fwd else -(along (!fwd))

/-- Move by `d` along the direction of `k` with the new speed and segment. -/
def Kin.go (r : Ramp) (k : Kin) (d : Int) (v1 seg : Nat) : Kin :=
  { k with x := r.wrap (if k.fwd then k.x + d else k.x - d), v := v1, seg := seg }

/-- A step to zero exactly on the target (R88). -/
def Kin.land (k : Kin) (t : Int) (seg : Nat) : Kin := { k with x := t, v := 0, seg := seg }

/-- The segment of a decelerating frame: VSTOP once that speed is reached. -/
def Ramp.brakeSeg (r : Ramp) (p : Nat × Nat) : Nat := if p.1 ≤ r.vstop then 6 else p.2

/-- The profile step in position mode toward `t` (Table 3.2, R87, R88): the new motion, and whether the target was
reached in this frame. -/
def stepPos (r : Ramp) (k : Kin) (t : Int) : Kin × Bool :=
  if k.v = 0 then
    let up := r.dirTo k.x t
    let d := r.distTo k.x up t
    if d = 0 then ({ k with decel := false, seg := 0 }, false)
    else
      let k1 := { k with fwd := up, decel := false }
      let v1 := r.vs
      let seg := if v1 < r.vbreak then 1 else 2
      if d ≤ r.dist 0 v1 then (k1.land t seg, true) else (k1.go r (r.dist 0 v1) v1 seg, false)
  else
    let d := r.distTo k.x k.fwd t
    let decel := decide (d < 0) || r.within k.v 1 d || (k.decel && r.within k.v 2 d)
    let k1 := { k with decel := decel }
    let floor := Nat.min r.vstop k.v
    let p := if decel then r.brake k.v floor
      else if r.veff < k.v then r.brake k.v r.veff
      else if k.v < r.veff then r.accel k.v r.veff
      else (k.v, 3)
    let seg := if decel ∧ 0 ≤ d then r.brakeSeg p else p.2
    let step := r.dist k.v p.1
    if 0 ≤ d ∧ d ≤ step then (k1.land t seg, true)
    else (k1.go r step (if d < 0 ∧ p.1 = floor then 0 else p.1) seg, false)

/-- A frame of a ramped stop (R99): D2 and D1, then the step to zero at VSTOP. -/
def stepStop (r : Ramp) (k : Kin) : Kin :=
  if k.v = 0 then { k with decel := false, seg := 0 }
  else
    let floor := Nat.min r.vstop k.v
    let p := r.brake k.v floor
    { k.go r (r.dist k.v p.1) (if p.1 = floor then 0 else p.1) p.2 with decel := false }

/-- The profile step in velocity mode toward the speed `w` in a direction (R91). -/
def stepVel (r : Ramp) (k : Kin) (w0 : Nat) (up : Bool) : Kin :=
  let w := Nat.min w0 r.veff
  if k.v = 0 then
    if w = 0 then { k with decel := false, seg := 0 }
    else
      let v1 := Nat.min r.vs w
      { k with fwd := up, decel := false }.go r (r.dist 0 v1) v1 (if v1 < r.vbreak then 1 else 2)
  else if w = 0 ∨ up ≠ k.fwd then stepStop r k
  else
    let p := if w < k.v then r.brake k.v w else if k.v < w then r.accel k.v w else (k.v, 3)
    { k with decel := false }.go r (r.dist k.v p.1) p.1 p.2

/-- The highest position of a linear axis, scaled (R81). -/
def posMax : Int := (2 ^ 47 - 1) * (fx : Int)

/-- The lowest position of a linear axis, scaled. -/
def posMin : Int := -(2 ^ 47) * (fx : Int)

/-- The integer part of a position (R78), rounded toward minus infinity. -/
def intPart (x : Int) : Int := x / (fx : Int)

/-- The speed that an increment (scaled) over one frame reports (R92, R116). -/
def incSpeed (c : Nat) (d : Int) : Nat := (convDiv (d.natAbs * hzCore : Nat) c).toNat

/-- The signed Q32.8 velocity of a motion (R78). -/
def Kin.velQ (k : Kin) : Int :=
  let q := convDiv (k.v : Int) (2 ^ 24)
  if k.fwd then q else -q

/-- The commanded trajectory of a homing run at time `t` (R108): the last instants and positions, linear between them,
rounded toward minus infinity; before the first one its position holds. -/
def trajectory (r : Ramp) (hist : List (Int × Int)) (up : Bool) (t : Int) : Int :=
  match hist with
  | [] => 0
  | [(_, x)] => intPart x
  | (t0, x0) :: (t1, x1) :: rest =>
    if t < t1 then
      if t ≤ t0 then intPart x0
      else
        let span := if r.len = 0 then x1 - x0 else if up then r.ahead x0 x1 else -(r.ahead x1 x0)
        intPart (r.wrap (x0 + span * (t - t0) / (t1 - t0)))
    else trajectory r ((t1, x1) :: rest) up t

end Sys2Proof.Machine
end

