-- ==== Sys2Proof/Machine/Motion.lean ====
section
/-!
DEFINITION. Motion state of an axis: results, stops (R98 to R102), the judgement of motion commands (R442), limits
(R104 to R107), homing (R108, R109) and the published status (R96).
-/
namespace Sys2Proof.Machine

/-! ## Parameters -/

/-- A Q32.8 register as a scaled speed. -/
def State.spd (s : State) (a : Nat) : Nat := s.wide 40 a * 2 ^ 24

/-- MOTn_MODULO. -/
def State.modulo (s : State) (n : Nat) : Nat := s.wide 48 (R.MOTn_MODULO n)

/-- MOTn_TARGET. -/
def State.target (s : State) (n : Nat) : Int := s.wideS 48 (R.MOTn_TARGET n)

/-- MOTn_MODE.MODE: 0 position, 1 velocity, 2 follow, 3 geared. -/
def State.mode (s : State) (n : Nat) : Nat := s.get (F.MOTn_MODE_MODE n)

/-- The frame period in core cycles. -/
def State.period (s : State) : Nat := s.get F.FRM_PERIOD_CYCLES

/-- Can a deadline, in core cycles, have come within the present frame? Commands without a cycle of their own come at any time
of the frame. -/
def State.dueBy (s : State) (t : Nat) : Bool := decide (t ≤ s.now + s.period)

/-- The ramp of Table 3.1 with VEFF of R80; HOME_VEL takes the place of VMAX during homing. -/
def State.ramp (s : State) (n : Nat) : Ramp :=
  let top := s.spd (if (s.ax n).home.isSome then R.MOTn_HOME_VEL n else R.MOTn_VMAX n)
  { vstart := s.spd (R.MOTn_VSTART n), a1 := s.get (F.MOTn_A1_RATE n), vbreak := s.spd (R.MOTn_VBREAK n),
    a2 := s.get (F.MOTn_A2_RATE n), veff := Nat.min top (speedCap s.period), d2 := s.get (F.MOTn_D2_RATE n),
    d1 := s.get (F.MOTn_D1_RATE n), vstop := s.spd (R.MOTn_VSTOP n), c := s.period, len := s.modulo n,
    modDir := s.get (F.MOTn_MODE_MOD_DIR n) }

/-- The enforced soft limits (R107): none on a modulo axis, without SOFT_EN or without HOMED. -/
def State.softLimits (s : State) (n : Nat) : Option (Int × Int) :=
  if s.flag (F.MOTn_MODE_SOFT_EN n) ∧ s.flag (F.MOTn_STATUS_HOMED n) ∧ s.modulo n = 0 then
    some (s.wideS 48 (R.MOTn_SOFT_MIN n), s.wideS 48 (R.MOTn_SOFT_MAX n))
  else none

/-- The integer part of x (R78). -/
def State.pos (s : State) (n : Nat) : Int := intPart (s.ax n).kin.x

/-- Is axis `n` disarmed or at standstill as last published, with no motion command taken since (R90, R97)? -/
def State.atRest (s : State) (n : Nat) : Bool :=
  decide (s.get (F.MOTn_STATUS_STATE n) ≤ 1) && !(s.ax n).cmdTaken

/-- Store MOTn_TARGET. -/
def State.setTarget (s : State) (n : Nat) (v : Int) : State := s.putWideS 48 (R.MOTn_TARGET n) v

/-- The result of a command; a refusal raises CMD_REFUSED. -/
def State.motResult (s : State) (n cmd code : Nat) : State :=
  ((s.put (F.MOTn_RESULT_CMD n) cmd).put (F.MOTn_RESULT_CODE n) code).raiseIf (decide (code ≠ 0)) (evMot n 9)

/-! ## Stops (R98 to R101) -/

/-- The order in which causes of one frame are taken as the first (R100): FAULT, LIMIT, POWER, RING, HOST. -/
def causeOrder : List Nat := [3, 2, 5, 4, 1]

/-- POS_UNCERTAIN by a stop (R98, R101). -/
def State.stopUncertain (s : State) (n : Nat) : State :=
  ((s.put (F.MOTn_STATUS_POS_UNCERTAIN n) 1).put (F.MOTn_STOP_CAUSE_UNCERTAIN n) 1).raise (evMot n 6)

/-- Disengage the gear (R119): an armed or blending change is dropped and the old ratio stays. -/
def State.disengage (s : State) (n : Nat) : State :=
  (((((s.put (F.MOTn_GEAR_STATUS_ENGAGED n) 0).put (F.MOTn_GEAR_STATUS_LOCKED n) 0).put
    (F.MOTn_GEAR_STATUS_SYNCING n) 0).put (F.MOTn_GEAR_STATUS_CHG_ARMED n) 0).put
    (F.MOTn_GEAR_STATUS_BLENDING n) 0).put (F.MOTn_GEAR_CTRL_CHG_ARM n) 0

/-- Is the style of a cause immediate? The HOME_TRAVEL stop is ramped whatever the FAULT style (R109). -/
def State.immediateCause (s : State) (n : Nat) (c : Nat × Nat) : Bool :=
  s.flag ⟨R.MOTn_STOP_STYLE n, c.1 - 1, 1⟩ && !decide (c = (3, 6))

/-- End a homing run without its reference (R109). -/
def State.homeFailed (s : State) (n : Nat) : State :=
  if (s.ax n).home.isSome then (s.modAx n fun a => { a with home := none, hist := [] }).raise (evMot n 5) else s

/-- MASK bits of a list of causes. -/
def causeMask (cs : List (Nat × Nat)) : Nat := cs.foldl (fun m c => m ||| 2 ^ (c.1 - 1)) 0

/-- The first cause and its detail (R100). -/
def firstCause (cs : List (Nat × Nat)) : Nat × Nat :=
  match (causeOrder.filterMap fun k => cs.find? fun c => decide (c.1 = k)) with
  | c :: _ => c
  | [] => (0, 0)

/-- Write MOTn_STOP_CAUSE as a stop begins (R100). -/
def State.writeCause (s : State) (n : Nat) (cs : List (Nat × Nat)) (imm : Bool) : State :=
  let f := firstCause cs
  s.wr (R.MOTn_STOP_CAUSE n)
    (BitVec.ofNat 32 (causeMask cs * 2 ^ 16 + b2n imm * 2 ^ 8 + f.1 * 2 ^ 4 + f.2))

/-- OR later causes into the mask of the same stop (R100). -/
def State.addCauses (s : State) (n : Nat) (cs : List (Nat × Nat)) : State :=
  s.put (F.MOTn_STOP_CAUSE_MASK n) (s.get (F.MOTn_STOP_CAUSE_MASK n) ||| causeMask cs)

/-- The causes that one frame brings (R98 to R102, R109, R119); `force` makes the stop immediate whatever its style. -/
def State.stopWith (s : State) (n : Nat) (cs : List (Nat × Nat)) (force : Bool) : State :=
  if cs.isEmpty then s
  else
    let imm := force || cs.any (s.immediateCause n)
    let s1 := s.when (cs.any fun c => decide (c.1 = 3)) fun s => s.put (F.MOTn_STATUS_FAULT_LATCH n) 1
    let s2 := (s1.homeFailed n).disengage n
    let s3 := s2.modAx n fun a => { a with run := false, followOff := true }
    let a := s3.ax n
    if a.armed ∧ a.stopOpen then
      let s4 := s3.addCauses n cs
      if imm ∧ a.ramping then
        (s4.put (F.MOTn_STOP_CAUSE_IMMEDIATE n) 1).modAx n fun a => { a with ramping := false, imm := true }
      else s4
    else
      let s4 := s3.writeCause n cs imm
      let first := (firstCause cs).1
      s4.modAx n fun a =>
        { a with stopOpen := a.armed, imm := a.armed && imm, ramping := a.armed && !imm, softAim := none,
                 propagate := a.propagate || decide (first = 2 ∨ first = 3) }

/-- A cause for the next input latch. -/
def State.cause (s : State) (n c d : Nat) : State := s.modAx n fun a => { a with causes := a.causes ++ [(c, d)] }

/-- A cause for every armed axis of a list. -/
def State.causeAll (s : State) (l : List Nat) (c d : Nat) : State :=
  l.foldl (fun s n => if s.armed n then s.cause n c d else s) s

/-- Take an axis out of motion at once: the motion part of a disarm (R95, R101). `unc`: the stop sets
POS_UNCERTAIN. -/
def State.disarmMotion (s : State) (n : Nat) : State :=
  let s1 := s.modAx n fun a =>
    { a with armed := false, kin := { a.kin with v := 0, decel := false, seg := 0 }, run := false, still := false,
             stopOpen := false, ramping := false, imm := false, softAim := none, cal := none }
  (((s1.put (F.MOTn_STATUS_STATE n) 0).put (F.MOTn_STATUS_SEG n) 0).put (F.MOTn_STATUS_STANDSTILL n) 0).disengage n

/-- The immediate stop that a disarm begins with (R95, R101). -/
def State.disarmStop (s : State) (n c d : Nat) (unc : Bool) : State :=
  let s1 := (s.when (decide (c = 3)) fun s => s.put (F.MOTn_STATUS_FAULT_LATCH n) 1).homeFailed n
  let s2 := if (s1.ax n).stopOpen then (s1.addCauses n [(c, d)]).put (F.MOTn_STOP_CAUSE_IMMEDIATE n) 1
    else s1.writeCause n [(c, d)] true
  let s3 := s2.modAx n fun a => { a with followOff := true, propagate := a.propagate || decide (c = 3) }
  s3.when unc fun s => s.stopUncertain n

/-! ## The judgement of motion commands (R442) -/

/-- The motion commands. -/
inductive MotionCmd where
  | target (v : Int)
  | vtarget (v : Int)
  | start
  | home
deriving DecidableEq, Repr

/-- Is the master of the gear valid (R117, R126, R248)? -/
def State.masterOk (s : State) (n : Nat) (routed : Bool) : Bool :=
  match s.get (F.MOTn_GEAR_CFG_SRC n) with
  | 0 => routed && !s.flag (F.FBKn_STATUS_FAULT n)
  | 1 => !(s.flag (F.MOTn_GEAR_CFG_AXSEL n) && s.flag (F.FBKn_STATUS_FAULT (s.get (F.MOTn_GEAR_CFG_AXIS n))))
  | _ => (s.herds.toList[s.get (F.MOTn_GEAR_CFG_HERD_IDX n)]?.map (·.ok)).getD false

/-- The direction of a commanded motion: negative, none or positive. -/
def State.motionDir (s : State) (n : Nat) (c : MotionCmd) : Int :=
  let toPos := fun (v : Int) =>
    if v * fx = (s.ax n).kin.x then (0 : Int) else if (s.ramp n).dirTo (s.ax n).kin.x (v * fx) then 1 else -1
  match c with
  | .target v => toPos v
  | .vtarget v => v.sign
  | .home => if s.flag (F.MOTn_HOME_CFG_DIR n) then 1 else -1
  | .start =>
    match s.mode n with
    | 0 => toPos (s.target n)
    | 1 => (s.wideS 40 (R.MOTn_VTARGET n)).sign
    | _ => 0

/-- Does the target of a command lie outside the enforced soft limits, or the motion lead further out (R107)? -/
def State.softBad (s : State) (n : Nat) (c : MotionCmd) : Bool :=
  match s.softLimits n with
  | none => false
  | some (lo, hi) =>
    let outside := fun (v : Int) => decide (v < lo ∨ hi < v)
    let further := fun (d : Int) => decide ((0 < d ∧ hi ≤ s.pos n) ∨ (d < 0 ∧ s.pos n ≤ lo))
    match c with
    | .target v => outside v
    | .vtarget v => further v
    | .home => false
    | .start =>
      match s.mode n with
      | 0 => outside (s.target n)
      | 1 => further (s.wideS 40 (R.MOTn_VTARGET n))
      | _ => false

/-- Is a rate or a speed 0, or a homing parameter not valid (R83, R265)? -/
def State.paramBad (s : State) (n : Nat) (c : MotionCmd) : Bool :=
  decide (s.get (F.MOTn_A1_RATE n) = 0 ∨ s.get (F.MOTn_A2_RATE n) = 0 ∨ s.get (F.MOTn_D1_RATE n) = 0 ∨
    s.get (F.MOTn_D2_RATE n) = 0 ∨ s.wide 40 (R.MOTn_VMAX n) = 0) ||
  (decide (c = .home) && (decide (s.wide 40 (R.MOTn_HOME_VEL n) = 0) ||
    (decide (s.get (F.MOTn_HOME_CFG_METHOD n) = 4) &&
      (!s.flag (F.OBSn_CFG_EN n) || !(s.flag (F.OBSn_CFG_ANGLE_EN n) || s.flag (F.OBSn_CFG_EMF_EN n)) ||
        decide (s.wide 40 (R.MOTn_HOME_VEL n) < 256 * s.get (F.OBSn_VMIN_SPEED n))))))

/-- Does the mode allow the command (R102, R108, R117)? -/
def State.modeAllows (s : State) (n : Nat) (c : MotionCmd) (routed : Bool) : Bool :=
  match c with
  | .target _ => decide (s.mode n = 0)
  | .vtarget _ => decide (s.mode n = 1)
  | .home => decide (s.mode n ≤ 1)
  | .start => decide (s.mode n ≠ 3) || s.masterOk n routed

/-- The first refusal that applies to a motion command on an axis (R442); 8 while ENC_CAL runs (R38). -/
def State.motionCode (s : State) (n : Nat) (c : MotionCmd) (routed : Bool) : Nat :=
  let a := s.ax n
  let d := s.motionDir n c
  let refIn := decide (c = .home) && decide (s.get (F.MOTn_HOME_CFG_METHOD n) = 1)
  if !a.armed || a.stopOpen || a.home.isSome || !s.modeAllows n c routed then 1
  else if a.cal.isSome then 8
  else if s.flag (F.MOTn_STATUS_FAULT_LATCH n) then 5
  else if s.paramBad n c then 4
  else if (match c with
      | .target v => decide (s.modulo n ≠ 0 ∧ (v < 0 ∨ (s.modulo n : Int) ≤ v))
      | _ => false) then 0xB
  else if s.softBad n c then 3
  else if !refIn && ((decide (0 < d) && s.flag (F.MOTn_STATUS_LIM_P_LATCH n)) ||
      (decide (d < 0) && s.flag (F.MOTn_STATUS_LIM_N_LATCH n))) then 2
  else 0

/-- The check of a TARGET write that is no motion command: R82 and R107 only (R442). -/
def State.targetCode (s : State) (n : Nat) (v : Int) : Nat :=
  if s.modulo n ≠ 0 ∧ (v < 0 ∨ (s.modulo n : Int) ≤ v) then 0xB
  else if s.softBad n (.target v) then 3
  else 0

/-! ## Commands of chapter 3 -/

/-- A TARGET write (R89, R442). -/
def targetWrite (n : Nat) (v : Int) (s : State) : State :=
  if s.mode n = 0 ∧ s.armed n then
    let code := s.motionCode n (.target v) false
    if code = 0 then
      ((s.setTarget n v).modAx n fun a =>
        { a with run := true, cmdTaken := a.cmdTaken || decide (v * fx ≠ a.kin.x) }).motResult n 0xF0 0
    else s.motResult n 0xF0 code
  else
    let code := s.targetCode n v
    (if code = 0 then s.setTarget n v else s).motResult n 0xF0 code

/-- A VTARGET write (R91, R442). -/
def vtargetWrite (n : Nat) (v : Int) (s : State) : State :=
  if s.mode n = 1 ∧ s.armed n then
    let code := s.motionCode n (.vtarget v) false
    if code = 0 then
      ((s.putWideS 40 (R.MOTn_VTARGET n) v).modAx n fun a =>
        { a with run := true, cmdTaken := a.cmdTaken || decide (v ≠ 0) }).motResult n 0xF1 0
    else s.motResult n 0xF1 code
  else (s.putWideS 40 (R.MOTn_VTARGET n) v).motResult n 0xF1 0

/-- Put the axis at a position with TARGET beside it: x, the output of the last frame and MOTn_POS. -/
def State.placeAt (s : State) (n : Nat) (v : Int) : State :=
  let x := (s.ramp n).wrap (v * fx)
  ((s.modAx n fun a => { a with kin := { a.kin with x := x }, xOut := x }).setTarget n (intPart x)).putWideS 48
    (R.MOTn_POS n) (intPart x)

/-- A POS write (R97): accepted while the axis is disarmed or at standstill. -/
def posWrite (n : Nat) (v : Int) (s : State) : Bool × State :=
  if s.atRest n ∧ !(s.ax n).cal.isSome then
    (true, ((s.placeAt n v).put (F.MOTn_STATUS_POS_UNCERTAIN n) 0).motResult n 0xF2 0)
  else (false, s.motResult n 0xF2 (if (s.ax n).cal.isSome then 8 else 1))

/-- Does the word leave every field of MOTn_MODE as it is? -/
def State.modeSame (s : State) (n : Nat) (w : Word) : Bool :=
  decide (bitsOf w 0 3 = s.mode n ∧ bitsOf w 4 2 = s.get (F.MOTn_MODE_MOD_DIR n) ∧
    bitsOf w 8 1 = s.get (F.MOTn_MODE_SOFT_EN n))

/-- The judgement of a MODE write on its port (R90, R11, R439). -/
def State.modePort (s : State) (n : Nat) (w : Word) : Bool :=
  decide (bitsOf w 0 3 ≤ 3 ∧ bitsOf w 4 2 ≠ 3) && (s.modeSame n w || decide (s.get (F.MOTn_STATUS_STATE n) ≤ 1))

/-- A MODE write at the latch (R90): dropped where a command of the same latch has left the axis not at standstill. -/
def modeApply (n : Nat) (w : Word) (s : State) : State :=
  if s.modeSame n w then s.motResult n 0xF3 0
  else if s.atRest n then
    let s1 := ((s.put (F.MOTn_MODE_MODE n) (bitsOf w 0 3)).put (F.MOTn_MODE_MOD_DIR n) (bitsOf w 4 2)).put
      (F.MOTn_MODE_SOFT_EN n) (bitsOf w 8 1)
    let s2 := if bitsOf w 0 3 = s.mode n then s1
      else ((s1.setTarget n (s.pos n)).disengage n).modAx n fun a => { a with run := false }
    s2.motResult n 0xF3 0
  else s.motResult n 0xF3 1

/-- A MODE write: the port's judgement, then the latch's. -/
def modeWrite (n : Nat) (w : Word) (s : State) : Bool × State :=
  if s.modePort n w then (true, modeApply n w s)
  else (false, s.when (decide (bitsOf w 0 3 ≤ 3 ∧ bitsOf w 4 2 ≠ 3)) fun s => s.motResult n 0xF3 1)

/-- STOP (R99): its cause is taken at the latch. -/
def stopCmd (p : Path) (n : Nat) (s : State) : State :=
  (s.cause n (match p with
    | .ring _ _ => 4
    | _ => 1) 0).motResult n 3 0

/-- START (R102, R117). -/
def startCmd (n : Nat) (routed : Bool) (s : State) : State :=
  if s.flag (F.MOTn_GEAR_STATUS_ENGAGED n) ∧ s.mode n = 3 ∧ !(s.ax n).stopOpen then s.motResult n 4 0
  else
    let code := s.motionCode n .start routed
    if code ≠ 0 then s.motResult n 4 code
    else
      let d := s.motionDir n .start
      let s1 := s.modAx n fun a =>
        { a with run := true, followOff := false, cmdTaken := a.cmdTaken || decide (d ≠ 0) }
      let s2 :=
        if s.mode n = 3 then
          let t := (s1.put (F.MOTn_GEAR_STATUS_ENGAGED n) 1).modAx n fun a =>
            { a with gear := { a.gear with rem := 0 }, cmdTaken := true }
          if s.get (F.MOTn_GEAR_CFG_ENGAGE n) = 0 then
            (t.put (F.MOTn_GEAR_STATUS_LOCKED n) 1).raise (evGear n 2)
          else t.put (F.MOTn_GEAR_STATUS_SYNCING n) 1
        else s1
      s2.motResult n 4 0

/-- The debounced level of the reference switch of a method. -/
def State.refSwitch (s : State) (n : Nat) : Bool :=
  if s.get (F.MOTn_HOME_CFG_METHOD n) = 1 then
    (if s.flag (F.MOTn_HOME_CFG_DIR n) then s.flag (F.MOTn_STATUS_LIM_P_IN n) else s.flag (F.MOTn_STATUS_LIM_N_IN n))
  else s.flag (F.MOTn_STATUS_HOME_IN n)

/-- HOME (R108, R109). -/
def homeCmd (n : Nat) (s : State) : State :=
  let code := s.motionCode n .home false
  if code ≠ 0 then s.motResult n 5 code
  else
    let m := s.get (F.MOTn_HOME_CFG_METHOD n)
    let s1 := s.put (F.MOTn_STATUS_HOMED n) 0
    let s2 := if m = 1 then
        s1.put (if s.flag (F.MOTn_HOME_CFG_DIR n) then F.MOTn_STATUS_LIM_P_LATCH n else F.MOTn_STATUS_LIM_N_LATCH n) 0
      else s1
    let ph : HomePhase := if m ≤ 2 ∧ s.refSwitch n then .away else .search
    (s2.modAx n fun a =>
      { a with home := some ⟨ph, 0, 0, 0⟩, hist := [], index := none, stall := false, run := false,
               cmdTaken := true }).motResult n 5 0

/-- CLEAR_LIMIT (R106). -/
def clearLimit (n : Nat) (s : State) : State :=
  let held := fun (l i : Fld) => s.flag l && s.flag i
  let p := held (F.MOTn_STATUS_LIM_P_LATCH n) (F.MOTn_STATUS_LIM_P_IN n)
  let m := held (F.MOTn_STATUS_LIM_N_LATCH n) (F.MOTn_STATUS_LIM_N_IN n)
  (((s.putB (F.MOTn_STATUS_LIM_P_LATCH n) p).putB (F.MOTn_STATUS_LIM_N_LATCH n) m)).motResult n 6
    (if p || m then 2 else 0)

/-- CLEAR_FAULT (R102). -/
def clearFault (n : Nat) (s : State) : State := (s.put (F.MOTn_STATUS_FAULT_LATCH n) 0).motResult n 7 0

/-- CLEAR_UNCERTAIN (R103). -/
def clearUncertain (n : Nat) (s : State) : State := (s.put (F.MOTn_STATUS_POS_UNCERTAIN n) 0).motResult n 8 0

/-! ## Inputs (R92, R104, R105) -/

/-- A counted STEP edge waits for the latch (R92); one that EDGE does not select does not count. -/
def stepEdge (n : Nat) (rising up : Bool) (s : State) : State :=
  if rising ∨ s.flag (F.MOTn_FOLLOW_CFG_EDGE n) then s.modAx n fun a => { a with edges := a.edges ++ [up] } else s

/-- The status bit of a debounced input. -/
def inputFld (n : Nat) : LimitInput → Fld
  | .pos => F.MOTn_STATUS_LIM_P_IN n
  | .neg => F.MOTn_STATUS_LIM_N_IN n
  | .home => F.MOTn_STATUS_HOME_IN n

/-- A debounced level changes `cyc` cycles after the last frame start (R104): the level is shown at once, and the change
waits for the latch with the time of the first sample of the new level, in whole microseconds. With DEBOUNCE = 0 the level
is the sample at the latch: a change is shown there, and one that the input takes back before the latch is not seen. -/
def limitDebounced (n : Nat) (i : LimitInput) (level : Bool) (cyc : Nat) (s : State) : State :=
  let d := s.get (F.MOTn_LIMIT_CFG_DEBOUNCE n)
  let first : Int := (((s.now + cyc : Nat) : Int) - (d * 4000 : Nat)) / 400 * 400
  if d = 0 then
    s.modAx n fun a =>
      { a with chg := (a.chg.filter fun c => decide (c.1 ≠ i)) ++
                 (if s.flag (inputFld n i) = level then [] else [(i, level, first)]) }
  else (s.putB (inputFld n i) level).modAx n fun a => { a with chg := a.chg ++ [(i, level, first)] }

/-- The latch samples the inputs: the levels of the changes that wait are shown (R104). -/
def State.sampleInputs (s : State) (n : Nat) : State :=
  (s.ax n).chg.foldl (fun s c => s.putB (inputFld n c.1) c.2.1) s

/-- The captured position is stored and the run makes its stop (R108 step 3). -/
def State.capture (s : State) (n : Nat) (t : Int) (ph : HomePhase) : State :=
  let a := s.ax n
  (s.putWideS 48 (R.MOTn_LATCH n) (trajectory (s.ramp n) a.hist a.kin.fwd t)).modAx n fun a =>
    { a with home := a.home.map fun h => { h with phase := ph, refTime := t } }

/-- Is the input the reference of the running method (Table 3.6)? -/
def State.isReference (s : State) (n : Nat) (i : LimitInput) (level : Bool) : Bool :=
  match s.get (F.MOTn_HOME_CFG_METHOD n) with
  | 0 => decide (i = .home) && (level != s.flag (F.MOTn_HOME_CFG_EDGE n))
  | 2 => decide (i = .home) && (level != s.flag (F.MOTn_HOME_CFG_EDGE n))
  | 1 => level && decide (i = if s.flag (F.MOTn_HOME_CFG_DIR n) then LimitInput.pos else .neg)
  | _ => false

/-- The search direction's limit of method 1 does not trip during a run (R109). -/
def State.limitExempt (s : State) (n : Nat) (i : LimitInput) : Bool :=
  (s.ax n).home.isSome && decide (s.get (F.MOTn_HOME_CFG_METHOD n) = 1) &&
    decide (i = if s.flag (F.MOTn_HOME_CFG_DIR n) then LimitInput.pos else .neg)

/-- An enabled limit becomes active on an armed axis (R105). -/
def State.limitTrip (s : State) (n : Nat) (i : LimitInput) : State :=
  let go := fun (en latch : Fld) (d : Nat) =>
    if s.armed n ∧ s.flag en ∧ !s.flag latch ∧ !s.limitExempt n i then
      ((s.put latch 1).cause n 2 d).raise (evMot n 2)
    else s
  match i with
  | .pos => go (F.MOTn_LIMIT_CFG_P_EN n) (F.MOTn_STATUS_LIM_P_LATCH n) 0
  | .neg => go (F.MOTn_LIMIT_CFG_N_EN n) (F.MOTn_STATUS_LIM_N_LATCH n) 1
  | .home => s

/-- The phase of a homing run. -/
def State.homePhase (s : State) (n : Nat) : Option HomePhase := (s.ax n).home.map (·.phase)

/-- The debounced changes that the latch sees: trips and switch references. -/
def State.latchInputs (s : State) (n : Nat) : State :=
  let l := (s.ax n).chg
  let s0 := s.modAx n fun a => { a with chg := [] }
  l.foldl (fun s c =>
    let s1 := if c.2.1 then s.limitTrip n c.1 else s
    if s1.homePhase n = some .search ∧ s1.isReference n c.1 c.2.1 then
      s1.capture n c.2.2 (if s1.get (F.MOTn_HOME_CFG_METHOD n) = 2 then .indexWait else .stopping)
    else s1) s0

/-! ## Homing at the latch (R108, R109) -/

/-- The end of a homing run (R108 step 6). -/
def State.homeDone (s : State) (n : Nat) : State :=
  ((((s.modAx n fun a => { a with home := none, hist := [] }).put (F.MOTn_STATUS_HOMED n) 1).put
    (F.MOTn_STATUS_POS_UNCERTAIN n) 0)).raise (evMot n 4)

/-- The next phase of a homing run as the latch finds it: the switch released, an index pulse, a stall, the bound of the
search, standstill. -/
def State.homeLatch (s : State) (n : Nat) : State :=
  let a := s.ax n
  let m := s.get (F.MOTn_HOME_CFG_METHOD n)
  let up := s.flag (F.MOTn_HOME_CFG_DIR n)
  let still := s.flag (F.MOTn_STATUS_STANDSTILL n)
  match a.home with
  | none => s.modAx n fun a => { a with index := none }
  | some h =>
    let s0 := s.modAx n fun a => { a with index := none }
    match h.phase with
    | .away =>
      if s.refSwitch n then s0
      else s0.modAx n fun a => { a with home := some { h with phase := .search, travel := 0 } }
    | .search =>
      let bound := s.get (F.MOTn_HOME_TRAVEL_TRAVEL n)
      if bound ≠ 0 ∧ bound * fx < h.travel then s0.cause n 3 6
      else
        match m, a.index with
        | 3, some t => s0.capture n t .stopping
        | 4, _ =>
          if a.stall then
            ((s0.putWideS 48 (R.MOTn_LATCH n) (s.pos n)).modAx n fun a =>
              { a with imm := true, home := some { h with phase := .stopping } })
          else s0
        | _, _ => s0
    | .indexWait =>
      let bound := s.get (F.MOTn_HOME_TRAVEL_TRAVEL n)
      match a.index with
      | some t => if h.refTime ≤ t then s0.capture n t .stopping else s0
      | none => if bound ≠ 0 ∧ bound * fx < h.travel then s0.cause n 3 6 else s0
    | .stopping =>
      if still then
        let r := s.ramp n
        let off := s.wideS 48 (R.MOTn_HOME_OFFSET n)
        let x := r.wrap (a.kin.x + (off - s.wideS 48 (R.MOTn_LATCH n)) * fx)
        let s1 := s0.modAx n fun a => { a with kin := { a.kin with x := x }, xOut := x }
        let back : Int := s.get (F.MOTn_HOME_BACKOFF_BACKOFF n)
        if back = 0 then s1.homeDone n
        else
          let aim := r.wrap ((if up then off - back else off + back) * fx)
          s1.modAx n fun a => { a with home := some { h with phase := .backoff, aim := aim } }
      else s0
    | .backoff => if still ∧ a.kin.x = h.aim then s0.homeDone n else s0

/-! ## Publication at the output stage (R78, R80, R96, R107) -/

/-- MOTn_STATUS, MOTn_POS and MOTn_VEL as the output stage publishes them; a stop that has reached standstill raises
STOPPED. -/
def State.publishMot (s : State) (n : Nat) : State :=
  let a := s.ax n
  let still := a.armed && a.still
  let done := still && a.stopOpen
  let s1 := s.modAx n fun a =>
    { a with cmdTaken := false, stopOpen := a.stopOpen && !done, ramping := a.ramping && !done }
  let st := if !a.armed then 0 else if a.home.isSome then 4 else if a.stopOpen && !done then 3
    else if still then 1 else 2
  let s2 := ((((s1.put (F.MOTn_STATUS_STATE n) st).put (F.MOTn_STATUS_SEG n) (if a.armed then a.kin.seg else 0)).putB
    (F.MOTn_STATUS_DIR n) a.kin.fwd).putB (F.MOTn_STATUS_STANDSTILL n) still).putB (F.MOTn_STATUS_AT_TARGET n)
    (decide (s.mode n = 0) && decide (a.kin.x = s.target n * fx))
  let s3 := (s2.putB (F.MOTn_STATUS_SOFT_ACTIVE n) (s.softLimits n).isSome).putB (F.MOTn_STATUS_VCLAMP n)
    (decide (speedCap s.period < s.spd (R.MOTn_VMAX n)))
  let s4 := (s3.putWideS 48 (R.MOTn_POS n) (intPart a.kin.x)).putWideS 40 (R.MOTn_VEL n) a.kin.velQ
  s4.raiseIf done (evMot n 1)

end Sys2Proof.Machine
end

