-- ==== Sys2Proof/Machine/Owner.lean ====
section
/-!
DEFINITION. Which partition owns a register, a data-memory word, a sink, a source (Table 2.1).
-/
namespace Sys2Proof.Machine

/-- The partition that owns the register at offset `a`: 0 to 7 an axis, 8 the device (Table 2.1). -/
def ownerOf (a : Nat) : Nat :=
  if 0x1000 ≤ a ∧ a < 0x2000 then (a - 0x1000) / 0x200
  else if 0x2000 ≤ a ∧ a < 0x2800 then (a - 0x2000) / 0x100
  else if 0x2800 ≤ a ∧ a < 0x2C00 then (a - 0x2800) / 0x80
  else if 0x3000 ≤ a ∧ a < 0x3200 then (a - 0x3000) / 0x40
  else if a = R.GDR_GUARDn 0 ∨ a = R.GDR_GUARDn 1 then (a - R.GDR_GUARDn 0) / 4
  else if 0x3400 ≤ a ∧ a < 0x3600 then (a - 0x3400) / 0x40
  else if 0x3600 ≤ a ∧ a < 0x3800 then (a - 0x3600) / 0x40
  else if 0x3810 ≤ a ∧ a < 0x3830 then (a - 0x3810) / 4
  else if 0x4000 ≤ a ∧ a < 0x4200 then (a - 0x4000) / 0x40
  else if 0x4400 ≤ a ∧ a < 0x4800 then (a - 0x4400) / 0x80
  else if 0x4800 ≤ a ∧ a < 0x4C00 then (a - 0x4800) / 0x80
  else 8

/-- The partition that owns a data-memory word. -/
def dmemOwner (w : Nat) : Nat := if w < 0x3000 then w / 0x600 else 8

/-- Is the word in the export region of its axis partition (R59)? -/
def isExport (w : Nat) : Bool := decide (w < 0x3000 ∧ w % 0x600 < 64)

/-- May partition `p` read the data-memory word (R59)? -/
def mayRead (p w : Nat) : Bool := decide (dmemOwner w = p ∨ dmemOwner w = 8) || isExport w

/-- The partition whose flag it is: 0 to 7, 8 for the device-wide flags. -/
def flagOwner (f : Nat) : Nat := if f < 256 then f / 32 else 8

/-- Kinds of fabric sources (Table 2.7). -/
inductive SrcKind where
  | analogue
  | digital
  | position
deriving DecidableEq, Repr

/-- The kind and the owner of a source code; none for an undefined code. Constants belong to everyone: the device. -/
def sourceInfo (c : Nat) : Option (SrcKind × Nat) :=
  if c < 16 then some (.analogue, c / 2)
  else if c < 32 then some (.analogue, (c - 16) / 2)
  else if 0x100 ≤ c ∧ c < 0x120 then some (.digital, (c - 0x100) / 4)
  else if 0x120 ≤ c ∧ c < 0x128 then some (.digital, 8)
  else if 0x200 ≤ c ∧ c < 0x228 then some (.digital, c % 8)
  else if 0x228 ≤ c ∧ c < 0x232 then some (.digital, 8)
  else if 0x240 ≤ c ∧ c < 0x258 then some (.digital, c % 8)
  else if 0x300 ≤ c ∧ c < 0x308 then some (.digital, 8)
  else if 0x400 ≤ c ∧ c < 0x440 then some (.digital, (c - 0x400) / 8)
  else if 0x500 ≤ c ∧ c < 0x520 then some (.digital, 8)
  else if 0x600 ≤ c ∧ c < 0x640 then some (.digital, 8)
  else if 0x700 ≤ c ∧ c < 0x708 then some (.position, c - 0x700)
  else if 0x708 ≤ c ∧ c < 0x718 then some (.digital, c % 8)
  else if c = 0xFFE ∨ c = 0xFFF then some (.digital, 8)
  else none

/-- Is the source an auxiliary PWM channel? -/
def isAuxSrc (c : Nat) : Bool := decide (0x300 ≤ c ∧ c < 0x308)

/-- A shared sink takes routes from every partition (R45). -/
def sharedSink (k : Nat) : Bool := decide (k = 0x208 ∨ k = 0x600 ∨ k = 0x601)

/-- The owner of a sink and how many routes it takes (Tables 2.1, 2.8); none for an undefined code. -/
def sinkInfo (k : Nat) : Option (Nat × Nat) :=
  if k < 0x10 then some (k / 2, 1)
  else if 0x10 ≤ k ∧ k < 0x20 then some (k % 8, 1)
  else if 0x120 ≤ k ∧ k < 0x128 then some (8, 1)
  else if 0x140 ≤ k ∧ k < 0x160 then some ((k - 0x140) / 4, 1)
  else if 0x160 ≤ k ∧ k < 0x168 then some (8, 1)
  else if 0x200 ≤ k ∧ k < 0x208 then some (k % 8, 8)
  else if sharedSink k then some (8, 8)
  else if 0x240 ≤ k ∧ k < 0x280 then some ((k - 0x240) / 8, 1)
  else if 0x300 ≤ k ∧ k < 0x330 then some (k % 8, 1)
  else if 0x400 ≤ k ∧ k < 0x438 then some (k % 8, 1)
  else if 0x500 ≤ k ∧ k < 0x509 then some (8, 1)
  else if 0x510 ≤ k ∧ k < 0x518 then some (k % 8, 1)
  else none

/-- Does the sink accept the source (Table 2.8)? -/
def sinkAccepts (k c : Nat) (kind : SrcKind) : Bool :=
  if k < 0x10 then decide (c = k)
  else if k < 0x20 then decide (16 ≤ c ∧ c < 32)
  else if 0x120 ≤ k ∧ k < 0x128 then decide (kind = .analogue)
  else if 0x140 ≤ k ∧ k < 0x168 then isAuxSrc c
  else if 0x240 ≤ k ∧ k < 0x280 then isAuxSrc c
  else if 0x328 ≤ k ∧ k < 0x330 then decide (kind = .position)
  else if 0x510 ≤ k ∧ k < 0x518 then decide (c = 0x710 + (k - 0x510))
  else decide (kind = .digital)

/-- The routes of all partitions to a sink. -/
def State.routesTo (s : State) (k : Nat) : List Route :=
  s.cfg.run.parts.flatMap fun p => p.routes.filter fun r => decide (r.sink = k)

/-- Is the sink routed? -/
def State.routed (s : State) (k : Nat) : Bool := !(s.routesTo k).isEmpty

end Sys2Proof.Machine
end

