-- ==== Sys2Proof/Machine/Gear.lean ====
section
/-!
DEFINITION. Electronic gearing (R112 to R121), the slave side of herds (R122 to R126) and timed commands (R129 to R133).
-/
namespace Sys2Proof.Machine

/-! ## The master estimate -/

/-- Is the gearing master sink 0x328 + n routed? -/
def State.masterRouted (s : State) (n : Nat) : Bool := s.routed (0x328 + n)

/-- A wide value of the exported words of axis `a` (Table 4.2), as the end of the previous frame left them. -/
def State.exported (s : State) (a w : Nat) : Nat :=
  (SMap.get (fun _ => (0 : Word)) s.frm.exports (a * 0x600 + w)).toNat

/-- The exported position and velocity of the master axis: commanded, or feedback with AXSEL = 1. -/
def State.axisMaster (s : State) (n : Nat) : Int × Int :=
  let a := s.get (F.MOTn_GEAR_CFG_AXIS n)
  let o := if s.flag (F.MOTn_GEAR_CFG_AXSEL n) then 4 else 0
  (sext 48 (s.exported a o + 2 ^ 32 * (s.exported a (o + 1) % 2 ^ 16)),
   sext 40 (s.exported a (o + 2) + 2 ^ 32 * (s.exported a (o + 3) % 2 ^ 8)))

/-- The membership that an axis uses as its master. -/
def State.herdOf (s : State) (n : Nat) : Option Herd := s.herds.toList[s.get (F.MOTn_GEAR_CFG_HERD_IDX n)]?

/-- A Q32.8 velocity over `h` half nanoseconds, rounded toward minus infinity. -/
def velOver (vel h : Int) : Int := vel * h / (256 * 2000000000)

/-- The frame period in half nanoseconds. -/
def State.periodH (s : State) : Int := 5 * (s.period : Int)

/-- PREDICT. -/
def State.predict (s : State) (n : Nat) : Int := s.get (F.MOTn_GEAR_CFG_PREDICT n)

/-- The estimate of a record for this frame (R125). -/
def State.recordEstimate (s : State) (n : Nat) (r : MRec) : Int :=
  r.pos + velOver r.vel ((s.net.timeH : Int) + s.predict n * s.periodH - 2 * (r.time : Int))

/-- K = cycle / T (R125). -/
def State.spreadFrames (s : State) : Nat := 2 * s.get F.NET_CYCLE_LEN / (5 * s.period)

/-- The master's velocity in Q32.8 (Table 4.1). -/
def State.masterVel (s : State) (n : Nat) : Int :=
  match s.get (F.MOTn_GEAR_CFG_SRC n) with
  | 0 => s.wideS 40 (R.FBKn_SPEED n)
  | 1 => (s.axisMaster n).2
  | _ => ((s.herdOf n).bind (·.cur)).elim 0 (·.vel)

/-- A new record's difference to the old one's estimate for this frame (R125): it is spread over K frames; beyond
JUMP_MAX it raises MASTER_JUMP and an engaged axis stops with cause RING. -/
def State.herdCorrection (s : State) (n : Nat) (h : Herd) : State :=
  if (s.ax n).gear.recNo = h.count then
    s.modAx n fun a => { a with gear := { a.gear with corrAge := a.gear.corrAge + 1 } }
  else
    let e := match h.prev, h.cur with
      | some p, some c => s.recordEstimate n p - s.recordEstimate n c
      | _, _ => 0
    let lim := s.get (F.MOTn_GEAR_JUMP_MAX_LIMIT n)
    let s1 := s.modAx n fun a => { a with gear := { a.gear with recNo := h.count, corr := e, corrAge := 1 } }
    if lim ≠ 0 ∧ lim < e.natAbs then
      (if s.flag (F.MOTn_GEAR_STATUS_ENGAGED n) then s1.cause n 4 0 else s1).raise (evGear n 1)
    else s1

/-- The master estimate of this frame (R114, R125), wrapped to 48 bits. -/
def State.masterEstimate (s : State) (n : Nat) : Int :=
  let m := match s.get (F.MOTn_GEAR_CFG_SRC n) with
    | 0 => s.wideS 48 (R.FBKn_POS n) + velOver (s.wideS 40 (R.FBKn_SPEED n)) (s.predict n * s.periodH)
    | 1 => (s.axisMaster n).1 + velOver (s.axisMaster n).2 s.periodH
    | _ =>
      match (s.herdOf n).bind (·.cur) with
      | none => (s.ax n).gear.m
      | some r =>
        let k := s.spreadFrames
        let g := (s.ax n).gear
        s.recordEstimate n r + (if g.corrAge < k then g.corr * ((k - g.corrAge : Nat) : Int) / (k : Int) else 0)
  sext 48 (unsext 48 m)

/-- Before the stops of a frame: the correction of a herd master, MASTER_OK and MISSED. -/
def State.gearLatch (s : State) (n : Nat) : State :=
  let herd := decide (s.get (F.MOTn_GEAR_CFG_SRC n) = 2)
  let s1 := match herd, s.herdOf n with
    | true, some h => (s.herdCorrection n h).put (F.MOTn_GEAR_STATUS_MISSED n) (Nat.min h.missed 15)
    | _, _ => s.put (F.MOTn_GEAR_STATUS_MISSED n) 0
  s1.putB (F.MOTn_GEAR_STATUS_MASTER_OK n) (s1.masterOk n (s1.masterRouted n))

/-! ## The gearing step (R116, R117, R120) -/

/-- A ratio. -/
structure Ratio where
  num : Int
  den : Nat
deriving DecidableEq, Repr

/-- The ratio in use. -/
def State.ratio (s : State) (n : Nat) : Ratio := ⟨s.getS (F.MOTn_GEAR_NUM_VALUE n), s.get (F.MOTn_GEAR_DEN_VALUE n)⟩

/-- The staged ratio. -/
def State.nextRatio (s : State) (n : Nat) : Ratio :=
  ⟨s.getS (F.MOTn_GEAR_NEXT_NUM_VALUE n), s.get (F.MOTn_GEAR_NEXT_DEN_VALUE n)⟩

/-- floor(d × r). -/
def Ratio.mul (r : Ratio) (d : Int) : Int := d * r.num / (r.den : Int)

/-- floor(r0 p + (r1 − r0) p² / (2B)) for 0 < p < B (Table 4.3). -/
def blendOffset (r0 r1 : Ratio) (p b : Int) : Int :=
  (r0.num * p * (2 * b * r1.den) + (r1.num * r0.den - r0.num * r1.den) * p * p) / (2 * b * (r0.den : Int) * r1.den)

/-- floor((r0 + r1) B / 2). -/
def blendEnd (r0 r1 : Ratio) (b : Int) : Int :=
  (r0.num * r1.den + r1.num * r0.den) * b / (2 * (r0.den : Int) * r1.den)

/-- Does the master cross c in the direction chosen by CHG_DIR (R120)? The direction of the crossing. -/
def crossing (mPrev m c : Int) (dir : Nat) : Option Bool :=
  if mPrev < c ∧ c ≤ m ∧ dir ≠ 2 then some true
  else if c < mPrev ∧ m ≤ c ∧ dir ≠ 1 then some false
  else none

/-- The plain increment of a locked gear from the previous estimate to `m` (R116). -/
def State.gearIncrement (s : State) (n : Nat) (x m : Int) : State × Int :=
  let g := (s.ax n).gear
  let r := s.ratio n
  let q := sext 48 (unsext 48 (m - g.m)) * r.num + g.rem
  let inc := q / (r.den : Int)
  (s.modAx n fun a => { a with gear := { a.gear with rem := (q - inc * (r.den : Int)).toNat } }, x + inc * fx)

/-- The position of a locked gear at the estimate `m` (R116, Table 4.3); positions are scaled. -/
def State.gearLocked (s : State) (n : Nat) (m : Int) : State × Int :=
  let a := s.ax n
  let x := a.kin.x
  let c := s.wideS 48 (R.MOTn_GEAR_CHG_POS n)
  let r0 := s.ratio n
  let r1 := s.nextRatio n
  let s1 :=
    if !s.flag (F.MOTn_GEAR_STATUS_BLENDING n) ∧ s.flag (F.MOTn_GEAR_STATUS_CHG_ARMED n) then
      match crossing a.gear.m m c (s.get (F.MOTn_GEAR_CTRL_CHG_DIR n)) with
      | some up =>
        (s.put (F.MOTn_GEAR_STATUS_BLENDING n) 1).modAx n fun a =>
          { a with gear := { a.gear with xc := x + ((c - a.gear.m) * r0.num + a.gear.rem) / (r0.den : Int) * fx,
                                         sPos := up } }
      | none => s
    else s
  if s1.flag (F.MOTn_GEAR_STATUS_BLENDING n) then
    let g := (s1.ax n).gear
    let sg : Int := if g.sPos then 1 else -1
    let p := sg * (m - c)
    let b : Int := s.get (F.MOTn_GEAR_BLEND_LENGTH n)
    if p ≤ 0 then (s1, g.xc + r0.mul (m - c) * fx)
    else if p < b then (s1, g.xc + sg * blendOffset r0 r1 p b * fx)
    else
      let s2 := ((s1.put (F.MOTn_GEAR_NUM_VALUE n) (unsext 32 r1.num)).put (F.MOTn_GEAR_DEN_VALUE n) r1.den)
      let s3 := ((s2.put (F.MOTn_GEAR_STATUS_BLENDING n) 0).put (F.MOTn_GEAR_STATUS_CHG_ARMED n) 0).put
        (F.MOTn_GEAR_CTRL_CHG_ARM n) 0
      let s4 := s3.modAx n fun a => { a with gear := { a.gear with m := c + sg * b, rem := 0 } }
      let r := s4.gearIncrement n (g.xc + sg * blendEnd r0 r1 b * fx) m
      (r.1.raise (evGear n 3), r.2)
  else s1.gearIncrement n x m

/-- An increment applied in full (R92, R93, R116): the new motion, with FOLLOW_OVERSPEED beyond VEFF × T. -/
def State.applyIncrement (s : State) (n : Nat) (x1 : Int) : State :=
  let r := s.ramp n
  let k := (s.ax n).kin
  let d := x1 - k.x
  let v := incSpeed r.c d
  let k1 : Kin := { x := r.wrap x1, v := v, fwd := if d = 0 then k.fwd else decide (0 < d), decel := false,
                    seg := if d = 0 then 0 else 3 }
  let s1 := s.modAx n fun a => { a with kin := k1 }
  if (r.veff * r.c : Nat) < (d.natAbs * hzCore : Nat) then
    (if s.flag (F.MOTn_FOLLOW_CFG_OVS_STOP n) then s1.cause n 3 5 else s1).raise (evMot n 7)
  else s1

/-- A stop found by the profile step itself, whose position is already in force (R81, R107, R118): `unc` where the speed
at the start of the frame exceeded VSTOP. -/
def State.stopNow (s : State) (n c d : Nat) (unc : Bool) : State :=
  let s1 := (s.stopWith n [(c, d)] true).modAx n fun a => { a with imm := false, ramping := false }
  s1.when unc fun s => s.stopUncertain n

/-- The gearing and profile step of an engaged axis in geared mode. -/
def State.gearStep (s : State) (n : Nat) : State :=
  let m := s.masterEstimate n
  let u := (s.ax n).kin.v
  if s.flag (F.MOTn_GEAR_STATUS_LOCKED n) then
    let r := s.gearLocked n m
    let s1 := r.1
    match s1.softLimits n with
    | some (lo, hi) =>
      if hi * fx < r.2 ∧ (s1.ax n).kin.x ≤ hi * fx then
        ((s1.applyIncrement n (hi * fx)).modAx n fun a => { a with kin := { a.kin with v := 0 } }).stopNow n 2 2
          (decide (s.spd (R.MOTn_VSTOP n) < u)) |>.raise (evMot n 3)
      else if r.2 < lo * fx ∧ lo * fx ≤ (s1.ax n).kin.x then
        ((s1.applyIncrement n (lo * fx)).modAx n fun a => { a with kin := { a.kin with v := 0 } }).stopNow n 2 3
          (decide (s.spd (R.MOTn_VSTOP n) < u)) |>.raise (evMot n 3)
      else s1.applyIncrement n r.2
    | none => s1.applyIncrement n r.2
  else if s.flag (F.MOTn_GEAR_STATUS_SYNCING n) then
    let r := s.ramp n
    let q := s.ratio n
    let v := s.masterVel n * q.num
    let w := (convDiv (v.natAbs * 2 ^ 24 : Nat) q.den).toNat
    let k := stepVel r (s.ax n).kin w (decide (0 ≤ v))
    let rate := if u ≤ k.v then (if u < r.vbreak then r.a1 else r.a2) else if r.vbreak < u then r.d2 else r.d1
    let s1 := s.modAx n fun a => { a with kin := k }
    if ((k.v : Int) - (w : Int)).natAbs ≤ r.rateStep rate ∧ (k.fwd = decide (0 ≤ v) ∨ k.v = 0) then
      ((((s1.put (F.MOTn_GEAR_STATUS_SYNCING n) 0).put (F.MOTn_GEAR_STATUS_LOCKED n) 1).modAx n fun a =>
        { a with gear := { a.gear with rem := 0 } })).raise (evGear n 2)
    else s1
  else s.modAx n fun a => { a with kin := stepStop (s.ramp n) a.kin }

/-- After the step: the estimate used in this frame (MOTn_GEAR_MASTER) is the previous one of the next. -/
def State.keepMaster (s : State) (n : Nat) (m : Int) : State :=
  (s.modAx n fun a => { a with gear := { a.gear with m := m } }).putWideS 48 (R.MOTn_GEAR_MASTER n) m

/-! ## Ratio change (R120, R121) -/

/-- A write of MOTn_GEAR_CTRL: a cancel drops the change; rem is 0 and the gear goes on at the old ratio. -/
def gearCtrl (n : Nat) (dir : Nat) (arm cancel : Bool) (s : State) : Bool × State :=
  if 3 ≤ dir then (false, s)
  else
    let s1 := s.put (F.MOTn_GEAR_CTRL_CHG_DIR n) dir
    let s2 := if arm then (s1.put (F.MOTn_GEAR_CTRL_CHG_ARM n) 1).put (F.MOTn_GEAR_STATUS_CHG_ARMED n) 1 else s1
    (true,
      if cancel then
        (((s2.put (F.MOTn_GEAR_CTRL_CHG_ARM n) 0).put (F.MOTn_GEAR_STATUS_CHG_ARMED n) 0).put
          (F.MOTn_GEAR_STATUS_BLENDING n) 0).modAx n fun a => { a with gear := { a.gear with rem := 0 } }
      else s2)

/-! ## Timed commands -/

/-- The slot fields. -/
def State.slotOf (s : State) (n j : Nat) : TSlot := (s.ax n).slots.toList.getD j ⟨0, 0, 0, .host⟩

/-- Is a slot busy? -/
def State.slotBusyT (s : State) (n j : Nat) : Bool := s.flag (F.MOTn_TCMD_SLOTj_BUSY n j)

/-- The result of a submission; a refusal raises TCMD_REFUSED. -/
def State.tcmdResult (s : State) (n code slot : Nat) : State :=
  (s.wr (R.MOTn_TCMD_RESULT n) (BitVec.ofNat 32 (slot * 2 ^ 8 + code))).raiseIf (decide (code ≠ 0)) (evGear n 6)

/-- The commands a slot may hold. -/
def timedCmds : List Nat := [3, 4, 0xF0, 0xF1]

/-- A submission with its operands (R129). -/
def State.tcmdSubmit (s : State) (p : Path) (n time arg epoch cmd : Nat) : State :=
  match (List.range 4).find? fun j => !s.slotBusyT n j with
  | none => s.tcmdResult n 1 0
  | some j =>
    if 2 * time ≤ s.net.timeH then s.tcmdResult n 2 0
    else if s.net.timeH + 2 * 3600000000000 < 2 * time then s.tcmdResult n 3 0
    else if epoch ≠ s.get F.NET_TIME_STATUS_EPOCH then s.tcmdResult n 4 0
    else if !s.locked then s.tcmdResult n 5 0
    else if !timedCmds.contains cmd then s.tcmdResult n 6 0
    else
      let order := maxN ((List.range 4).map fun j => (s.slotOf n j).order) + 1
      let s1 := s.modAx n fun a => { a with slots := a.slots.setIfInBounds j ⟨time, arg, order, p⟩ }
      (s1.wr (R.MOTn_TCMD_SLOTj n j) (BitVec.ofNat 32 (2 ^ 31 + cmd * 2 ^ 16 + epoch))).tcmdResult n 0 j

/-- A write of MOTn_TCMD_SUBMIT: the operands stand in TCMD_TIME and TCMD_ARG. -/
def tcmdWrite (p : Path) (n : Nat) (w : Word) (s : State) : State :=
  s.tcmdSubmit p n (s.wide 64 (R.MOTn_TCMD_TIME n)) (s.wide 48 (R.MOTn_TCMD_ARG n)) (bitsOf w 16 16) (bitsOf w 0 8)

/-- Free a slot whose command is cancelled or dropped (R131). -/
def State.dropSlot (s : State) (n j : Nat) : State :=
  if s.slotBusyT n j then
    ((s.wr (R.MOTn_TCMD_SLOTj n j) 0).bump (F.MOTn_TCMD_DROP_CNT_COUNT n) 1).raise (evGear n 5)
  else s

/-- Drop every pending command of an axis that `keep` does not spare. -/
def State.dropSlots (s : State) (n : Nat) (drop : Nat → Bool) : State :=
  (List.range 4).foldl (fun s j => if drop j then s.dropSlot n j else s) s

/-- MOTn_TCMD_CANCEL (R131). -/
def tcmdCancel (n : Nat) (w : Word) (s : State) : State := s.dropSlots n fun j => decide (bitsOf w j 1 = 1)

/-- A timed command executes (R130): judged as the write it stands for, TCMD_DONE whatever the result. -/
def tcmdExecute (n j : Nat) (s : State) : State :=
  let t := s.slotOf n j
  if s.slotBusyT n j ∧ 2 * t.time ≤ s.net.timeH then
    let s1 := s.wr (R.MOTn_TCMD_SLOTj n j) 0
    let s2 := match s.get (F.MOTn_TCMD_SLOTj_CMD n j) with
      | 3 => stopCmd t.path n s1
      | 4 => startCmd n (s1.masterRouted n) s1
      | 0xF0 => targetWrite n (sext 48 t.arg) s1
      | _ => vtargetWrite n (sext 40 t.arg) s1
    s2.raise (evGear n 4)
  else s

/-- The busy slots of an axis that are due, in order of TIME and then of acceptance (R130). -/
def State.dueSlots (s : State) (n : Nat) : List Nat :=
  let due := (List.range 4).filter fun j => s.slotBusyT n j && decide (2 * (s.slotOf n j).time ≤ s.net.timeH)
  sortBy (l := due) fun i j =>
    decide ((s.slotOf n i).time < (s.slotOf n j).time) ||
      (decide ((s.slotOf n i).time = (s.slotOf n j).time) && decide ((s.slotOf n i).order ≤ (s.slotOf n j).order))

/-- The due timed commands of an axis. -/
def State.runDue (s : State) (n : Nat) : State := (s.dueSlots n).foldl (fun s j => tcmdExecute n j s) s

/-! ## Herd membership -/

/-- The enabled memberships with a herd number. -/
def State.membersOf (s : State) (herd : Nat) : List Nat :=
  (List.range 16).filter fun i => s.flag (F.NET_HERDi_CFG_ENABLE i) && decide (s.get (F.NET_HERDi_CFG_HERD i) = herd)

/-- The axes of a membership in ascending order. -/
def State.herdAxes (s : State) (i : Nat) : List Nat :=
  (List.range 8).filter fun n => decide (bitsOf (s.rd (R.NET_HERDi_CFG i)) (16 + n) 1 = 1)

/-- A herd-addressed command on every axis of every membership with that number (R122). -/
def State.onHerd (s : State) (herd : Nat) (f : Nat → State → State) : State :=
  (s.membersOf herd).foldl (fun s i => (s.herdAxes i).foldl (fun s n => f n s) s) s

/-- STOP addressed to a herd has cause RING (R122). -/
def herdStop (herd : Nat) (s : State) : State := s.onHerd herd fun n s => (s.cause n 4 0).motResult n 3 0

/-- START addressed to a herd. -/
def herdStart (herd : Nat) (s : State) : State := s.onHerd herd fun n s => startCmd n (s.masterRouted n) s

/-- The engaged axes that use membership `i` as their master. -/
def State.slavesOf (s : State) (i : Nat) : List Nat :=
  (List.range 8).filter fun n =>
    s.flag (F.MOTn_GEAR_STATUS_ENGAGED n) && decide (s.get (F.MOTn_GEAR_CFG_SRC n) = 2) &&
      decide (s.get (F.MOTn_GEAR_CFG_HERD_IDX n) = i)

/-- Change a herd's state. -/
def State.modHerd (s : State) (i : Nat) (f : Herd → Herd) : State :=
  { s with herds := match s.herds.toList[i]? with
      | some h => s.herds.setIfInBounds i (f h)
      | none => s.herds }

/-- HOLDOVER consecutive cycles have missing records (R126): MASTER_OK clears, engaged axes stop with cause RING. -/
def State.masterLost (s : State) (i : Nat) : State :=
  let l := s.slavesOf i
  let s1 := s.modHerd i fun h => { h with ok := false }
  l.foldl (fun s n => ((s.cause n 4 0).put (F.MOTn_GEAR_STATUS_MASTER_OK n) 0).raise (evGear n 0)) s1

/-- READY of an axis (R132). -/
def State.ready (s : State) (n : Nat) : Bool :=
  s.armed n && !(s.ax n).stopOpen && !s.flag (F.MOTn_STATUS_FAULT_LATCH n) && !s.flag (F.MOTn_STATUS_LIM_P_LATCH n) &&
  !s.flag (F.MOTn_STATUS_LIM_N_LATCH n) &&
  !(decide (s.mode n = 3) && decide (s.get (F.MOTn_GEAR_CFG_SRC n) = 2) && !s.masterOk n false)

end Sys2Proof.Machine
end

