-- ==== Sys2Proof/Machine/Fabric.lean ====
section
/-!
DEFINITION. Levels of the digital sources and sinks of the fabric (Tables 2.7 and 2.8, R57, R440).
-/
namespace Sys2Proof.Machine

/-- The level at a digital signal ball used as a fabric source (R440), by its source code. -/
def State.ball (s : State) (c : Nat) : Bool := SMap.get (fun _ => false) s.balls c

/-- The level of a digital source (Table 2.7). -/
def State.srcLevel (s : State) (c : Nat) : Bool :=
  if 0x100 ≤ c ∧ c < 0x128 then s.flag (F.CMPc_STATUS_OUT (c - 0x100))
  else if c = 0x230 then s.flag F.GDR_STATUS_FAULT_N
  else if 0x200 ≤ c ∧ c < 0x258 then s.ball c
  else if 0x300 ≤ c ∧ c < 0x308 then s.flag (F.PWM_AUXa_STATUS_OUT (c - 0x300))
  else if 0x400 ≤ c ∧ c < 0x440 then
    (if c % 2 = 0 then s.flag (F.GDRk_STATUS_VDS_H ((c - 0x400) / 2)) else s.flag (F.GDRk_STATUS_VDS_L ((c - 0x400) / 2)))
  else if 0x500 ≤ c ∧ c < 0x520 then decide (bitsOf (s.rd R.PMC_LIMIT_FLAGS) (c - 0x500) 1 = 1)
  else if 0x600 ≤ c ∧ c < 0x640 then s.frm.flags.getLsbD (256 + (c - 0x600))
  else if 0x708 ≤ c ∧ c < 0x710 then s.flag (F.OBSn_STATUS_STALL (c - 0x708))
  else decide (c = 0xFFE ∨ (0x710 ≤ c ∧ c < 0x718))

/-- The level of a digital sink: the OR of its routes, each inverted where its route says so; an unrouted sink reads 0
(R57). -/
def State.sinkLevel (s : State) (k : Nat) : Bool := (s.routesTo k).any fun r => s.srcLevel r.src != r.inv

end Sys2Proof.Machine
end

