-- ==== Sys2Proof/Machine/Protect.lean ====
section
/-!
DEFINITION. The asynchronous path of the device: channel states (R169), fault latches (R171 to R173), the evaluation of the
gates (R184, R195), VDS qualification (R190), blanking windows (R176) and comparator outputs (R302). `settle` brings them
to rest after every command that can move one of them.
-/
namespace Sys2Proof.Machine

/-- Bridge `k`. -/
def State.br (s : State) (k : Nat) : Bridge := s.bridges.toList.getD k restBridge

/-- Change bridge `k`. -/
def State.modBr (s : State) (k : Nat) (f : Bridge → Bridge) : State :=
  { s with bridges := s.bridges.setIfInBounds k (f (s.br k)) }

/-- The PWM side of axis `n`. -/
def State.pw (s : State) (n : Nat) : PwmAxis := s.pwmAxes.toList.getD n restPwm

/-- Change the PWM side of axis `n`. -/
def State.modPw (s : State) (n : Nat) (f : PwmAxis → PwmAxis) : State :=
  { s with pwmAxes := s.pwmAxes.setIfInBounds n (f (s.pw n)) }

/-- Auxiliary channel `a`. -/
def State.axu (s : State) (a : Nat) : Aux := s.aux.toList.getD a restAux

/-- Change auxiliary channel `a`. -/
def State.modAxu (s : State) (a : Nat) (f : Aux → Aux) : State :=
  { s with aux := s.aux.setIfInBounds a (f (s.axu a)) }

/-! ## Events -/

/-- FAULT of group `n` (R173). -/
def evPwmFault (n : Nat) : Ev := ⟨R.PWM_IRQ_STATUS, n, n + 1, R.PWM_IRQ_ENABLE, n, .always⟩
/-- LATE_COMMIT (R165). -/
def evLateCommit : Ev := ⟨R.PWM_IRQ_STATUS, 8, 0, R.PWM_IRQ_ENABLE, 8, .always⟩
/-- CLEAR_REFUSED (R175). -/
def evClearRefused : Ev := ⟨R.PWM_IRQ_STATUS, 9, 0, R.PWM_IRQ_ENABLE, 9, .always⟩
/-- A gate-driver event on endpoint `ep`. -/
def evGdr (bit ep : Nat) : Ev := ⟨R.GDR_IRQ_STATUS, bit, ep, R.GDR_IRQ_ENABLE, bit, .always⟩
/-- TRIP of comparator `c`: logged only when its bit goes from 0 to 1 (R303, R312). -/
def evCmpTrip (c : Nat) : Ev :=
  ⟨if c < 32 then R.CMP_TRIP_LO else R.CMP_TRIP_HI, c % 32, 0x40 + c, R.CMP_EVT_ENABLE, 0, .edge⟩

/-! ## Levels -/

/-- Is the axis partition configured? -/
def State.configured (s : State) (n : Nat) : Bool := ((s.cfg.run.parts[n]?).map (·.present)).getD false

/-- Is the fault latch of group `n` set? -/
def State.latched (s : State) (n : Nat) : Bool := decide (bitsOf (s.rd R.PWM_FAULT_LATCH) n 1 = 1)

/-- Does the guard domain hold the short of axis `n` (R153)? -/
def State.shortLatched (s : State) (n : Nat) : Bool := decide (n < 2) && s.flag (F.CURn_GUARD_SHORT_LATCHED n)

/-- Bits 4n to 4n + 3 of a bridge mask. -/
def State.groupBits (s : State) (a n : Nat) : Nat := bitsOf (s.rd a) (4 * n) 4

/-- The gate-driver trip of group `n` (R192). -/
def State.gdrTrip (s : State) (n : Nat) : Bool :=
  decide (s.groupBits R.GDR_BST_UV n ≠ 0 ∨ s.groupBits R.GDR_HS_FAIL n ≠ 0) || s.flag F.GDR_STATUS_VDRV_TRIP

/-- The level sources of group `n` that are asserted, bit code − 1 (Table 6.4). -/
def State.faultLevels (s : State) (n : Nat) : Nat :=
  b2n (!s.flag F.GDR_STATUS_FAULT_N) + 2 * b2n (s.sinkLevel (0x200 + n)) + 4 * b2n (s.sinkLevel 0x208) +
    8 * b2n (s.gdrTrip n) + 16 * b2n (s.flag F.FRM_STATUS_OVR_FAULT)

/-- The lowest code of a mask of sources. -/
def lowestCode (m : Nat) : Nat := (((List.range 7).find? fun i => m.testBit i).getD 0) + 1

/-- Is axis `n` in the test mode PWM_DRIVE (R425)? -/
def State.driven (s : State) (n : Nat) : Bool :=
  decide (s.get F.TEST_CTRL_MODE = 2) && decide (bitsOf (s.rd R.TEST_CTRL) (16 + n) 1 = 1)

/-- The state of half-bridge channel `k` in the codes of PWMkk_STATUS.STATE (Table 6.3): 0 SAFE, 1 OFF, 2 LOW, 3 FORCE,
4 RUN. -/
def State.chanState (s : State) (k : Nat) : Nat :=
  let n := k / 4
  let lv := (s.pw n).level
  if s.latched n then 0
  else if s.get (F.PWMk_FORCE_LEVEL k) ≠ 0 then 3
  else if s.driven n then 4
  else if lv = 3 then 2
  else if (lv = 1 ∨ lv = 2) ∧ s.configured n then 4
  else 1

/-- The demands H and L of a channel (R163, R169, R172); in RUN they follow the compares edge by edge. -/
def State.demand (s : State) (k : Nat) : Bool × Bool :=
  match s.chanState k with
  | 0 => (false, decide (s.get (F.PWMk_CFG_SAFE k) = 1))
  | 3 => (decide (s.get (F.PWMk_FORCE_LEVEL k) = 3), decide (s.get (F.PWMk_FORCE_LEVEL k) = 2))
  | 2 => (false, true)
  | 4 => ((s.br k).h, (s.br k).l)
  | _ => (false, false)

/-- Is a gate wanted on (Table 7.2)? A bridge that DRV_EN turned off stays off until the axis has disarmed (R193). While
boundary scan drives the pins no gate is turned on (R424). -/
def State.gateWant (s : State) (k : Nat) (high : Bool) : Bool :=
  let guardLow := decide (k < 8) && !high
  let short := s.shortLatched (k / 4)
  if !s.flag (if guardLow then F.GDR_STATUS_VGRD_OK else F.GDR_STATUS_VDRV_OK) then false
  else if guardLow && short then true
  else if s.scanning && !(if high then (s.br k).hsOn else (s.br k).lsOn) then false
  else if !s.flag F.GDR_STATUS_DRV_EN || s.flag F.GDR_STATUS_VDRV_TRIP then false
  else if (s.ax (k / 4)).bridgeOff && !s.latched (k / 4) then false
  else if high then !(s.br k).uv && !short && (s.br k).h
  else (s.br k).l

/-! ## Fault latches (R171 to R173) -/

/-- Set the latch of group `n`: FIRST and MASK, forces to NONE, the FAULT event, and the bridges of an armed axis off in
the sense of R101. -/
def State.setLatch (s : State) (n code mask : Nat) : State :=
  let s1 := (s.put ⟨R.PWM_FAULT_LATCH, n, 1⟩ 1).put (F.PWM_FAULT_SRCn_FIRST n) code
  let s2 := s1.put (F.PWM_FAULT_SRCn_MASK n) mask
  let s3 := (List.range 4).foldl (fun s j => s.put (F.PWMk_FORCE_LEVEL (4 * n + j)) 0) s2
  (s3.modAx n fun a => { a with bridgeOff := a.bridgeOff || a.armed }).raise (evPwmFault n)

/-- A source asserts at group `n`: it sets the latch, or joins the mask of a set one. -/
def State.faultSource (s : State) (n code : Nat) : State :=
  let m := 2 ^ (code - 1)
  if s.latched n then s.put (F.PWM_FAULT_SRCn_MASK n) (s.get (F.PWM_FAULT_SRCn_MASK n) ||| m)
  else s.setLatch n code m

/-- The level sources of group `n` act on its latch. -/
def State.faultScan (s : State) (n : Nat) : State :=
  let lv := s.faultLevels n
  if lv = 0 then s
  else if s.latched n then s.put (F.PWM_FAULT_SRCn_MASK n) (s.get (F.PWM_FAULT_SRCn_MASK n) ||| lv)
  else s.setLatch n (lowestCode lv) lv

/-! ## Demands and gates -/

/-- The demand of a channel follows its state. -/
def State.redemand (s : State) (k : Nat) : State :=
  let d := s.demand k
  if (s.br k).h = d.1 ∧ (s.br k).l = d.2 then s else s.modBr k fun b => { b with h := d.1, l := d.2 }

/-- A gate turned off at once; a waiting turn-on of that side is cancelled (R184). -/
def Bridge.off (b : Bridge) (high : Bool) : Bridge :=
  let b1 := if b.wait = some high then { b with wait := none } else b
  if high then (if b1.hsOn then { b1 with hsOn := false, hsLow := false } else b1)
  else if b1.lsOn then { b1 with lsOn := false, lsLow := false } else b1

/-- The drivers of bridge `k` follow a change of what Table 7.2 asks: off at once, on by a waiting turn-on (R184). -/
def State.driveGates (s0 s : State) (k : Nat) : State :=
  let h := s.gateWant k true
  let l := s.gateWant k false
  let newH := h && !s0.gateWant k true
  let newL := l && !s0.gateWant k false
  let b := s.br k
  let b1 := if h then b else b.off true
  let b2 := if l then b1 else b1.off false
  let b3 := if newH ∧ !b2.hsOn then { b2 with wait := some true }
    else if newL ∧ !b2.lsOn then { b2 with wait := some false } else b2
  if b3 = b then s else s.modBr k fun _ => b3

/-- A VDS source deasserts when its monitor is unqualified (R190). -/
def State.vdsQualify (s : State) (k : Nat) : State :=
  let b := s.br k
  let s1 := if s.flag (F.GDRk_STATUS_VDS_H k) ∧ (!b.hsOn ∨ s.sinkLevel (0x240 + 2 * k)) then
    s.put (F.GDRk_STATUS_VDS_H k) 0 else s
  if s1.flag (F.GDRk_STATUS_VDS_L k) ∧ (!b.lsOn ∨ s1.sinkLevel (0x241 + 2 * k)) then
    s1.put (F.GDRk_STATUS_VDS_L k) 0 else s1

/-- An EDGE window starts at a selected edge of H of its channel, whatever made the edge (R176). -/
def State.auxEdge (s0 s : State) (a : Nat) : State :=
  let k := s.get (F.PWM_AUXa_CFG_CH a)
  let e := s.get (F.PWM_AUXa_CFG_EDGES a)
  let h0 := (s0.br k).h
  let h1 := (s.br k).h
  if s.get (F.PWM_AUXa_CFG_MODE a) = 2 ∧ !(s.axu a).changing ∧ s.get (F.PWM_AUXa_CFG_LEN a) ≠ 0 ∧
      ((!h0 ∧ h1 ∧ e.testBit 0) ∨ (h0 ∧ !h1 ∧ e.testBit 1)) then
    s.put (F.PWM_AUXa_STATUS_OUT a) 1
  else s

/-- The trip output of comparator `c` (R302, R306, R309, R311): enabled, released, not isolated by a self-test, not
blanked; within 300 ns of a rescale it holds its level. -/
def State.cmpOut (s : State) (c : Nat) : State :=
  let blank := s.sinkLevel (0x140 + c)
  let was := s.flag (F.CMPc_STATUS_OUT c)
  let iso := s.cmp.saved.any fun e => decide (e.1 = c)
  let out := if s.cmp.ready ∧ s.sub < 120 ∧ s.cmp.hold.contains c then was
    else s.cmp.ready && s.flag (F.CMPc_CFG_EN c) && s.flag (F.CMPc_STATUS_RAW c) && !blank && !iso
  let s1 := if blank = s.flag (F.CMPc_STATUS_BLANKED c) then s else s.putB (F.CMPc_STATUS_BLANKED c) blank
  if out = was then s1
  else
    let s2 := (s1.putB (F.CMPc_STATUS_OUT c) out).putB
      ⟨if c < 32 then R.CMP_OUT_LO else R.CMP_OUT_HI, c % 32, 1⟩ out
    s2.raiseIf out (evCmpTrip c)

/-- A fault latch of a driven axis ends PWM_DRIVE (R425). -/
def State.endDrive (s : State) : State :=
  if (List.range 8).any fun n => s.driven n && s.latched n then s.put F.TEST_CTRL_MODE 0 else s

/-- One pass of the asynchronous path from the levels of `s` after a command that started at `s0`. -/
def State.settleOnce (s0 s : State) : State :=
  let s1 := ((List.range 8).foldl (fun s n => s.faultScan n) s).endDrive
  let s2 := (List.range 32).foldl (fun s k => s.redemand k) s1
  let s3 := (List.range 32).foldl (fun s k => State.driveGates s0 s k) s2
  let s4 := (List.range 8).foldl (fun s a => State.auxEdge s0 s a) s3
  let s5 := (List.range 32).foldl (fun s k => s.vdsQualify k) s4
  (List.range 40).foldl (fun s c => s.cmpOut c) s5

/-- Bring the asynchronous path to rest after a command: a second pass carries what the first one moved. A command that
has reset the control die leaves it as the reset does. -/
def State.settle (s0 s : State) : State :=
  if s.held then s
  else
    let s1 := State.settleOnce s0 s
    State.settleOnce s1 s1

/-- In reset only the guard domain drives gates: the low sides of bridges 0 to 7 follow a latched short (R196, R197). -/
def State.settleHeld (s0 s : State) : State := (List.range 8).foldl (fun s k => State.driveGates s0 s k) s

/-- The outcome of an event that acts with the control die running or held in reset, and can move the asynchronous
path. -/
def alwaysA (s : State) (inReset running : State → State) : Host.Outcome State Fault Refusal :=
  always s fun s => if s.held then State.settleHeld s (inReset s) else State.settle s (running s)

/-- The outcome of a command of a running device that can move the asynchronous path. -/
def liveA (s : State) (f : State → State) : Host.Outcome State Fault Refusal :=
  live s fun s => State.settle s (f s)

end Sys2Proof.Machine
end

