-- ==== Sys2Proof/Config.lean ====
section
/-!
DEFINITION. The free values: what the spec leaves open and the machine still gives a value. Each is a constant without
a body, applied to the number of the use (the field `free` of State).
-/
namespace Sys2Proof.Config

/-- What lane register `r` holds at the start of a task (R25: undefined). -/
opaque laneReg : Nat → Nat → BitVec 32

/-- What the accumulator of a lane holds at the start of a task (R25: undefined). -/
opaque laneAcc : Nat → BitVec 72

/-- Whether a key programming that a power loss interrupts leaves the slot programmed (R55: either). -/
opaque otpProgrammed : Nat → Bool

/-- How far a commit, or the power-loss store, had come when a reset interrupted it (R360, R363, R371). -/
opaque interruptedBlock : Nat → Nat

/-- A byte of the MRAM at an address whose layout the spec does not give, as one read of the test window shows it (R361,
R425). -/
opaque mramByte : Nat → Nat → BitVec 8

/-- A word whose layout or value the spec does not state: the input words 0x0080 to 0x0088 of a frame, an entry beyond the
end of a table. -/
opaque freeWord : Nat → Nat → BitVec 32

/-- A choice between two values that the spec leaves open: the rounding of an interpolation, the carry of a
subtraction. -/
opaque freeBit : Nat → Bool

end Sys2Proof.Config
end

