-- ==== Sys2Proof/Machine/Energy.lean ====
section
/-!
DEFINITION. The energy check before an NV commit (R369) and the rule that no commit starts while CHOLD_MEASURE runs
(R37).
-/
namespace Sys2Proof.Machine

/-- Twice E_avail in femtojoules: C_use in nF, voltages in mV. -/
def State.energy2 (s : State) : Nat :=
  let v := s.nvs.vhold
  let vmin := 100 * s.get F.NVS_HU_CFG_V_MIN
  if v ≤ vmin then 0 else s.nvs.cUseNf * (v * v - vmin * vmin)

/-- Twice the energy of P_HU over `ns` nanoseconds, in femtojoules. -/
def State.power2 (s : State) (ns : Nat) : Nat := 2 * (s.get F.NVS_HU_CFG_P_HU * 10000 * ns)

/-- Is E_avail at least P_HU × t_c + E_RES for a commit of `ns` nanoseconds? -/
def State.energyOk (s : State) (ns : Nat) : Bool :=
  decide (100 * s.get F.NVS_HU_CFG_V_MIN < s.nvs.vhold) &&
  decide (s.power2 (ns + (s.get F.NVS_PLS_CFG_WAIT + 1) * 1000000) ≤ s.energy2)

/-- Report V and E_avail of the latest check in NVS_HOLD. -/
def State.reportHold (s : State) : State :=
  (s.put F.NVS_HOLD_VHOLD (satU 16 (s.nvs.vhold / 10))).put F.NVS_HOLD_E_AVAIL
    (satU 16 (s.energy2 / 2 / 1000000000000))

/-- The check of R369 for a commit of `ns` nanoseconds: whether it passes, and the state with the report; a refusal is
counted and raises ENERGY_LOW. -/
def State.checkEnergy (s : State) (ns : Nat) : Bool × State :=
  let s1 := s.reportHold
  if s.energyOk ns then (true, s1)
  else (false, (s1.bump F.NVS_ENERGY_CNT_COUNT 1).raise (evNvs 4 0))

/-- The result of asking for an NV commit: 0 go on, 1 NV_ENERGY_LOW, 2 MAINT_BUSY (a CHOLD_MEASURE runs). A refusal of
the arbiter is logged with activity 0 and target `t`. -/
def State.askCommit (s : State) (ns t : Nat) : Nat × State :=
  match s.findAct 8 0 with
  | some i => (2, s.maintRefused 1 0 t i 0)
  | none =>
    let r := s.checkEnergy ns
    (if r.1 then 0 else 1, r.2)

/-- t_c of a block write of `bytes` bytes in ns: 2 µs + bytes / 51.2 bytes/µs (R369). -/
def blockTime (bytes : Nat) : Nat := 2000 + bytes * 1000 * 10 / 512

/-- t_c of a record of `len` payload bytes (R363). -/
def recordTime (len : Nat) : Nat :=
  let b := (32 + len + 63) / 64 * 64
  2000 + 3 * b * 10000 / 512

end Sys2Proof.Machine
end

