-- ==== Sys2Proof/Machine/Codes.lean ====
section
/-!
DEFINITION. The reserved codes of the register fields (R11): for each field that has some, the codes that are not
reserved.
-/
namespace Sys2Proof.Machine

/-- A field whose codes are limited: the registers that hold it, its place, its smallest and largest code. -/
structure CodeRow where
  base : Nat
  count : Nat
  stride : Nat
  lo : Nat
  len : Nat
  min : Nat
  max : Nat
deriving DecidableEq, Repr

/-- Limited fields, part 1. -/
def codeRows1 : List CodeRow := [
  ⟨R.FRM_CTRL, 1, 0x4, 0, 4, 1, 15⟩,
  ⟨R.CFG_SWAP_TIMEOUT, 1, 0x4, 0, 12, 1, 3600⟩,
  ⟨R.CFG_TABLE_PAGE, 1, 0x4, 0, 9, 0, 287⟩,
  ⟨R.MOTn_MODE 0, 8, 0x200, 4, 2, 0, 2⟩,
  ⟨R.MOTn_MODE 0, 8, 0x200, 0, 3, 0, 3⟩,
  ⟨R.MOTn_LIMIT_CFG 0, 8, 0x200, 16, 8, 0, 250⟩,
  ⟨R.MOTn_HOME_CFG 0, 8, 0x200, 0, 3, 0, 4⟩,
  ⟨R.MOTn_FOLLOW_CFG 0, 8, 0x200, 0, 4, 0, 12⟩,
  ⟨R.MOTn_GEAR_CFG 0, 8, 0x200, 8, 2, 0, 1⟩,
  ⟨R.MOTn_GEAR_CFG 0, 8, 0x200, 0, 2, 0, 2⟩,
  ⟨R.MOTn_GEAR_CTRL 0, 8, 0x200, 1, 2, 0, 2⟩,
  ⟨R.NET_HERDi_SRC 0, 16, 0x10, 30, 2, 0, 2⟩,
  ⟨R.NET_HERDi_PARAM 0, 16, 0x10, 8, 4, 2, 15⟩,
  ⟨R.NET_HERDi_PARAM 0, 16, 0x10, 0, 4, 1, 15⟩,
  ⟨R.NET_HERD_HOST, 1, 0x4, 0, 5, 0, 16⟩,
  ⟨R.CURn_CFG 0, 8, 0x100, 0, 2, 0, 1⟩,
  ⟨R.CURn_IRUN 0, 8, 0x100, 0, 16, 0, 32767⟩,
  ⟨R.CURn_IHOLD 0, 8, 0x100, 0, 16, 0, 32767⟩,
  ⟨R.CURn_ICL_MIN 0, 8, 0x100, 0, 16, 0, 32767⟩,
  ⟨R.CURn_STANDSTILL 0, 8, 0x100, 30, 2, 0, 2⟩,
  ⟨R.CURn_STANDSTILL 0, 8, 0x100, 14, 10, 0, 1000⟩,
  ⟨R.CURn_STANDSTILL 0, 8, 0x100, 0, 14, 0, 10000⟩,
  ⟨R.CURn_LEAD 0, 8, 0x100, 16, 16, 1, 65535⟩,
  ⟨R.CURn_LEAD 0, 8, 0x100, 0, 13, 0, 4096⟩,
  ⟨R.CURn_DIAG_CFG 0, 8, 0x100, 24, 4, 1, 15⟩,
  ⟨R.CURn_DIAG_CFG 0, 8, 0x100, 10, 12, 1, 4095⟩,
  ⟨R.CURn_DIAG_CFG 0, 8, 0x100, 0, 10, 0, 1000⟩,
  ⟨R.PWMk_CFG 0, 32, 0x20, 8, 8, 0, 100⟩]

/-- Limited fields, part 2. -/
def codeRows2 : List CodeRow := [
  ⟨R.PWMk_CFG 0, 32, 0x20, 0, 2, 0, 1⟩,
  ⟨R.PWM_AUXa_CFG 0, 8, 0x20, 6, 2, 1, 3⟩,
  ⟨R.PWM_AUXa_CFG 0, 8, 0x20, 0, 2, 0, 2⟩,
  ⟨R.GDRk_CFG 0, 32, 0x10, 8, 6, 1, 63⟩,
  ⟨R.GDRk_CFG 0, 32, 0x10, 0, 6, 1, 63⟩,
  ⟨R.CSAs_CFG 0, 32, 0x20, 10, 2, 0, 2⟩,
  ⟨R.CSAs_CFG 0, 32, 0x20, 0, 2, 0, 2⟩,
  ⟨R.CSAs_GAIN 0, 32, 0x20, 0, 24, 3145728, 5242880⟩,
  ⟨R.CSA_DCBn_CFG 0, 8, 0x4, 24, 5, 12, 28⟩,
  ⟨R.CSA_DCBn_CFG 0, 8, 0x4, 0, 14, 5, 10000⟩,
  ⟨R.FBKn_CFG 0, 8, 0x80, 24, 8, 1, 255⟩,
  ⟨R.FBKn_CFG 0, 8, 0x80, 6, 2, 0, 2⟩,
  ⟨R.FBKn_CFG 0, 8, 0x80, 0, 3, 0, 4⟩,
  ⟨R.FBKn_SPEED_CFG 0, 8, 0x80, 16, 16, 1, 65535⟩,
  ⟨R.FBKn_SPEED_CFG 0, 8, 0x80, 0, 4, 0, 8⟩,
  ⟨R.FBKn_SSI_CFG 0, 8, 0x80, 18, 2, 0, 2⟩,
  ⟨R.FBKn_SSI_CFG 0, 8, 0x80, 0, 6, 8, 40⟩,
  ⟨R.FBKn_SSI_TIMING 0, 8, 0x80, 16, 6, 1, 63⟩,
  ⟨R.FBKn_SSI_TIMING 0, 8, 0x80, 0, 8, 2, 200⟩,
  ⟨R.OBSn_CFG 0, 8, 0x80, 16, 8, 1, 255⟩,
  ⟨R.OBSn_CFG 0, 8, 0x80, 0, 4, 0, 10⟩,
  ⟨R.OBSn_MOTOR_R 0, 8, 0x80, 0, 16, 1, 65535⟩,
  ⟨R.OBSn_MOTOR_L 0, 8, 0x80, 0, 16, 1, 65535⟩,
  ⟨R.OBSn_MOTOR_KE 0, 8, 0x80, 0, 16, 1, 65535⟩,
  ⟨R.OBSn_VMIN 0, 8, 0x80, 0, 32, 1, 2147483648⟩,
  ⟨R.OBSn_STALL_CFG 0, 8, 0x80, 16, 8, 1, 255⟩,
  ⟨R.OBSn_STALL_CFG 0, 8, 0x80, 0, 13, 1024, 8191⟩,
  ⟨R.OBSn_DEV_CFG 0, 8, 0x80, 0, 8, 1, 255⟩]

/-- Limited fields, part 3. -/
def codeRows3 : List CodeRow := [
  ⟨R.OBSn_DEV_WIN 0, 8, 0x80, 0, 32, 1, 2147483647⟩,
  ⟨R.PMC_REF_CFG, 1, 0x4, 4, 2, 0, 2⟩,
  ⟨R.PMC_CFGe 0, 32, 0x18, 18, 2, 0, 2⟩,
  ⟨R.PMC_CFGe 0, 32, 0x18, 12, 2, 0, 2⟩,
  ⟨R.PMC_GAINe 0, 32, 0x18, 0, 24, 3145728, 5242880⟩,
  ⟨R.CMPc_CFG 0, 40, 0x10, 13, 3, 0, 4⟩,
  ⟨R.NETp_TEST 0, 3, 0x40, 2, 2, 0, 2⟩,
  ⟨R.NETp_TEST 0, 3, 0x40, 0, 2, 0, 1⟩,
  ⟨R.NET_CFG, 1, 0x4, 16, 4, 1, 15⟩,
  ⟨R.NET_TIME_CFG, 1, 0x4, 16, 16, 1, 60000⟩,
  ⟨R.NET_TIME_CFG, 1, 0x4, 0, 16, 100, 10000⟩,
  ⟨R.NET_ROOT_CYCLE, 1, 0x4, 0, 32, 250000, 64000000⟩,
  ⟨R.NET_ROOT_CFG, 1, 0x4, 0, 11, 1, 1024⟩,
  ⟨R.NVS_HU_CFG, 1, 0x4, 14, 10, 100, 1000⟩,
  ⟨R.NVS_HU_CFG, 1, 0x4, 0, 9, 60, 300⟩,
  ⟨R.NVS_PLS_CFG, 1, 0x4, 0, 7, 0, 100⟩,
  ⟨R.NVS_REC_LEN, 1, 0x4, 0, 32, 0, 4064⟩,
  ⟨R.NVS_REP_CFG, 1, 0x4, 0, 10, 1, 1000⟩,
  ⟨R.SUP_VM_CFG, 1, 0x4, 24, 8, 0, 152⟩,
  ⟨R.SUP_VM_CFG, 1, 0x4, 0, 9, 55, 480⟩,
  ⟨R.SUP_VDRV_CFG, 1, 0x4, 0, 3, 0, 6⟩,
  ⟨R.SUP_HU_CFG, 1, 0x4, 0, 4, 0, 7⟩,
  ⟨R.SUP_PF_CFG, 1, 0x4, 0, 10, 0, 1000⟩,
  ⟨R.SUP_TEMP_CFG, 1, 0x4, 0, 8, 85, 145⟩,
  ⟨R.SUP_WDT_CFG, 1, 0x4, 0, 16, 1, 65535⟩]

/-- All limited fields. -/
def codeRows : List CodeRow := codeRows1 ++ codeRows2 ++ codeRows3

/-- Does the word at offset `a` keep a row's limits? -/
def CodeRow.ok (r : CodeRow) (a : Nat) (w : Word) : Bool :=
  if r.base ≤ a ∧ (a - r.base) % r.stride = 0 ∧ (a - r.base) / r.stride < r.count then
    decide (r.min ≤ bitsOf w r.lo r.len) && decide (bitsOf w r.lo r.len ≤ r.max)
  else true

/-- Reserved codes that depend on the instance or on another field of the register: the short and open modes and the
guard options off the guard axes, DIFF and GAIN of the PMC entries that have none, ERR_EN with no trailing bit, PERIOD 0
with periodic scans, ROOT with priority 0, the boost targets, the ASYM range. -/
def codesSpecial (a : Nat) (w : Word) : Bool :=
  if R.CURn_STANDSTILL 2 ≤ a ∧ a ≤ R.CURn_STANDSTILL 7 ∧ (a - R.CURn_STANDSTILL 0) % 0x100 = 0 then
    decide (bitsOf w 30 2 = 0)
  else if R.CURn_GUARD 2 ≤ a ∧ a ≤ R.CURn_GUARD 7 ∧ (a - R.CURn_GUARD 0) % 0x100 = 0 then decide (w = 0)
  else if R.PMC_CFGe 0 ≤ a ∧ a ≤ R.PMC_CFGe 31 ∧ (a - R.PMC_CFGe 0) % 0x18 = 0 then
    let e := (a - R.PMC_CFGe 0) / 0x18
    (decide (bitsOf w 4 1 = 0) || decide (e ≤ 14 ∧ e % 2 = 0)) && (decide (bitsOf w 0 3 = 0) || decide (e ≤ 15))
  else if R.FBKn_SSI_CFG 0 ≤ a ∧ a ≤ R.FBKn_SSI_CFG 7 ∧ (a - R.FBKn_SSI_CFG 0) % 0x80 = 0 then
    decide (bitsOf w 16 1 = 0) || decide (bitsOf w 12 2 ≠ 0)
  else if a = R.PMC_SCAN_CFG then decide (bitsOf w 0 2 ≠ 2) || decide (bitsOf w 16 16 ≠ 0)
  else if a = R.NET_CFG then decide (bitsOf w 27 1 = 0) || decide (bitsOf w 28 4 ≠ 0)
  else if a = R.SUP_HU_CFG then decide (bitsOf w 24 8 = 0) || decide (16 ≤ bitsOf w 24 8 ∧ bitsOf w 24 8 ≤ 112)
  else if R.NETp_DELAY 0 ≤ a ∧ a ≤ R.NETp_DELAY 2 ∧ (a - R.NETp_DELAY 0) % 0x40 = 0 then
    decide (-1000 ≤ sext 16 (bitsOf w 16 16) ∧ sext 16 (bitsOf w 16 16) ≤ 1000)
  else true

/-- Does a word hold no reserved code of the register at offset `a` (R11)? -/
def codesOk (a : Nat) (w : Word) : Bool := codeRows.all (fun r => r.ok a w) && codesSpecial a w

end Sys2Proof.Machine
end

