-- ==== Sys2Proof/Machine/Crypto.lean ====
section
/-!
DEFINITION. The checks the spec names by their standards: CRC-32 (R52), CRC-8 (R413), SHA-256 and ECDSA P-256 (R51,
R53), AES-128-CMAC (R356). The standards' own algorithms are not printed in the spec (PRESUMED, assumption 5).
-/
namespace Sys2Proof.Machine

/-! ## CRC -/

/-- One bit of the reflected CRC-32. -/
def crc32Bit (c : Nat) : Nat := if c % 2 = 1 then (c / 2) ^^^ 0xEDB88320 else c / 2

/-- One byte of the reflected CRC-32. -/
def crc32Byte (c : Nat) (b : Byte) : Nat :=
  crc32Bit (crc32Bit (crc32Bit (crc32Bit (crc32Bit (crc32Bit (crc32Bit (crc32Bit (c ^^^ b.toNat))))))))

/-- CRC-32 of a byte string (R52). -/
def crc32 (l : List Byte) : Nat := (l.foldl crc32Byte 0xFFFFFFFF) ^^^ 0xFFFFFFFF

/-- One bit of CRC-8, polynomial 0x07. -/
def crc8Bit (c : Nat) : Nat := if 128 ≤ c then ((c * 2) % 256) ^^^ 7 else c * 2

/-- CRC-8 of a byte string, initial value 0xFF (R413). -/
def crc8 (l : List Byte) : Nat :=
  l.foldl (fun c b =>
    crc8Bit (crc8Bit (crc8Bit (crc8Bit (crc8Bit (crc8Bit (crc8Bit (crc8Bit (c ^^^ b.toNat))))))))) 0xFF

/-! ## SHA-256 -/

/-- The round constants. -/
def shaK : List Nat :=
  [0x428a2f98, 0x71374491, 0xb5c0fbcf, 0xe9b5dba5, 0x3956c25b, 0x59f111f1, 0x923f82a4, 0xab1c5ed5,
   0xd807aa98, 0x12835b01, 0x243185be, 0x550c7dc3, 0x72be5d74, 0x80deb1fe, 0x9bdc06a7, 0xc19bf174,
   0xe49b69c1, 0xefbe4786, 0x0fc19dc6, 0x240ca1cc, 0x2de92c6f, 0x4a7484aa, 0x5cb0a9dc, 0x76f988da] ++
  [0x983e5152, 0xa831c66d, 0xb00327c8, 0xbf597fc7, 0xc6e00bf3, 0xd5a79147, 0x06ca6351, 0x14292967,
   0x27b70a85, 0x2e1b2138, 0x4d2c6dfc, 0x53380d13, 0x650a7354, 0x766a0abb, 0x81c2c92e, 0x92722c85,
   0xa2bfe8a1, 0xa81a664b, 0xc24b8b70, 0xc76c51a3, 0xd192e819, 0xd6990624, 0xf40e3585, 0x106aa070] ++
  [0x19a4c116, 0x1e376c08, 0x2748774c, 0x34b0bcb5, 0x391c0cb3, 0x4ed8aa4a, 0x5b9cca4f, 0x682e6ff3,
   0x748f82ee, 0x78a5636f, 0x84c87814, 0x8cc70208, 0x90befffa, 0xa4506ceb, 0xbef9a3f7, 0xc67178f2]

/-- The eight working words. -/
structure Sha8 where
  a : Nat
  b : Nat
  c : Nat
  d : Nat
  e : Nat
  f : Nat
  g : Nat
  h : Nat

/-- Rotation to the right in 32 bits. -/
def rotr (n x : Nat) : Nat := (x / 2 ^ n + x * 2 ^ (32 - n)) % 2 ^ 32

/-- Extend a message schedule kept newest first, `k` more words. -/
def shaSched : Nat → List Nat → List Nat
  | 0, w => w
  | k + 1, w =>
    let w15 := w.getD 14 0
    let w2 := w.getD 1 0
    let s0 := rotr 7 w15 ^^^ rotr 18 w15 ^^^ (w15 / 8)
    let s1 := rotr 17 w2 ^^^ rotr 19 w2 ^^^ (w2 / 1024)
    shaSched k (((w.getD 15 0 + s0 + w.getD 6 0 + s1) % 2 ^ 32) :: w)

/-- One round. -/
def shaRound (t : Sha8) (kw : Nat × Nat) : Sha8 :=
  let s1 := rotr 6 t.e ^^^ rotr 11 t.e ^^^ rotr 25 t.e
  let ch := (t.e &&& t.f) ^^^ ((0xFFFFFFFF - t.e) &&& t.g)
  let t1 := (t.h + s1 + ch + kw.1 + kw.2) % 2 ^ 32
  let s0 := rotr 2 t.a ^^^ rotr 13 t.a ^^^ rotr 22 t.a
  let mj := (t.a &&& t.b) ^^^ (t.a &&& t.c) ^^^ (t.b &&& t.c)
  { a := (t1 + s0 + mj) % 2 ^ 32, b := t.a, c := t.b, d := t.c, e := (t.d + t1) % 2 ^ 32, f := t.e, g := t.f, h := t.g }

/-- The big-endian number of a byte list. -/
def ofBe (l : List Byte) : Nat := l.foldl (fun n b => n * 256 + b.toNat) 0

/-- The big-endian bytes of a number. -/
def beBytes (k n : Nat) : List Byte := (leBytes k n).reverse

/-- Pieces of `n` members, at most `fuel` of them. -/
def piecesOf {α : Type} (n : Nat) : Nat → List α → List (List α)
  | 0, _ => []
  | fuel + 1, l => match l with
    | [] => []
    | _ => l.take n :: piecesOf n fuel (l.drop n)

/-- One 64-byte block. -/
def shaBlock (h : Sha8) (blk : List Byte) : Sha8 :=
  let w0 := ((piecesOf 4 16 blk).map ofBe).reverse
  let w := (shaSched 48 w0).reverse
  let r := (shaK.zip w).foldl shaRound h
  { a := (h.a + r.a) % 2 ^ 32, b := (h.b + r.b) % 2 ^ 32, c := (h.c + r.c) % 2 ^ 32, d := (h.d + r.d) % 2 ^ 32,
    e := (h.e + r.e) % 2 ^ 32, f := (h.f + r.f) % 2 ^ 32, g := (h.g + r.g) % 2 ^ 32, h := (h.h + r.h) % 2 ^ 32 }

/-- The SHA-256 digest, 32 bytes. -/
def sha256 (msg : List Byte) : List Byte :=
  let n := msg.length
  let padded := msg ++ [0x80] ++ List.replicate ((119 - n % 64) % 64) 0 ++ beBytes 8 (n * 8)
  let h0 : Sha8 := ⟨0x6a09e667, 0xbb67ae85, 0x3c6ef372, 0xa54ff53a, 0x510e527f, 0x9b05688c, 0x1f83d9ab, 0x5be0cd19⟩
  let r := (piecesOf 64 (padded.length / 64 + 1) padded).foldl shaBlock h0
  [r.a, r.b, r.c, r.d, r.e, r.f, r.g, r.h].flatMap (beBytes 4)

/-! ## ECDSA P-256 -/

/-- The field prime. -/
def p256P : Nat := 0xffffffff00000001000000000000000000000000ffffffffffffffffffffffff
/-- The group order. -/
def p256N : Nat := 0xffffffff00000000ffffffffffffffffbce6faada7179e84f3b9cac2fc632551
/-- The curve constant b. -/
def p256B : Nat := 0x5ac635d8aa3a93e7b3ebbd55769886bc651d06b0cc53b0f63bce3c3e27d2604b
/-- The base point. -/
def p256G : Nat × Nat :=
  (0x6b17d1f2e12c4247f8bce6e563a440f277037d812deb33a0f4a13945d898c296,
   0x4fe342e2fe1a7f9b8ee7eb4a7c0f9e162bce33576b315ececbb6406837bf51f5)

/-- `b ^ e mod m`, by the low `k` bits of `e`. -/
def powMod (m : Nat) : Nat → Nat → Nat → Nat → Nat
  | 0, _, _, acc => acc
  | k + 1, b, e, acc => powMod m k (b * b % m) (e / 2) (if e % 2 = 1 then acc * b % m else acc)

/-- The inverse modulo a prime. -/
def invMod (m a : Nat) : Nat := powMod m 256 (a % m) (m - 2) 1

/-- Subtraction in the field. -/
def subP (a b : Nat) : Nat := (a + p256P - b % p256P) % p256P

/-- A point in Jacobian coordinates; z = 0 is the neutral point. -/
structure JPoint where
  x : Nat
  y : Nat
  z : Nat

/-- Doubling on a curve with a = -3. -/
def jDouble (p : JPoint) : JPoint :=
  if p.z = 0 ∨ p.y = 0 then ⟨1, 1, 0⟩
  else
    let yy := p.y * p.y % p256P
    let zz := p.z * p.z % p256P
    let s := 4 * p.x * yy % p256P
    let m := 3 * subP p.x zz * ((p.x + zz) % p256P) % p256P
    let x := subP (m * m % p256P) (2 * s)
    ⟨x, subP (m * subP s x % p256P) (8 * (yy * yy % p256P)), 2 * p.y * p.z % p256P⟩

/-- Addition. -/
def jAdd (p q : JPoint) : JPoint :=
  if p.z = 0 then q
  else if q.z = 0 then p
  else
    let z1 := p.z * p.z % p256P
    let z2 := q.z * q.z % p256P
    let u1 := p.x * z2 % p256P
    let u2 := q.x * z1 % p256P
    let s1 := p.y * z2 % p256P * q.z % p256P
    let s2 := q.y * z1 % p256P * p.z % p256P
    if u1 = u2 then (if s1 = s2 then jDouble p else ⟨1, 1, 0⟩)
    else
      let h := subP u2 u1
      let r := subP s2 s1
      let h2 := h * h % p256P
      let h3 := h2 * h % p256P
      let v := u1 * h2 % p256P
      let x := subP (subP (r * r % p256P) h3) (2 * v)
      ⟨x, subP (r * subP v x % p256P) (s1 * h3), p.z * q.z % p256P * h % p256P⟩

/-- Multiple of a point by the low `k` bits of `e`. -/
def jMul : Nat → Nat → JPoint → JPoint → JPoint
  | 0, _, _, acc => acc
  | k + 1, e, p, acc => jMul k (e / 2) (jDouble p) (if e % 2 = 1 then jAdd acc p else acc)

/-- Does (r, s) verify over a digest against the public point (x, y)? -/
def ecdsaOk (digest : List Byte) (r s x y : Nat) : Bool :=
  let onCurve := decide (x < p256P ∧ y < p256P ∧ (y * y) % p256P = subP (x * x % p256P * x % p256P + p256B) (3 * x))
  if r = 0 ∨ p256N ≤ r ∨ s = 0 ∨ p256N ≤ s ∨ !onCurve then false
  else
    let e := ofBe digest
    let w := invMod p256N s
    let o : JPoint := ⟨1, 1, 0⟩
    let q := jAdd (jMul 256 (e * w % p256N) ⟨p256G.1, p256G.2, 1⟩ o) (jMul 256 (r * w % p256N) ⟨x, y, 1⟩ o)
    if q.z = 0 then false
    else
      let zi := invMod p256P q.z
      decide (q.x * (zi * zi % p256P) % p256P % p256N = r)

/-! ## AES-128-CMAC -/

/-- Product by x in the AES field. -/
def xtime (b : Nat) : Nat := if 128 ≤ b then ((b * 2) % 256) ^^^ 0x1b else b * 2

/-- Product in the AES field, by the low `k` bits of `b`. -/
def gmul : Nat → Nat → Nat → Nat
  | 0, _, _ => 0
  | k + 1, a, b => (if b % 2 = 1 then a else 0) ^^^ gmul k (xtime a) (b / 2)

/-- `a ^ 254` in the AES field: the inverse, 0 for 0. -/
def ginv (a : Nat) : Nat :=
  let m := gmul 8
  let a2 := m a a
  let a4 := m a2 a2
  let a8 := m a4 a4
  let a16 := m a8 a8
  let a32 := m a16 a16
  let a64 := m a32 a32
  let a128 := m a64 a64
  m a2 (m a4 (m a8 (m a16 (m a32 (m a64 a128)))))

/-- Rotation to the left of a byte. -/
def rotl8 (k x : Nat) : Nat := (x * 2 ^ k + x / 2 ^ (8 - k)) % 256

/-- The AES substitution of a byte. -/
def aesSub (x : Nat) : Nat :=
  let i := ginv x
  i ^^^ rotl8 1 i ^^^ rotl8 2 i ^^^ rotl8 3 i ^^^ rotl8 4 i ^^^ 0x63

/-- The next round key from the last one. -/
def aesNextKey (rc : Nat) (k : List Nat) : List Nat :=
  let t := [aesSub (k.getD 13 0) ^^^ rc, aesSub (k.getD 14 0), aesSub (k.getD 15 0), aesSub (k.getD 12 0)]
  let w0 := List.zipWith (· ^^^ ·) (k.take 4) t
  let w1 := List.zipWith (· ^^^ ·) ((k.drop 4).take 4) w0
  let w2 := List.zipWith (· ^^^ ·) ((k.drop 8).take 4) w1
  let w3 := List.zipWith (· ^^^ ·) ((k.drop 12).take 4) w2
  w0 ++ w1 ++ w2 ++ w3

/-- ShiftRows on the column-major block. -/
def aesShift (b : List Nat) : List Nat :=
  [0, 5, 10, 15, 4, 9, 14, 3, 8, 13, 2, 7, 12, 1, 6, 11].map fun i => b.getD i 0

/-- MixColumns of one column. -/
def aesMixCol (c : List Nat) : List Nat :=
  let g := fun i => c.getD (i % 4) 0
  (List.range 4).map fun i => xtime (g i) ^^^ (xtime (g (i + 1)) ^^^ g (i + 1)) ^^^ g (i + 2) ^^^ g (i + 3)

/-- The rounds after the first key addition: nine with MixColumns, the last without. -/
def aesRounds : Nat → Nat → List Nat → List Nat → List Nat
  | 0, rc, k, b => List.zipWith (· ^^^ ·) (aesShift (b.map aesSub)) (aesNextKey rc k)
  | n + 1, rc, k, b =>
    let k' := aesNextKey rc k
    let m := (piecesOf 4 4 (aesShift (b.map aesSub))).flatMap aesMixCol
    aesRounds n (xtime rc) k' (List.zipWith (· ^^^ ·) m k')

/-- AES-128 of one block. -/
def aes128 (key blk : List Nat) : List Nat := aesRounds 9 1 key (List.zipWith (· ^^^ ·) blk key)

/-- A subkey of CMAC: doubling in the 128-bit field. -/
def cmacDouble (b : List Nat) : List Nat :=
  let n := b.foldl (fun n x => n * 256 + x) 0
  let d := if 2 ^ 127 ≤ n then ((n * 2) % 2 ^ 128) ^^^ 0x87 else n * 2
  (beBytes 16 d).map (·.toNat)

/-- AES-128-CMAC of a byte string, 16 bytes. -/
def cmac (key : List Byte) (msg : List Byte) : List Byte :=
  let k := key.map (·.toNat)
  let m := msg.map (·.toNat)
  let l := aes128 k (List.replicate 16 0)
  let k1 := cmacDouble l
  let k2 := cmacDouble k1
  let nb := (m.length + 15) / 16
  let full := decide (0 < nb ∧ m.length % 16 = 0)
  let headLen := if nb = 0 then 0 else (nb - 1) * 16
  let last := m.drop headLen
  let lastBlk :=
    if full then List.zipWith (· ^^^ ·) last k1
    else List.zipWith (· ^^^ ·) (last ++ [0x80] ++ List.replicate (15 - last.length) 0) k2
  let c := (piecesOf 16 nb (m.take headLen)).foldl (fun c b => aes128 k (List.zipWith (· ^^^ ·) c b))
    (List.replicate 16 0)
  (aes128 k (List.zipWith (· ^^^ ·) c lastBlk)).map (BitVec.ofNat 8)

end Sys2Proof.Machine
end

