-- ==== Sys2Proof/Machine/Place.lean ====
section
/-!
DEFINITION. The frame builder (R27, R28, R30, R60, R441): divisors, phases, the list schedule, demotion.
-/
namespace Sys2Proof.Machine

/-- A task to place: its place in the task list, class, owner, cycles, dependencies (places in the list), divisor and
phase. -/
structure Item where
  ix : Nat
  cls : Nat
  axis : Nat
  wide : Bool
  divs : Nat
  rank : Nat
  cycles : Nat
  deps : List Nat
  steps : Nat
  div : Nat
  phase : Nat
deriving DecidableEq, Repr

/-- An item with its lane and start. -/
structure Put where
  item : Item
  lane : Nat
  start : Nat
deriving DecidableEq, Repr

/-- Do two tasks run in a common frame of the four-frame pattern? -/
def sharesFrame (d1 p1 d2 p2 : Nat) : Bool :=
  (List.range 4).any fun f => decide (f % d1 = p1 ∧ f % d2 = p2)

/-- Does a task with divisor `d` and phase `p` run in frame `f`? -/
def runsIn (d p f : Nat) : Bool := decide (f % d = p)

/-- The three device tasks of R30. -/
def deviceItems (n : Nat) : List Item :=
  [⟨n, 9, 0, true, 1, 0, 2400, [], 0, 1, 0⟩, ⟨n + 1, 10, 0, true, 1, 0, 2400, [], 0, 1, 0⟩,
   ⟨n + 2, 11, 0, true, 1, 0, 1200, [], 0, 1, 0⟩]

/-- The items of an image's tasks in list order: a dependency names a task id. -/
def imageItems (ts : List TaskDesc) : List Item :=
  (ts.zip (List.range ts.length)).map fun (t, i) =>
    { ix := i, cls := t.cls, axis := t.axis, wide := t.wide, divs := t.divs, rank := t.rank, cycles := t.cycles,
      deps := t.deps.map (fun d => ts.findIdx (fun u => decide (u.id = d))), steps := t.body.length, div := 1,
      phase := 0 }

/-- The smallest divisor a task allows (DIVS, Table 2.9). -/
def smallestDiv (divs : Nat) : Nat :=
  if divs % 2 = 1 then 1 else if divs / 2 % 2 = 1 then 2 else 4

/-- Does a task allow divisor `d`? -/
def allowsDiv (divs d : Nat) : Bool :=
  if d = 1 then decide (divs % 2 = 1) else if d = 2 then decide (divs / 2 % 2 = 1) else decide (divs / 4 % 2 = 1)

/-- The number of device-wide tasks of the same group before the item in the list. -/
def wideIndex (all : List Item) (t : Item) : Nat :=
  (all.filter fun u => u.wide && decide (u.ix < t.ix ∧ u.rank = t.rank ∧ u.cls = t.cls)).length

/-- A task at divisor `d` with the phase of R28. -/
def atDiv (all : List Item) (t : Item) (d : Nat) : Item :=
  { t with div := d, phase := if t.wide then wideIndex all t % d else t.axis % d }

/-- Every task at its smallest divisor (R28 step 1, R60). -/
def startDivs (all : List Item) : List Item := all.map fun t => atDiv all t (smallestDiv t.divs)

/-- Busy cycles of a lane in frame `f`. -/
def laneBusy (placed : List Put) (lane f : Nat) : Nat :=
  (placed.filter fun p => decide (p.lane = lane) && runsIn p.item.div p.item.phase f).foldl
    (fun n p => n + p.item.cycles) 0

/-- Busy cycles of a lane in its heaviest frame. -/
def laneHeavy (placed : List Put) (lane : Nat) : Nat := maxN ((List.range 4).map (laneBusy placed lane))

/-- Are the cycles from `s` free on the lane for the task (R441 step 3)? -/
def freeAt (placed : List Put) (lane : Nat) (t : Item) (s : Nat) : Bool :=
  placed.all fun p =>
    !(decide (p.lane = lane) && sharesFrame p.item.div p.item.phase t.div t.phase &&
      decide (p.start < s + t.cycles ∧ s < p.start + p.item.cycles))

/-- The earliest start of a task on a lane: the end of its dependencies, or the end of a task on the lane after it. -/
def earliestOn (placed : List Put) (lane : Nat) (t : Item) : Nat :=
  let bound := maxN ((placed.filter fun p => t.deps.contains p.item.ix).map fun p => p.start + p.item.cycles)
  let cands := bound :: ((placed.filter fun p => decide (p.lane = lane)).map fun p => p.start + p.item.cycles).filter
    fun e => decide (bound ≤ e)
  match (cands.filter (freeAt placed lane t)) with
  | [] => bound
  | c :: cs => cs.foldl Nat.min c

/-- The lane and start of a task (R441 step 4): the earliest end, then the fewest busy cycles, then the lowest lane. -/
def bestLane (placed : List Put) (t : Item) : Nat × Nat :=
  ([1, 2, 3] : List Nat).foldl (fun b lane =>
    let s := earliestOn placed lane t
    if s < b.2 ∨ (s = b.2 ∧ laneHeavy placed lane < laneHeavy placed b.1) then (lane, s) else b)
    (0, earliestOn placed 0 t)

/-- The next task: of the ready ones the one with the most cycles, the earlier in the list on a tie (R441 step 2). -/
def nextItem (todo : List Item) (placed : List Put) : Option Item :=
  (todo.filter fun t => t.deps.all fun d => placed.any fun p => decide (p.item.ix = d)).foldl
    (fun b t => match b with
      | none => some t
      | some u => if u.cycles < t.cycles then some t else some u) none

/-- The list schedule (R441). -/
def schedule : Nat → List Item → List Put → List Put
  | 0, _, placed => placed
  | k + 1, todo, placed =>
    match nextItem todo placed with
    | none => placed
    | some t =>
      let b := bestLane placed t
      schedule k (todo.filter fun u => decide (u.ix ≠ t.ix)) (placed ++ [⟨t, b.1, b.2⟩])

/-- The makespan of a lane (R27). -/
def laneSpan (placed : List Put) (lane : Nat) : Nat :=
  maxN ((placed.filter fun p => decide (p.lane = lane)).map fun p => p.start + p.item.cycles)

/-- The busy lane cycles of the heaviest frame over the four lanes. -/
def totalLoad (placed : List Put) : Nat :=
  maxN ((List.range 4).map fun f => (laneBusy placed 0 f) + (laneBusy placed 1 f) + (laneBusy placed 2 f) +
    (laneBusy placed 3 f))

/-- Does an arrangement fit (R27)? -/
def fits (c : Nat) (n : Nat) (placed : List Put) : Bool :=
  decide (placed.length = n) && (List.range 4).all fun l => decide (laneSpan placed l ≤ 9 * c / 10)

/-- Place all items. -/
def arrange (items : List Item) : List Put := schedule items.length items []

/-- The demotion groups in order: (RANK, CLASS), RANK from 1, each once (R28 step 2). -/
def groups (items : List Item) : List (Nat × Nat) :=
  (List.range 255).flatMap fun r => (List.range 16).filterMap fun c =>
    if items.any fun t => decide (t.rank = r + 1 ∧ t.cls = c) then some (r + 1, c) else none

/-- A group at divisor `d`: every task of it that allows `d` takes it. -/
def demote (all : List Item) (g : Nat × Nat) (d : Nat) : List Item :=
  all.map fun t => if t.rank = g.1 ∧ t.cls = g.2 ∧ allowsDiv t.divs d then atDiv all t d else t

/-- Try the groups in turn (R28 steps 2 to 4). -/
def tryGroups (c : Nat) : List (Nat × Nat) → List Item → Option (List Put)
  | [], _ => none
  | g :: gs, all =>
    let a2 := demote all g 2
    let p2 := arrange a2
    if fits c a2.length p2 then some p2
    else
      let a4 := demote a2 g 4
      let p4 := arrange a4
      if fits c a4.length p4 then some p4 else tryGroups c gs a4

/-- The first step in table memory of each placed task: on its lane the steps follow one another in order of start, and
step `r` of lane `l` is entry 4r + l. -/
def rowOf (placed : List Put) (p : Put) : Nat :=
  ((placed.filter fun q => decide (q.lane = p.lane) &&
    (decide (q.start < p.start) || decide (q.start = p.start ∧ q.item.ix < p.item.ix))).foldl
      (fun n q => n + q.item.steps) 0)

/-- The placement as the registers report it, in the order of the task list (FRM_PLACE_TASKnn). -/
def report (placed : List Put) (n : Nat) : Placement :=
  let one := fun (i : Nat) => (placed.find? fun p => decide (p.item.ix = i)).map fun p =>
    ({ cls := p.item.cls, axis := p.item.axis, wide := p.item.wide, lane := p.lane, div := p.item.div,
       phase := p.item.phase, start := p.start, cycles := p.item.cycles, row := rowOf placed p,
       steps := p.item.steps } : Placed)
  { tasks := (List.range n).filterMap one, total := totalLoad placed,
    busy := (List.range 4).map (laneHeavy placed), makespan := (List.range 4).map (laneSpan placed),
    demoted := placed.any fun p => decide (1 < p.item.div) }

/-- The builder: the placement of the tasks of a configuration with period `c`, none when it refuses it (R28). -/
def buildPlacement (c : Nat) (ts : List TaskDesc) : Option Placement :=
  let items := imageItems ts ++ deviceItems ts.length
  let first := startDivs items
  let p := arrange first
  if fits c first.length p then some (report p first.length)
  else (tryGroups c (groups first) first).map fun q => report q first.length

end Sys2Proof.Machine
end

