-- ==== Sys2Proof/Machine/Image.lean ====
section
/-!
DEFINITION. The configuration image (chapter 2): its layout, its parts, and the verification stages 1 to 9 of Table 2.16.
A failing check answers the code, the stage and the directory index of the failing section (0xFF: none).
-/
namespace Sys2Proof.Machine

/-- A failing check: code, stage, section. -/
abbrev Fail := Nat × Nat × Nat

/-- Go on where a condition holds, else fail. -/
def need (c : Bool) (f : Fail) : Except Fail Unit := if c then .ok () else .error f

/-- The `k`-byte little-endian number at an offset. -/
def rdN (l : List Byte) (off k : Nat) : Nat := ofLe ((l.drop off).take k)

/-- The bytes at an offset. -/
def slice (l : List Byte) (off k : Nat) : List Byte := (l.drop off).take k

/-- Little-endian words of a byte list, at most `fuel`. -/
def wordsOf : Nat → List Byte → List Word
  | 0, _ => []
  | fuel + 1, l => if l.length < 4 then [] else BitVec.ofNat 32 (ofLe (l.take 4)) :: wordsOf fuel (l.drop 4)

/-- All words of a byte list. -/
def allWords (l : List Byte) : List Word := wordsOf (l.length / 4) l

/-- The bytes of a sparse byte map from `pos` on, `k` of them, in one pass. -/
def densify : Nat → Nat → SMap Byte → List Byte
  | 0, _, _ => []
  | k + 1, pos, m =>
    match m with
    | [] => 0 :: densify k (pos + 1) []
    | (a, b) :: m' => if a = pos then b :: densify k (pos + 1) m' else 0 :: densify k (pos + 1) ((a, b) :: m')

/-- A directory entry (Table 2.3). -/
structure DirEnt where
  typ : Nat
  part : Nat
  flags : Nat
  off : Nat
  len : Nat
deriving DecidableEq, Repr

/-- A parsed image: header fields, directory, header bytes. -/
structure Image where
  format : Nat
  kind : Nat
  mask : Nat
  standstill : Nat
  imageId : Nat
  baseDigest : List Byte
  header : List Byte
  dir : List DirEnt
  bytes : List Byte
deriving DecidableEq, Repr

/-! ## Stages 1 to 3 -/

/-- Stage 1: the header (R48, R67). -/
def stage1 (l : List Byte) : Except Fail Image := do
  let f : Fail := (1, 1, 0xFF)
  let format := rdN l 4 2
  let kind := rdN l 6 1
  let nsec := rdN l 7 1
  let len := rdN l 12 4
  let mask := rdN l 16 2
  need (decide (rdN l 0 4 = 0x4D494B47)) f
  need (decide (format = 3 ∨ format = 2)) f
  need (decide (kind ≤ 1) && (decide (format = 3) || decide (kind = 0))) f
  need (decide (1 ≤ nsec ∧ nsec ≤ 48)) f
  need (decide (rdN l 8 4 = 0x8140)) f
  need (decide (len % 4 = 0 ∧ len ≤ 0x400000 ∧ 68 ≤ len)) f
  need (decide (mask < 512)) f
  need (decide (rdN l 0x13 1 = 0)) f
  let base := slice l 0x20 32
  need (decide (format = 2) || decide (kind = 1) || base.all (fun b => decide (b = 0))) f
  let bytes := l.take len
  let dir := (List.range nsec).map fun i =>
    let o := 0x40 + 12 * i
    ({ typ := rdN bytes o 1, part := rdN bytes (o + 1) 1, flags := rdN bytes (o + 2) 2, off := rdN bytes (o + 4) 4,
       len := rdN bytes (o + 8) 4 } : DirEnt)
  .ok { format := format, kind := kind, mask := mask, standstill := if format = 2 then 0 else rdN l 0x12 1,
        imageId := rdN l 0x14 4, baseDigest := base, header := slice bytes 0 64, dir := dir, bytes := bytes }

/-- Stage 2: the trailing CRC-32 (R52). -/
def stage2 (im : Image) : Except Fail Unit :=
  let n := im.bytes.length
  need (decide (crc32 (im.bytes.take (n - 4)) = rdN im.bytes (n - 4) 4)) (2, 2, 0xFF)

/-- The bytes of a section. -/
def Image.sec (im : Image) (d : DirEnt) : List Byte := slice im.bytes d.off d.len

/-- The directory entries of a partition with their indices. -/
def Image.entries (im : Image) (p : Nat) : List (Nat × DirEnt) :=
  ((List.range im.dir.length).zip im.dir).filter fun e => decide (e.2.part = p)

/-- The first entry of a type in a partition. -/
def Image.find (im : Image) (p typ : Nat) : Option (Nat × DirEnt) :=
  (im.entries p).find? fun e => decide (e.2.typ = typ)

/-- The number of entries of a type in a partition. -/
def Image.count (im : Image) (p typ : Nat) : Nat :=
  ((im.entries p).filter fun e => decide (e.2.typ = typ)).length

/-- Is partition `p` present? -/
def Image.has (im : Image) (p : Nat) : Bool := decide (im.mask / 2 ^ p % 2 = 1)

/-- Are the bytes outside every section, after the directory and before the CRC, zero (R50)? -/
def gapsZero (im : Image) : Bool :=
  let n := im.bytes.length
  let first := 0x40 + 12 * im.dir.length
  let ends := first :: im.dir.map fun d => d.off + d.len
  ends.all fun e =>
    let nexts := (im.dir.filterMap fun d => if e ≤ d.off ∧ 0 < d.len then some d.off else none)
    let next := nexts.foldl Nat.min (n - 4)
    if im.dir.any (fun d => decide (d.off < e ∧ e < d.off + d.len)) then true
    else (slice im.bytes e (next - e)).all fun b => decide (b = 0)

/-- Stage 3: the directory, the placement and the size of the sections (R49, R50, R67). -/
def stage3 (im : Image) : Except Fail Unit := do
  let n := im.bytes.length
  let first := 0x40 + 12 * im.dir.length
  let ix := (List.range im.dir.length).zip im.dir
  let bad := ix.find? fun (i, d) =>
    !(decide (1 ≤ d.typ ∧ d.typ ≤ 6) && (decide (im.format = 3) || decide (d.typ ≠ 6)) &&
      (if d.typ = 6 then decide (d.part = 0xFF ∧ d.len = 68 ∧ i + 1 = im.dir.length) &&
          ix.all (fun (j, e) => decide (j = i) || decide (e.off < d.off))
        else decide (d.part ≤ 8) && im.has d.part) &&
      (decide (d.typ ≠ 1) || decide (d.part = 8 ∧ d.len = 28)) &&
      decide (d.flags = 0 ∧ d.off % 4 = 0 ∧ first ≤ d.off ∧ d.off + d.len ≤ n - 4) &&
      ix.all (fun (j, e) => decide (j = i) || decide (d.off + d.len ≤ e.off ∨ e.off + e.len ≤ d.off)))
  match bad with
  | some (i, _) => .error (3, 3, i)
  | none => do
    need (gapsZero im) (3, 3, 0xFF)
    let axes := (List.range 8).filter im.has
    need (if im.kind = 0 then im.has 8 else !im.has 8 && decide (axes.length = 1)) (3, 3, 0xFF)
    need ((List.range 9).all fun p =>
      if im.has p then
        decide (im.count p 2 = 1 ∧ im.count p 3 = 1 ∧ im.count p 5 = 1 ∧ im.count p 4 ≤ 1) &&
        decide (im.count p 1 = if p = 8 then 1 else 0) &&
        decide (((im.entries p).map (·.2.len)).foldl (· + ·) 0 ≤ if p = 8 then 512 * 1024 else 384 * 1024)
      else true) (3, 3, 0xFF)

/-! ## Digests and signature (R51, R53) -/

/-- The digest of the sections of a partition in directory order; 32 zero bytes for an absent partition. -/
def Image.digest (im : Image) (p : Nat) : List Byte :=
  if im.has p then sha256 ((im.entries p).flatMap fun e => im.sec e.2) else List.replicate 32 0

/-- The manifest: the header and the nine digests. -/
def Image.manifest (im : Image) : List Byte := im.header ++ (List.range 9).flatMap im.digest

/-- The signature section. -/
def Image.sig (im : Image) : Option (List Byte) :=
  (im.dir.find? fun d => decide (d.typ = 6)).map im.sec

/-- Check a manifest and its signature against the key slots (R53): 0, or the refusal code. -/
def sigCheck (manifest : List Byte) (sig : Option (List Byte)) (keys : Vector KeySlot 4) (required : Bool) : Nat :=
  match sig with
  | none => if required then 4 else 0
  | some b =>
    let slot := rdN b 0 1
    let k := keys.toList.getD slot ⟨0, 0, 0⟩
    if 4 ≤ slot ∨ k.st ≠ 1 then 6
    else if ecdsaOk (sha256 manifest) (rdN b 4 32) (rdN b 0x24 32) k.x k.y then 0 else 5

/-- Stage 4: the signature. -/
def stage4 (im : Image) (keys : Vector KeySlot 4) (required : Bool) : Except Fail Unit :=
  let c := sigCheck im.manifest im.sig keys required
  need (decide (c = 0)) (c, 4, if im.sig.isSome then im.dir.length - 1 else 0xFF)

/-! ## Section contents -/

/-- A FABRIC section (Table 2.6): none when the count does not match the length or a word has bits outside its fields. -/
def parseFabric (l : List Byte) : Option (List Route) :=
  match allWords l with
  | [] => none
  | n :: ws =>
    if ws.length = n.toNat ∧ l.length = 4 * (n.toNat + 1) ∧ ws.all (fun w => decide (bitsOf w 0 7 = 0)) then
      some (ws.map fun w => ⟨bitsOf w 20 12, bitsOf w 8 12, decide (bitsOf w 7 1 = 1)⟩)
    else none

/-- The steps of a body: 16-byte groups of words. -/
def parseSteps : Nat → List Word → List MStep
  | 0, _ => []
  | k + 1, l => match l with
    | g :: a :: b :: c :: r => ⟨g, a, b, c⟩ :: parseSteps k r
    | _ => []

/-- One task descriptor at an offset (Table 2.9) and the offset after it. -/
def parseDesc (l : List Byte) (o : Nat) (v2 : Bool) : TaskDesc × Nat × Bool :=
  let nd := rdN l (o + 14) 1
  let ni := rdN l (o + 15) 1
  let dlen := (2 * nd + 3) / 4 * 4
  let bo := rdN l (o + 8) 4
  let bs := rdN l (o + 12) 2
  let io := (List.range ni).map fun i =>
    let w := rdN l (o + 16 + dlen + 4 * i) 4
    ({ write := decide (w / 2 ^ 31 = 1), start := w / 2 ^ 14 % 2 ^ 14, count := w % 2 ^ 14 } : IoEntry)
  let ioOk := (List.range ni).all fun i => decide (rdN l (o + 16 + dlen + 4 * i) 4 / 2 ^ 28 % 8 = 0)
  let owner := rdN l (o + 1) 1
  ({ cls := rdN l o 1, axis := owner % 8, wide := decide (owner / 8 % 2 = 1),
     divs := if v2 then 1 else rdN l (o + 2) 1, rank := if v2 then 0 else rdN l (o + 3) 1, cycles := rdN l (o + 4) 2,
     id := rdN l (o + 6) 2, deps := (List.range nd).map fun i => rdN l (o + 16 + 2 * i) 2, io := io,
     body := parseSteps bs (wordsOf (4 * bs) (slice l bo (16 * bs))) },
   o + 16 + dlen + 4 * ni,
   decide (owner < 16) && ioOk && decide (o + 16 + dlen + 4 * ni ≤ l.length) &&
     decide (bo + 16 * bs ≤ l.length ∧ bo % 4 = 0))

/-- The descriptors in turn. -/
def parseDescs (l : List Byte) (v2 : Bool) : Nat → Nat → Option (List TaskDesc)
  | 0, _ => some []
  | k + 1, o =>
    let (t, o', ok) := parseDesc l o v2
    if ok then (parseDescs l v2 k o').map (t :: ·) else none

/-- A TASKS section. -/
def parseTasks (l : List Byte) (v2 : Bool) : Option (List TaskDesc) :=
  let n := rdN l 0 4
  if l.length < 4 ∨ 64 < n then none else parseDescs l v2 n 4

/-- One microstep table at an offset and the offset after it (R64); none when it breaks a condition. -/
def parseTable (l : List Byte) (o : Nat) : Option (MTable × Nat) :=
  let num := rdN l o 1
  let kind := rdN l (o + 1) 1
  let n := if kind = 0 then 4097 else 32768
  let bytes := slice l (o + 4) (2 * n)
  let vals := (piecesOf 2 n bytes).map fun b => sext 16 (ofLe b)
  let next := o + 4 + 2 * n + (if kind = 0 then 2 else 0)
  if num < 1 ∨ 3 < num ∨ 1 < kind ∨ rdN l (o + 2) 2 ≠ 0 ∨ l.length < next then none
  else if kind = 0 then
    if vals.getD 0 0 = 0 ∧ (vals.zip (vals.drop 1)).all (fun p => decide (p.1 ≤ p.2)) ∧ rdN l (o + 4 + 2 * n) 2 = 0 then
      some (⟨num, kind, vals⟩, next) else none
  else if vals.all (fun v => decide (v ≠ -32768)) then some (⟨num, kind, vals⟩, next) else none

/-- The tables in turn; a number comes once. -/
def parseTables (l : List Byte) : Nat → Nat → Option (List MTable)
  | 0, o => if o = l.length then some [] else none
  | k + 1, o =>
    match parseTable l o with
    | none => none
    | some (t, o') =>
      match parseTables l k o' with
      | none => none
      | some ts => if ts.any (fun u => decide (u.num = t.num)) then none else some (t :: ts)

/-- A MICROSTEP section. -/
def parseMicro (l : List Byte) : Option (List MTable) :=
  let n := rdN l 0 4
  if l.length < 4 ∨ n < 1 ∨ 3 < n then none else parseTables l n 4

/-- The PARAM entries in turn (Table 2.15). -/
def parseParams (v2 : Bool) : Nat → List Word → Option (List ParamEntry)
  | 0, l => if l.isEmpty then some [] else none
  | k + 1, l => match l with
    | [] => none
    | h :: r =>
      let kind := bitsOf h 30 2
      let n := bitsOf h 16 12
      let fl := !v2 && decide (bitsOf h 28 2 ≠ 0)
      if 1 < kind ∨ n = 0 ∨ r.length < n ∨ (kind = 0 ∧ fl) then none
      else (parseParams v2 k (r.drop n)).map
        (⟨decide (kind = 1), !v2 && decide (bitsOf h 29 1 = 1), !v2 && decide (bitsOf h 28 1 = 1), bitsOf h 0 16,
          r.take n⟩ :: ·)

/-- A PARAM section. -/
def parseParam (l : List Byte) (v2 : Bool) : Option (List ParamEntry) :=
  match allWords l with
  | [] => none
  | n :: ws => if l.length % 4 = 0 then parseParams v2 n.toNat ws else none

/-- The DEVICE section (Table 2.4). -/
def parseDevice (l : List Byte) : DevCfg :=
  { cycles := rdN l 0 2, m := (List.range 8).map fun n => rdN l (4 + n) 1,
    offset := (List.range 8).map fun n => rdN l (12 + 2 * n) 2 }

/-! ## Stage 6: the fabric -/

/-- The check of one route of partition `p` (R56): 0, 0x08 CFG_ERR_FABRIC or 0x09 CFG_ERR_OWNERSHIP. -/
def routeCheck (p : Nat) (all : List Route) (r : Route) : Nat :=
  match sinkInfo r.sink, sourceInfo r.src with
  | some (ow, lim), some (kind, sow) =>
    if !sinkAccepts r.sink r.src kind then 8
    else if r.inv ∧ kind ≠ .digital then 8
    else if lim < (all.filter fun q => decide (q.sink = r.sink)).length then 8
    else if 1 < (all.filter fun q => decide (q.sink = r.sink ∧ q.src = r.src)).length then 8
    else if ow ≠ p ∧ !sharedSink r.sink then 9
    else if p < 8 ∧ sow < 8 ∧ sow ≠ p then 9
    else 0
  | _, _ => 8

/-- A GPIO pin is not both a source and an output (Table 2.8). -/
def gpioClash (all : List Route) : Bool :=
  (List.range 8).any fun i => all.any (fun r => decide (r.src = 0x228 + i)) && all.any (fun r => decide (r.sink = 0x500 + i))

/-- The last value a REG entry of the list gives the register at offset `a`. -/
def paramReg (ps : List ParamEntry) (a : Nat) : Option Word :=
  ps.foldl (fun v e =>
    if !e.dmem ∧ e.addr ≤ a ∧ a < e.addr + 4 * e.data.length ∧ (a - e.addr) % 4 = 0 then
      some (e.data.getD ((a - e.addr) / 4) 0) else v) none

/-- The sinks a feedback mode needs (Table 9.1). -/
def modeSinks (n mode : Nat) : List Nat :=
  match mode with
  | 1 => [0x400 + n, 0x408 + n]
  | 2 => [0x10 + n, 0x18 + n]
  | 3 => [0x420 + n, 0x428 + n, 0x430 + n]
  | 4 => [0x418 + n, 0x510 + n]
  | _ => []

/-- R57: the current loops of an axis partition have their feedback routed, and so have the inputs of the feedback mode
of an encoder-based commutation. Registers that the image does not set keep their present values. -/
def routedOk (s : State) (p : Nat) (c : PartCfg) : Bool :=
  let has := fun k => c.routes.any fun r => decide (r.sink = k)
  if 8 ≤ p then true
  else
    c.tasks.all (fun t => (decide (t.cls ≠ 3) || has (2 * p)) && (decide (t.cls ≠ 4) || has (2 * p + 1))) &&
    (let comm := bitsOf ((paramReg c.params (R.CURn_CFG p)).getD (s.rd (R.CURn_CFG p))) 0 2
     let mode := bitsOf ((paramReg c.params (R.FBKn_CFG p)).getD (s.rd (R.FBKn_CFG p))) 0 3
     decide (comm ≠ 1) || (modeSinks p mode).all has)

/-! ## Stage 7: tasks and steps -/

/-- Does an operand selector name a readable place for a task of partition `p` (Tables 2.13, 2.14, R59)? -/
def readOk (p : Nat) (io : List IoEntry) (sel : Nat) : Bool :=
  let i := sel % 2 ^ 14
  match sel / 2 ^ 14 with
  | 0 => decide (i < 16)
  | 1 => mayRead p i && io.any fun e => decide (e.start ≤ i ∧ i < e.start + e.count)
  | _ => true

/-- Is the output-buffer word one of Table 2.14 that partition `p` owns? -/
def obufOwned (p i : Nat) : Bool :=
  if i < 0x40 then decide (i / 8 = p)
  else if i < 0x50 then decide (p = 8)
  else if 0x400 ≤ i ∧ i < 0x1400 then decide (ownerOf (0x1000 + 4 * (i - 0x400)) = p)
  else if 0x2000 ≤ i ∧ i < 0x2800 then decide (p = 8)
  else false

/-- Does a selector name a place that a task of partition `p` may write? -/
def writeOk (p : Nat) (io : List IoEntry) (sel : Nat) : Bool :=
  let i := sel % 2 ^ 14
  match sel / 2 ^ 14 with
  | 0 => decide (i < 16)
  | 1 => decide (dmemOwner i = p) && io.any fun e => e.write && decide (e.start ≤ i ∧ i < e.start + e.count)
  | 3 => obufOwned p i
  | _ => false

/-- May a task of partition `p` write flag `f`? -/
def flagWriteOk (p f : Nat) : Bool := decide (f < 320) && decide (flagOwner f = p)

/-- The rules of Tables 2.11 to 2.13 for one step. -/
def stepOk (p : Nat) (io : List IoEntry) (st : MStep) : Bool :=
  let guard := bitsOf st.g 31 1
  let op := bitsOf st.e0 28 4
  let md := bitsOf st.e0 24 4
  let imm := bitsOf st.e0 0 12
  let a := bitsOf st.e1 16 16
  let b := bitsOf st.e1 0 16
  let d := bitsOf st.e2 16 16
  let fsrc := bitsOf st.e0 21 3
  (if guard = 0 then decide (st.g = 0)
   else decide (bitsOf st.g 21 9 < 320 ∧ 1 ≤ bitsOf st.g 13 8 ∧ bitsOf st.g 0 5 = 0)) &&
  decide (op ≤ 5 ∧ fsrc ≤ 4 ∧ bitsOf st.e2 0 16 = 0) &&
  (decide (fsrc = 0) || flagWriteOk p (bitsOf st.e0 12 9)) &&
  (match op with
   | 1 => decide (imm = 0) && readOk p io a && readOk p io b
   | 2 => decide (md / 4 % 2 = 0 ∧ imm < 64) && writeOk p io d && (decide (md % 4 ≠ 3) || writeOk p io (d + 1))
   | 3 => decide (md = 0 ∧ imm / 4 % 512 = 0) && readOk p io b && writeOk p io d &&
       (decide (imm < 2048) || (decide (a / 2 ^ 14 = 1) && readOk p io a))
   | 4 => decide (md = 0 ∧ imm = 0) && readOk p io a && writeOk p io d
   | 5 => decide (md = 0 ∧ imm < 320) && readOk p io a && readOk p io b && writeOk p io d
   | _ => true)

/-- Lane cycles of a step (R61). -/
def stepCost (st : MStep) : Nat := if bitsOf st.e0 28 4 = 3 then 2 else 1

/-- The worst-case cycles of a list of steps, the longer group of every guard counted (R23, R61); none when a group runs
past the end of its branch. -/
def bodyCost : Nat → List MStep → Option Nat
  | 0, l => if l.isEmpty then some 0 else none
  | fuel + 1, l => match l with
    | [] => some 0
    | st :: r =>
      if bitsOf st.g 31 1 = 0 then (bodyCost fuel r).map (· + stepCost st)
      else
        let tl := bitsOf st.g 13 8
        let al := bitsOf st.g 5 8
        if r.length < tl + al then none
        else
          match bodyCost fuel (r.take tl), bodyCost fuel ((r.drop tl).take al), bodyCost fuel (r.drop (tl + al)) with
          | some x, some y, some z => some (stepCost st + Nat.max x y + z)
          | _, _, _ => none

/-- The tasks each task depends on directly or through others, by `k` rounds of closure. -/
def depClosure (ts : List TaskDesc) : Nat → List Nat → List Nat
  | 0, l => l
  | k + 1, l => depClosure ts k (l ++ (ts.filter fun t => l.contains t.id).flatMap (fun t =>
      t.deps.filter fun d => !l.contains d)).eraseDups

/-- Does one task depend on the other through a chain (R63)? -/
def dependsOn (ts : List TaskDesc) (a b : TaskDesc) : Bool := (depClosure ts ts.length a.deps).contains b.id

/-- The partition of a task. -/
def TaskDesc.partition (t : TaskDesc) : Nat := if t.wide then 8 else t.axis

/-- May task `a` write a word that task `b` may read or write (R63)? An export region is double-buffered against the
readers of other partitions (R59), so it does not count for them. -/
def ioClash (a b : TaskDesc) : Bool :=
  a.io.any fun x => x.write && b.io.any fun y =>
    let lo := Nat.max x.start y.start
    let hi := Nat.min (x.start + x.count) (y.start + y.count)
    (List.range (hi - lo)).any fun k => decide (a.partition = b.partition) || !isExport (lo + k)

/-- The checks of R62 on one task of partition `p`. -/
def taskOk (p : Nat) (all : List TaskDesc) (t : TaskDesc) : Bool :=
  decide ((1 ≤ t.cls ∧ t.cls ≤ 8) ∨ t.cls = 12) &&
  decide (t.wide = decide (p = 8)) && (decide (p = 8) || decide (t.axis = p)) &&
  decide (t.divs < 8 ∧ 0 < t.divs ∧ t.id / 256 = p ∧ 1 ≤ t.body.length ∧ 1 ≤ t.io.length) &&
  (decide (t.cls ≠ 1) || decide (t.divs = 1)) &&
  t.io.all (fun e => decide (1 ≤ e.count ∧ e.start + e.count ≤ 16384)) &&
  decide ((all.filter fun u => decide (u.id = t.id)).length = 1) &&
  t.deps.all (fun d => match all.find? fun u => decide (u.id = d) with
    | none => false
    | some u => decide (u.partition = p ∨ u.partition = 8 ∨ p = 8)) &&
  !(depClosure all all.length t.deps).contains t.id &&
  t.body.all (stepOk p t.io) && (bodyCost (t.body.length + 1) t.body).isSome

/-- The stage 7 check of the tasks of a merged configuration; `secOf p` is the directory index of the TASKS section of
partition `p`. -/
def stage7 (parts : List PartCfg) (present : List Nat) (secOf : Nat → Nat) : Except Fail Unit := do
  let all := parts.flatMap (·.tasks)
  present.forM fun p => do
    let ts := (parts.getD p ⟨false, [], [], [], []⟩).tasks
    need (ts.all (taskOk p all)) (0x0B, 7, secOf p)
    need (ts.all fun t => decide ((bodyCost (t.body.length + 1) t.body).getD 0 ≤ t.cycles)) (0x0D, 7, secOf p)
  need (decide (all.length ≤ 61)) (0x0B, 7, 0xFF)
  need (decide ((all.map (·.body.length)).foldl (· + ·) 0 ≤ 147456)) (0x0B, 7, 0xFF)
  need (all.all fun a => all.all fun b =>
    decide (a.id = b.id) || !ioClash a b || dependsOn all a b || dependsOn all b a) (0x0C, 7, 0xFF)

/-! ## Stage 8: parameters -/

/-- Is the register the upper word of a wide value, whose further bits are ignored on a write (R4)? -/
def wideHi (a : Nat) : Bool :=
  match findRow a with
  | none => false
  | some r =>
    let h := fun (x : Nat) => decide (r.base = x)
    h (R.MOTn_VSTART_HI 0) || h (R.MOTn_VMAX_HI 0) || h (R.MOTn_VBREAK_HI 0) || h (R.MOTn_VSTOP_HI 0) ||
    h (R.MOTn_TARGET_HI 0) || h (R.MOTn_POS_HI 0) || h (R.MOTn_VEL_HI 0) || h (R.MOTn_VTARGET_HI 0) ||
    h (R.MOTn_MODULO_HI 0) || h (R.MOTn_SOFT_MIN_HI 0) || h (R.MOTn_SOFT_MAX_HI 0) || h (R.MOTn_HOME_VEL_HI 0) ||
    h (R.MOTn_HOME_OFFSET_HI 0) || h (R.MOTn_LATCH_HI 0) || h (R.MOTn_GEAR_CHG_POS_HI 0) ||
    h (R.MOTn_GEAR_MASTER_HI 0) || h (R.MOTn_TCMD_TIME_HI 0) || h (R.MOTn_TCMD_ARG_HI 0) || h (R.FBKn_POS_HI 0) ||
    h (R.FBKn_SPEED_HI 0) || h (R.FBKn_INDEX_POS_HI 0) || h (R.OBSn_DEV_REF_HI 0) || h R.NET_TIME_HI ||
    h R.NET_TIME_SET_HI || h R.CAL_SEC_HI || h R.CAL_SET_HI || h R.SYS_SERIAL_HI

/-- May a REG entry of partition `p` give the register at offset `a` the word (R65)? A non-zero NET_HERD_HOST.CAP needs
a herd host task. -/
def regEntryOk (p : Nat) (hostTask : Bool) (a : Nat) (w : Word) : Bool :=
  match findRow a with
  | none => false
  | some r =>
    let m := r.rw ||| r.rwl
    decide (m ≠ 0) && decide (ownerOf a = p) && codesOk a w &&
    (wideHi a || decide (w &&& ~~~ BitVec.ofNat 32 m = 0)) &&
    (decide (a ≠ R.NET_HERD_HOST) || hostTask || decide (bitsOf w 0 5 = 0))

/-- The checks of R65 on the entries of partition `p`. -/
def paramsOk (p : Nat) (hostTask : Bool) (ps : List ParamEntry) : Bool :=
  ps.all fun e =>
    ((List.range e.data.length).zip e.data).all fun (i, w) =>
      if e.dmem then decide (e.addr + i < 16384) && decide (dmemOwner (e.addr + i) = p)
      else regEntryOk p hostTask (e.addr + 4 * i) w

/-! ## Stage 9: the period -/

/-- The period, divisors and offsets (R14, R15, R160), and while the device is numbered the ring's CYCLE_LEN in ns
(R326). -/
def periodOk (d : DevCfg) (cycleLen : Nat) : Bool :=
  decide (8000 ≤ d.cycles ∧ d.cycles ≤ 40000) &&
  ((d.m.zip d.offset).all fun (m, o) =>
    decide (1 ≤ m ∧ m ≤ 16) && decide (d.cycles % m = 0) && decide (o < d.cycles / m)) &&
  decide (d.offset.getD 0 0 = 0) && (decide (cycleLen = 0) || decide (2 * cycleLen % (5 * d.cycles) = 0))

/-! ## The whole -/

/-- An unconfigured partition. -/
def emptyPart : PartCfg := ⟨false, [], [], [], []⟩

/-- Parse the sections of a partition (index, type, bytes), failing at stages 6 to 8 where a section has no reading. -/
def parseSecs (v2 : Bool) (secs : List (Nat × Nat × List Byte)) : Except Fail PartCfg :=
  let find := fun (typ : Nat) => secs.find? fun e => decide (e.2.1 = typ)
  match find 2, find 3, find 5 with
  | some (i2, _, l2), some (i3, _, l3), some (i5, _, l5) =>
    match parseFabric l2 with
    | none => .error (8, 6, i2)
    | some routes =>
      match parseTasks l3 v2 with
      | none => .error (0x0B, 7, i3)
      | some tasks =>
        let micro := match find 4 with
          | none => some []
          | some (_, _, l4) => parseMicro l4
        match micro with
        | none => .error (0x0E, 8, ((find 4).map (·.1)).getD 0xFF)
        | some tables =>
          match parseParam l5 v2 with
          | none => .error (0x0F, 8, i5)
          | some params => .ok ⟨true, routes, tasks, tables, params⟩
  | _, _, _ => .ok emptyPart

/-- Parse the sections of partition `p` of an image. -/
def parsePart (im : Image) (p : Nat) : Except Fail PartCfg :=
  parseSecs (decide (im.format = 2)) ((im.entries p).map fun (i, d) => (i, d.typ, im.sec d))

/-- The stage of a result: a failure of an earlier stage comes first (R72). -/
def firstFail (l : List (Except Fail Unit)) : Except Fail Unit :=
  let fails := l.filterMap fun e => match e with
    | .error f => some f
    | .ok _ => none
  match fails with
  | [] => .ok ()
  | f :: fs => .error (fs.foldl (fun b g => if g.2.1 < b.2.1 then g else b) f)

/-- The unit check of a parse. -/
def voidE {α : Type} : Except Fail α → Except Fail Unit
  | .ok _ => .ok ()
  | .error f => .error f

/-- The value of a parse, the empty partition where it failed. -/
def partOr (e : Except Fail PartCfg) : PartCfg :=
  match e with
  | .ok c => c
  | .error _ => emptyPart

/-- Does some task of partition `a` declare writes to its export words 0x00 to 0x07 (R113)? -/
def exportsDeclared (c : PartCfg) (a : Nat) : Bool :=
  (List.range 8).all fun w => c.tasks.any fun t => t.io.any fun e =>
    e.write && decide (e.start ≤ 0x600 * a + w ∧ 0x600 * a + w < e.start + e.count)

/-- R113: an axis that the image gears to axis `a` of the device needs that axis's export words. -/
def axisSourceOk (parts : List PartCfg) (c : PartCfg) (p : Nat) : Bool :=
  match paramReg c.params (R.MOTn_GEAR_CFG p) with
  | none => true
  | some w =>
    let a := bitsOf w 12 3
    decide (bitsOf w 0 2 ≠ 1) || exportsDeclared (parts.getD a emptyPart) a
end Sys2Proof.Machine
end

