-- ==== Sys2Proof/Machine/Cfg.lean ====
section
/-!
DEFINITION. The configuration loader (R46, R47, R53 to R55, R68 to R77) and the admission of configurations (R29).
-/
namespace Sys2Proof.Machine

/-! ## Loader state -/

/-- CFG_STATUS.LOADER. -/
def State.loader (s : State) : Nat := s.get F.CFG_STATUS_LOADER

/-- The bank in use. -/
def State.activeBank (s : State) : Nat := s.get F.CFG_STATUS_ACTIVE_BANK

/-- The other bank. -/
def State.otherBank (s : State) : Nat := 1 - s.activeBank

/-- The valid bit of a bank. -/
def bankValidFld (b : Nat) : Fld := if b = 0 then F.CFG_STATUS_BANK0_VALID else F.CFG_STATUS_BANK1_VALID

/-- A bank's partitions. -/
def State.bank (s : State) (b : Nat) : Bank := s.cfg.banks.toList.getD b ⟨[], false⟩

/-- Store a bank. -/
def State.setBank (s : State) (b : Nat) (x : Bank) : State :=
  { s with cfg := { s.cfg with banks := s.cfg.banks.setIfInBounds b x } }

/-- An empty bank. -/
def emptyBank : Bank := ⟨List.replicate 9 none, false⟩

/-- Mark the inactive bank invalid and drop its content. -/
def State.dropOther (s : State) : State :=
  (s.put (bankValidFld s.otherBank) 0).setBank s.otherBank emptyBank

/-- Report a result in CFG_RESULT. -/
def State.cfgResult (s : State) (code stage sec : Nat) : State :=
  ((s.put F.CFG_RESULT_CODE code).put F.CFG_RESULT_STAGE stage).put F.CFG_RESULT_SECTION sec

/-- Store the LOADER state. -/
def State.setLoader (s : State) (v : Nat) : State := s.put F.CFG_STATUS_LOADER v

/-- The slot of the PARTIAL_RECONF activity of the open session. -/
def State.partialSlot (s : State) : Option Nat := s.findAct 6 (s.get F.CFG_STATUS_PART_AXIS)

/-- Drop a pending swap: SWAP_PENDING clears and SWAP_CANCELLED is raised (R76). -/
def State.cancelSwap (s : State) : State :=
  if s.cfg.swap.isSome then
    let s1 := s.put F.FRM_STATUS_SWAP_PENDING 0
    ({ s1 with cfg := { s1.cfg with swap := none }, frm := { s1.frm with swapCommit := false } }).raise (evCfg 2)
  else s

/-- Close the session's own state. -/
def State.closeSession (s : State) : State :=
  let s1 := (s.setLoader 0).put F.CFG_STATUS_PART_AXIS 0xF
  { s1 with cfg := { s1.cfg with port := none, img := [], page := none, held := [], ver := none } }

/-- End a session with a refusal (R69, R72, R76, R77): the result is reported, LOAD_REFUSED is raised, a pending swap is
dropped, the inactive bank stays invalid, and a PARTIAL_RECONF activity ends as aborted. -/
def State.endSession (s : State) (code stage sec : Nat) : State :=
  let slot := s.partialSlot
  let s1 := ((s.cfgResult code stage sec).raise (evCfg 1)).cancelSwap
  let s2 := s1.dropOther.closeSession
  match slot with
  | some i => s2.endSlot i true
  | none => s2

/-- End the session whose activity the arbiter aborts (R76): the slot is freed by the arbiter. -/
def State.abortSession (s : State) : State :=
  let s1 := ((s.cfgResult 0x15 0 0xFF).raise (evCfg 1)).cancelSwap
  s1.dropOther.closeSession

/-- Is the write from the port that the session is bound to? -/
def State.bound (s : State) (p : Path) : Bool :=
  match s.cfg.port with
  | some q => decide (portOf q = portOf p)
  | none => false

/-- One page write to the bank: an NV commit of 4,096 bytes (R71). A refusal ends the session with CFG_ERR_NV. -/
def State.pageWrite (s : State) : Bool × State :=
  let r := s.askCommit (blockTime 4096) 0
  if r.1 = 0 then (true, r.2) else (false, r.2.endSession 0x13 0 0xFF)

/-- Page writes of the pages held during a copy, stopping at the first refusal. -/
def writePages : List Nat → State → Bool × State
  | [], s => (true, s)
  | _ :: ps, s =>
    let r := s.pageWrite
    if r.1 then writePages ps r.2 else (false, r.2)

/-! ## Session commands; each answers whether the write was accepted (R11, R68) -/

/-- A refusal with CFG_ERR_BUSY (R68). -/
def State.loadBusy (s : State) : Bool × State := (false, s.cfgResult 0x16 0 0xFF)

/-- A refusal with CFG_ERR_STATE. -/
def State.loadState (s : State) : Bool × State := (false, s.cfgResult 0x17 0 0xFF)

/-- Bind a new session to a port. -/
def State.bindSession (s : State) (p : Path) (loader : Nat) : State :=
  let s1 := s.setLoader loader
  { s1 with cfg := { s1.cfg with port := some p, img := [], page := none, held := [], ver := none } }

/-- OPEN_FULL (R68, R70). -/
def openFull (p : Path) (s : State) : Bool × State :=
  if s.cfg.port.isSome then s.loadBusy
  else (true, (s.dropOther.bindSession p 1).put F.CFG_STATUS_PART_AXIS 0xF)

/-- OPEN_PARTIAL for axis `n` (R68, R70): the arbiter is asked first. -/
def openPartial (p : Path) (n : AxisIx) (s : State) : Bool × State :=
  if s.cfg.port.isSome then s.loadBusy
  else
    match s.claim 6 n.val (requesterOf p s) with
    | (r, none, s1) => (s1.keepResult p r).loadBusy
    | (r, some _, s1) => (true, (((s1.keepResult p r).dropOther.bindSession p 3).put F.CFG_STATUS_PART_AXIS n.val))

/-- The copy of R70 ends: the other partitions stand in the inactive bank and the held pages are written. -/
def partialCopyDone (s : State) : State :=
  if s.loader = 3 then
    let n := s.get F.CFG_STATUS_PART_AXIS
    let b := s.bank s.activeBank
    let parts := (List.range 9).map fun i => if i = n then none else (b.parts.getD i none)
    let s1 := (s.setBank s.otherBank ⟨parts, false⟩).setLoader 2
    let r := s1.pageWrite
    if r.1 then
      let r2 := writePages r.2.cfg.held r.2
      if r2.1 then { r2.2 with cfg := { r2.2.cfg with held := [] } } else r2.2
    else r.2
  else s

/-- The page of an image address. -/
def pageOf (a : Nat) : Nat := a / 4096

/-- Store four bytes in the image space. -/
def State.storeImg (s : State) (a : Nat) (w : Word) : State :=
  let img := SMap.setMany (fun _ => (0 : Byte)) s.cfg.img
    ((List.range 4).map fun i => (a + i, BitVec.ofNat 8 (w.toNat / 2 ^ (8 * i))))
  { s with cfg := { s.cfg with img := img } }

/-- CFG_LOAD_DATA (R68, R71): four bytes at CFG_LOAD_ADDR, which advances. A word outside the held page first writes that
page; during a copy the page is held instead. -/
def loadData (p : Path) (w : Word) (s : State) : Bool × State :=
  if !s.bound p then s.loadBusy
  else if s.loader = 1 ∨ s.loader = 2 ∨ s.loader = 3 then
    let a := s.get F.CFG_LOAD_ADDR_ADDR
    let pg := pageOf (4 * a)
    let go := fun (t : State) =>
      (true, ((t.storeImg (4 * a) w).put F.CFG_LOAD_ADDR_ADDR (a + 1)))
    match s.cfg.page with
    | none => go { s with cfg := { s.cfg with page := some pg } }
    | some q =>
      if q = pg then go s
      else if s.loader = 3 then
        let pages := if s.cfg.held.contains q then s.cfg.held else s.cfg.held ++ [q]
        go { s with cfg := { s.cfg with page := some pg, held := pages } }
      else
        let r := s.pageWrite
        if r.1 then go { r.2 with cfg := { r.2.cfg with page := some pg } } else (false, r.2)
  else s.loadState

/-- CFG_LOAD_ADDR (R68). -/
def loadAddr (p : Path) (w : Word) (s : State) : Bool × State :=
  if s.cfg.port.isSome ∧ !s.bound p then s.loadBusy
  else (true, s.put F.CFG_LOAD_ADDR_ADDR (bitsOf w 2 20))

/-- VERIFY (R72): the page held is written and the stages start. -/
def verifyStart (p : Path) (s : State) : Bool × State :=
  if !s.bound p then (if s.cfg.port.isSome then s.loadBusy else s.loadState)
  else if s.loader = 1 ∨ s.loader = 2 then
    match s.cfg.page with
    | none => (true, s.setLoader 4)
    | some _ =>
      let r := s.pageWrite
      if r.1 then (true, ({ r.2 with cfg := { r.2.cfg with page := none } }).setLoader 4) else (false, r.2)
  else s.loadState

/-! ## Verification -/

/-- The ring's CYCLE_LEN in ns while the device is numbered, 0 otherwise (R326). -/
def State.ringCycle (s : State) : Nat := if s.flag F.NET_NODE_NUMBERED then s.get F.NET_CYCLE_LEN else 0

/-- The digest of the running device partition. -/
def State.runDigest8 (s : State) : List Byte :=
  match (s.bank s.activeBank).parts.getD 8 none with
  | some st => sha256 (st.secs.flatMap (·.2))
  | none => List.replicate 32 0

/-- Stage 5: a partial image belongs to the session's axis and to the running device partition, which does not come from
a version 2 image (R67). -/
def stage5 (s : State) (im : Image) : Except Fail Unit :=
  if im.kind = 0 ∧ s.get F.CFG_STATUS_PART_AXIS = 0xF then .ok ()
  else
    need (decide (im.kind = 1) && decide (im.mask = 2 ^ s.get F.CFG_STATUS_PART_AXIS) &&
      decide (im.baseDigest = s.runDigest8) && decide (s.cfg.run.format ≠ 2)) (7, 5, 0xFF)

/-- Stage 6: the fabric of every present partition (R56, R57, R113); `secOf p` is the directory index of its FABRIC
section. -/
def stage6 (s : State) (parts : List PartCfg) (present : List Nat) (secOf : Nat → Nat) : Except Fail Unit :=
  present.forM fun p => do
    let c := parts.getD p emptyPart
    let sec := secOf p
    match (c.routes.map (routeCheck p c.routes)).find? (fun x => decide (x ≠ 0)) with
    | some code => .error (code, 6, sec)
    | none => do
      need (decide (p < 8) || !gpioClash c.routes) (8, 6, sec)
      need (routedOk s p c && axisSourceOk parts c p) (0x0A, 6, sec)

/-- The configuration that results when the image is loaded: its own partitions, and for a partial image the running
ones beside it. -/
def mergedConfig (s : State) (im : Image) (own : List (Nat × PartCfg)) : Config :=
  let parts := (List.range 9).map fun p =>
    match own.find? fun e => decide (e.1 = p) with
    | some e => e.2
    | none => if im.kind = 0 then emptyPart else s.cfg.run.parts.getD p emptyPart
  if im.kind = 0 then
    { parts := parts, dev := match im.find 8 1 with
        | some (_, d) => parseDevice (im.sec d)
        | none => s.cfg.run.dev,
      format := im.format, imageId := im.imageId, standstill := im.standstill }
  else { s.cfg.run with parts := parts, standstill := im.standstill }

/-- Stage 8: the parameters of every present partition (R65); `secOf p` is the directory index of its PARAM section. -/
def stage8 (parts : List PartCfg) (present : List Nat) (secOf : Nat → Nat) : Except Fail Unit :=
  let hostTask := (parts.getD 8 emptyPart).tasks.any fun t => decide (t.cls = 8) && t.wide
  present.forM fun p =>
    need (paramsOk p hostTask (parts.getD p emptyPart).params) (0x0F, 8, secOf p)

/-- Stages 1 to 10 (R72): the image and the job of its configuration, or the first failing check. -/
def verifyAll (s : State) (bytes : List Byte) : Except Fail (Image × Job) := do
  let im ← stage1 bytes
  stage2 im
  stage3 im
  stage4 im s.cfg.keys (s.flag F.CFG_KEY_STATUS_SIG_REQUIRED)
  stage5 s im
  let present := (List.range 9).filter im.has
  let parsed := present.map fun p => (p, parsePart im p)
  let stage := fun (k : Nat) => firstFail ((parsed.map fun e => voidE e.2).filter fun e => match e with
    | .error f => decide (f.2.1 = k)
    | .ok _ => false)
  let cfg := mergedConfig s im (parsed.map fun e => (e.1, partOr e.2))
  stage 6
  stage6 s cfg.parts present fun p => ((im.find p 2).map (·.1)).getD 0xFF
  stage 7
  stage7 cfg.parts present fun p => ((im.find p 3).map (·.1)).getD 0xFF
  stage 8
  stage8 cfg.parts present fun p => ((im.find p 5).map (·.1)).getD 0xFF
  need (periodOk cfg.dev (if im.kind = 0 then s.ringCycle else 0)) (0x10, 9, ((im.find 8 1).map (·.1)).getD 0xFF)
  match buildPlacement cfg.dev.cycles (cfg.parts.flatMap (·.tasks)) with
  | none => .error (0x11, 10, 0xFF)
  | some pl =>
    .ok (im, { bank := s.otherBank, cfg := cfg, place := pl,
               axis := if im.kind = 0 then none else some (s.get F.CFG_STATUS_PART_AXIS), fallback := false })

/-- The stored form of the partitions of an image, over a bank that holds the copied ones (R54). -/
def storeParts (im : Image) (b : Bank) : Bank :=
  ⟨(List.range 9).map fun p =>
    if im.has p then
      some { secs := (im.entries p).map fun e => (e.2.typ, im.sec e.2), manifest := im.manifest, sig := im.sig }
    else if im.kind = 0 then none else b.parts.getD p none, false⟩

/-- A failed admission (R29): ADMIT_REFUSED in FRM_STATUS and as an event. -/
def State.admitRefused (s : State) : State := (s.put F.FRM_STATUS_ADMIT_REFUSED 1).raise (evFrm 2)

/-- The image bytes of the session: as many as the header's LENGTH names, at most the image space. -/
def State.sessionBytes (s : State) : List Byte :=
  let len := ofLe (densify 4 12 (s.cfg.img.filter fun e => decide (12 ≤ e.1 ∧ e.1 < 16)))
  densify (clampN 0x240 0x400000 len) 0 s.cfg.img

/-- Verification ends (R72). -/
def verifyDone (s : State) : State :=
  if s.loader = 4 then
    match verifyAll s s.sessionBytes with
    | .error (c, st, sec) => (s.when (decide (st = 10)) State.admitRefused).endSession c st sec
    | .ok (im, job) =>
      let b := s.otherBank
      let s1 := (s.setBank b (storeParts im (s.bank b))).put (bankValidFld b) 1
      let s2 := ((s1.setLoader 5).cfgResult 0 0 0xFF).raise (evCfg 0)
      { s2 with cfg := { s2.cfg with ver := some job } }
  else s

/-- ACTIVATE (R73, R74). -/
def activate (p : Path) (s : State) : Bool × State :=
  if !s.bound p then (if s.cfg.port.isSome then s.loadBusy else s.loadState)
  else if s.loader ≠ 5 then s.loadState
  else
    match s.cfg.ver with
    | none => s.loadState
    | some job =>
      match job.axis with
      | none =>
        if s.anyArmed then (false, s.cfgResult 0x12 0 0xFF)
        else
          let s1 := s.closeSession.cfgResult 0 0 0xFF
          (true, { s1 with cfg := { s1.cfg with act := some job } })
      | some n =>
        let s1 := ((s.setLoader 6).put F.FRM_STATUS_SWAP_PENDING 1).put F.FRM_STATUS_SWAP_AXIS n
        (true, { s1 with cfg := { s1.cfg with swap := some job } })

/-- The parsed content of a stored bank (R47): its configuration when every partition passes its digest and signature
check, or the first failing check. -/
def loadBank (s : State) (b : Nat) : Except Fail Config := do
  need (s.flag (bankValidFld b) && !(s.bank b).damaged) (2, 2, 0xFF)
  let parts := (s.bank b).parts
  (List.range 9).forM fun p =>
    match parts.getD p none with
    | none => .ok ()
    | some st => do
      need (decide (sha256 (st.secs.flatMap (·.2)) = slice st.manifest (64 + 32 * p) 32)) (2, 2, 0xFF)
      let c := sigCheck st.manifest st.sig s.cfg.keys (s.flag F.CFG_KEY_STATUS_SIG_REQUIRED)
      need (decide (c = 0)) (c, 4, 0xFF)
  match parts.getD 8 none with
  | none => .error (2, 2, 0xFF)
  | some dev => do
    let parsed := (List.range 9).map fun p =>
      match parts.getD p none with
      | none => .ok emptyPart
      | some st => parseSecs (decide (rdN st.manifest 4 2 = 2)) (st.secs.map fun e => (0xFF, e.1, e.2))
    firstFail (parsed.map voidE)
    let cfgs := parsed.map partOr
    .ok { parts := cfgs,
          dev := match dev.secs.find? fun e => decide (e.1 = 1) with
            | some e => parseDevice e.2
            | none => s.cfg.run.dev,
          format := rdN dev.manifest 4 2, imageId := rdN dev.manifest 0x14 4, standstill := 0 }

/-- A bank at boot (R47): its content also passes the checks of stages 6 to 8 (Table 2.16) again. -/
def bootBank (s : State) (b : Nat) : Except Fail Config := do
  let c ← loadBank s b
  let present := (List.range 9).filter fun p => (c.parts.getD p emptyPart).present
  stage6 s c.parts present fun _ => 0xFF
  stage7 c.parts present fun _ => 0xFF
  stage8 c.parts present fun _ => 0xFF
  .ok c

/-- REVERT (R73): the other bank becomes active at the next frame start, after stages 9 and 10 again. -/
def revert (p : Path) (s : State) : Bool × State :=
  if s.cfg.port.isSome then (if s.bound p then s.loadState else s.loadBusy)
  else if s.anyArmed then (false, s.cfgResult 0x12 0 0xFF)
  else
    match loadBank s s.otherBank with
    | .error _ => s.loadState
    | .ok c =>
      if !periodOk c.dev s.ringCycle then (false, s.cfgResult 0x10 9 0xFF)
      else
        match buildPlacement c.dev.cycles (c.parts.flatMap (·.tasks)) with
        | none => (false, (s.admitRefused).cfgResult 0x11 10 0xFF)
        | some pl =>
          let s1 := s.cfgResult 0 0 0xFF
          (true, { s1 with cfg := { s1.cfg with
            act := some { bank := s.otherBank, cfg := c, place := pl, axis := none, fallback := false } } })

/-- CANCEL (R68, R77): host port H may cancel any session. A swap that the guard stage has committed takes place. -/
def cancelLoad (p : Path) (s : State) : Bool × State :=
  if s.cfg.port.isNone then s.loadState
  else if !(s.bound p || decide (portOf p = 0)) then s.loadBusy
  else if s.frm.swapCommit then s.loadState
  else (true, s.endSession 0x15 0 0xFF)

/-- The binding port has been idle for 60 s (R69). -/
def sessionTimeout (s : State) : State :=
  if s.cfg.port.isSome ∧ (s.loader = 1 ∨ s.loader = 2 ∨ s.loader = 5) then s.endSession 0x15 0 0xFF else s

/-- A pending swap was not possible in time (R76). -/
def swapTimeout (s : State) : State :=
  if s.loader = 6 ∧ !s.frm.swapCommit then s.endSession 0x14 0 0xFF else s

/-- A write of CFG_LOAD_CMD: the command of its code. Other codes, and an axis above 7, are refused (R11). -/
def loadCmd (p : Path) (w : Word) (s : State) : Bool × State :=
  match bitsOf w 0 8 with
  | 1 => openFull p s
  | 2 => if h : bitsOf w 8 8 < 8 then openPartial p ⟨bitsOf w 8 8, h⟩ s else (false, s)
  | 3 => verifyStart p s
  | 4 => activate p s
  | 5 => cancelLoad p s
  | 6 => revert p s
  | _ => (false, s)

/-! ## Key fuses (R53, R55) -/

/-- Does the slot sign a partition of the active bank? -/
def State.signsActive (s : State) (slot : Nat) : Bool :=
  (s.bank s.activeBank).parts.any fun p => match p with
    | some st => match st.sig with
      | some b => decide (rdN b 0 1 = slot)
      | none => false
    | none => false

/-- The state of a key slot. -/
def State.keyState (s : State) (slot : Nat) : Nat := (s.cfg.keys.toList.getD slot ⟨0, 0, 0⟩).st

/-- The point staged in CFG_OTP_DATA. -/
def State.stagedKey (s : State) : Nat × Nat :=
  let ws := s.cfg.otpData.toList
  (ofLe ((ws.take 8).flatMap fun w => leBytes 4 w.toNat), ofLe ((ws.drop 8).flatMap fun w => leBytes 4 w.toNat))

/-- A CFG_OTP_CMD write (R55): refused under its conditions, and while an operation runs; else the operation starts. -/
def otpCmd (key slot op : Nat) (s : State) : Bool × State :=
  let bad := decide (key ≠ 0x5A) || s.anyArmed || s.flag F.SUP_STATUS_VM_FAIL || s.cfg.otpOp.isSome ||
    (match op with
     | 1 => decide (s.keyState slot ≠ 0)
     | 2 => s.signsActive slot
     | 3 => !s.flag F.CFG_STATUS_SIGNED || s.flag F.CFG_KEY_STATUS_SIG_REQUIRED
     | _ => true)
  if bad then (false, s)
  else
    let s1 := s.put F.CFG_KEY_STATUS_OTP_BUSY 1
    (true, { s1 with cfg := { s1.cfg with otpOp := some (op, slot), otpKey := s.stagedKey } })

/-- Store a key slot and report it. -/
def State.setKey (s : State) (slot : Nat) (k : KeySlot) : State :=
  let s1 := { s with cfg := { s.cfg with keys := s.cfg.keys.setIfInBounds slot k } }
  (s1.put ⟨R.CFG_KEY_STATUS, 8 + slot % 4, 1⟩ (b2n (decide (k.st = 1)))).put ⟨R.CFG_KEY_STATUS, 12 + slot % 4, 1⟩
    (b2n (decide (k.st = 2)))

/-- A fuse operation completes (R53): OTP_BUSY clears. -/
def otpDone (s : State) : State :=
  match s.cfg.otpOp with
  | none => s
  | some (op, slot) =>
    let s1 := ({ s with cfg := { s.cfg with otpOp := none } }).put F.CFG_KEY_STATUS_OTP_BUSY 0
    match op with
    | 1 => s1.setKey slot ⟨1, s.cfg.otpKey.1, s.cfg.otpKey.2⟩
    | 2 => s1.setKey slot ⟨2, 0, 0⟩
    | _ => s1.put F.CFG_KEY_STATUS_SIG_REQUIRED 1

/-- A power loss interrupts a programming: the slot is left empty or programmed (R55). -/
def otpInterrupted (s : State) : State :=
  match s.cfg.otpOp with
  | some (1, slot) =>
    let (i, s1) := s.fresh
    let s2 := { s1 with cfg := { s1.cfg with otpOp := none } }
    if Config.otpProgrammed i then s2.setKey slot ⟨1, s.cfg.otpKey.1, s.cfg.otpKey.2⟩ else s2
  | _ => { s with cfg := { s.cfg with otpOp := none } }

/-! ## Boot (R47) -/

/-- Both banks have failed, or one boots: the checks of bank `b`, the fallback to the other bank, and the hand-over to
the frame builder. -/
def bootTry (b : Nat) (s : State) : State :=
  let hand := fun (x : Nat) (fb : Bool) (c : Config) (t : State) =>
    { t with cfg := { t.cfg with boot := some { bank := x, cfg := c, place := ⟨[], 0, [], [], false⟩, axis := none,
                                                fallback := fb } } }
  match bootBank s b with
  | .ok c => hand b false c s
  | .error (x, st, sec) =>
    let s1 := (s.cfgResult x st sec).raise (evCfg 3)
    match bootBank s1 (1 - b) with
    | .ok c => hand (1 - b) true c s1
    | .error (y, st2, sec2) => s1.cfgResult y st2 sec2

/-- The boot configuration has failed (R47): the other bank is tried unless it was the second. -/
def bootNext (job : Job) (s1 : State) : State :=
  if job.fallback then s1
  else
    let s2 := s1.raise (evCfg 3)
    match bootBank s2 (1 - job.bank) with
    | .ok c => { s2 with cfg := { s2.cfg with boot := some { job with bank := 1 - job.bank, cfg := c, fallback := true } } }
    | .error (y, st2, sec2) => s2.cfgResult y st2 sec2

/-- The builder refuses the boot configuration (R29, R47). -/
def bootRefused (job : Job) (s : State) : State := bootNext job ((s.admitRefused).cfgResult 0x11 10 0xFF)

/-- The builder finishes with the configuration handed over at boot (R29): admitted, it takes effect at the next frame
start. -/
def admissionDone (s : State) : State :=
  match s.cfg.boot with
  | none => s
  | some job =>
    let s1 := { s with cfg := { s.cfg with boot := none } }
    if !periodOk job.cfg.dev 0 then bootNext job (s1.cfgResult 0x10 9 0xFF)
    else
      match buildPlacement job.cfg.dev.cycles (job.cfg.parts.flatMap (·.tasks)) with
      | none => bootRefused job s1
      | some pl =>
        let s2 := if job.fallback then s1 else s1.cfgResult 0 0 0xFF
        { s2 with cfg := { s2.cfg with act := some { job with place := pl } } }

/-! ## The rows -/

/-- OPEN_FULL (R70). -/
def execOpenFull (p : Path) (s : State) : Host.Outcome State Fault Refusal := live s fun s => (openFull p s).2

/-- OPEN_PARTIAL (R70): ARG above 7 is refused as in R11. -/
def execOpenPartial (p : Path) (arg : Byte) (s : State) : Host.Outcome State Fault Refusal :=
  live s fun s => if h : arg.toNat < 8 then (openPartial p ⟨arg.toNat, h⟩ s).2 else s

/-- PARTIAL_COPY_DONE (R70). -/
def execPartialCopyDone (s : State) : Host.Outcome State Fault Refusal := live s partialCopyDone

/-- LOAD_DATA (R71). -/
def execLoadData (p : Path) (w : Word) (s : State) : Host.Outcome State Fault Refusal := live s fun s => (loadData p w s).2

/-- VERIFY (R72). -/
def execVerify (p : Path) (s : State) : Host.Outcome State Fault Refusal := live s fun s => (verifyStart p s).2

/-- VERIFY_DONE (R72). -/
def execVerifyDone (s : State) : Host.Outcome State Fault Refusal := live s verifyDone

/-- ACTIVATE (R73, R74). -/
def execActivate (p : Path) (s : State) : Host.Outcome State Fault Refusal := live s fun s => (activate p s).2

/-- REVERT (R73). -/
def execRevert (p : Path) (s : State) : Host.Outcome State Fault Refusal := live s fun s => (revert p s).2

/-- CANCEL (R77). -/
def execCancel (p : Path) (s : State) : Host.Outcome State Fault Refusal := live s fun s => (cancelLoad p s).2

/-- SESSION_TIMEOUT (R69). -/
def execSessionTimeout (s : State) : Host.Outcome State Fault Refusal := live s sessionTimeout

/-- SWAP_TIMEOUT (R76). -/
def execSwapTimeout (s : State) : Host.Outcome State Fault Refusal := live s swapTimeout

/-- PROGRAM_KEY (R55). -/
def execProgramKey (key : Byte) (slot : Fin 4) (s : State) : Host.Outcome State Fault Refusal :=
  live s fun s => (otpCmd key.toNat slot.val 1 s).2

/-- REVOKE_KEY (R55). -/
def execRevokeKey (key : Byte) (slot : Fin 4) (s : State) : Host.Outcome State Fault Refusal :=
  live s fun s => (otpCmd key.toNat slot.val 2 s).2

/-- REQUIRE_SIG (R55). -/
def execRequireSig (key : Byte) (slot : Fin 4) (s : State) : Host.Outcome State Fault Refusal :=
  live s fun s => (otpCmd key.toNat slot.val 3 s).2

/-- OTP_DONE (R53). -/
def execOtpDone (s : State) : Host.Outcome State Fault Refusal := live s otpDone

end Sys2Proof.Machine
end

