-- ==== Sys2Proof/Machine/Csa.lean ====
section
/-!
DEFINITION. Sensing modulators and filter chains (chapter 8): the fast path, the fine path, correction, averaging windows,
invalidating events, DC blocking and offset calibration.
-/
namespace Sys2Proof.Machine

/-! ## Channels -/

/-- Channel `c`. -/
def State.ch (s : State) (c : Nat) : Chan := s.chans.toList.getD c resetChan

/-- Change channel `c`. -/
def State.modCh (s : State) (c : Nat) (f : Chan → Chan) : State :=
  { s with chans := s.chans.setIfInBounds c (f (s.ch c)) }

/-- The axis that owns channel `c` (R2, R203). -/
def chanAxis (c : Nat) : Nat := if c < 16 then c / 2 else (c - 16) / 2

/-- CSA_STATUS.ANA_OK. -/
def State.anaOk (s : State) : Bool := s.flag F.CSA_STATUS_ANA_OK

/-- A result word (R6): DATA is 0 in an invalid result. -/
def resultWord (data : Int) (tag : Nat) (valid chg clip suspect : Bool) : Word :=
  BitVec.ofNat 32 ((if valid then unsext 24 data else 0) * 2 ^ 8 + tag % 16 * 2 ^ 4 + b2n valid * 8 + b2n chg * 4 +
    b2n clip * 2 + b2n suspect)

/-- DATA of a result word. -/
def wordData (w : Word) : Int := sext 24 (bitsOf w 8 24)

/-- VALID, RANGE_CHG and CLIP of a result word. -/
def wordValid (w : Word) : Bool := decide (bitsOf w 3 1 = 1)
/-- RANGE_CHG of a result word. -/
def wordChg (w : Word) : Bool := decide (bitsOf w 2 1 = 1)
/-- CLIP of a result word. -/
def wordClip (w : Word) : Bool := decide (bitsOf w 1 1 = 1)

/-- Outputs taken now carry REF_SUSPECT (R295): the reference has not settled after a change of SEL, or no two references
agree. -/
def State.senseSuspect (s : State) : Bool :=
  (s.pmc.selChange && !s.flag F.PMC_STATUS_REF_READY) || decide (s.get F.PMC_REF_STATUS_STATE = 2)

/-- Channel events: kind 0 CLIP, 4 SETTLED. -/
def evClip (c : Nat) : Ev := ⟨R.CSA_EVT_CLIP, c, 0x20 + c, R.CSA_EVT_ENABLE, 0, .edge⟩
/-- SETTLED of a channel (R214). -/
def evSettled (c : Nat) : Ev := ⟨R.CSA_EVT_SETTLED, c, 0x20 + c, R.CSA_EVT_ENABLE, 4, .always⟩
/-- CM_OUT of a phase channel (R205). -/
def evCmOut (c : Nat) : Ev := ⟨R.CSA_EVT_MISC, c, 0x20 + c, R.CSA_EVT_ENABLE, 1, .edge⟩
/-- DCB_LIMIT of a pair (R223). -/
def evDcbLimit (n : Nat) : Ev := ⟨R.CSA_EVT_MISC, 16 + n, 0x30 + 2 * n, R.CSA_EVT_ENABLE, 2, .always⟩
/-- SYNC_DONE (R217). -/
def evSyncDone : Ev := ⟨R.CSA_EVT_MISC, 24, 0, R.CSA_EVT_ENABLE, 3, .always⟩

/-- Is CM_OUT set? -/
def State.cmOut (s : State) (c : Nat) : Bool := decide (c < 16) && s.flag (F.CSAs_STATUS_CM_OUT c)

/-- Count an output with CLIP = 1 and raise the event. -/
def State.clipped (s : State) (c : Nat) (clip : Bool) : State :=
  if clip then (s.bump (F.CSAs_STATUS_CLIP_CNT c) 1).raise (evClip c) else s

/-! ## Correction and DC blocking (R211, R218) -/

/-- DATA after offset and gain. -/
def correct (raw offset : Int) (gain : Nat) : Int := satS 24 (convDiv ((raw - offset) * gain) (2 ^ 22))

/-- The channel routed to a sine or cosine input. -/
def State.sinkChan (s : State) (k : Nat) : Option Nat := ((s.routesTo k).head?).map (·.src)

/-- Is channel `c` one of the DC-blocking pair of its axis? -/
def State.inPair (s : State) (c : Nat) : Bool :=
  let n := chanAxis c
  decide (16 ≤ c) && (decide (s.sinkChan (0x10 + n) = some c) || decide (s.sinkChan (0x18 + n) = some c))

/-- Subtract the DC estimate while the stage is active. -/
def State.dcBlock (s : State) (c : Nat) (y : Int) : Int :=
  if s.inPair c ∧ s.flag (F.CSA_DCBn_CFG_EN (chanAxis c)) then satS 24 (y - convDiv (s.ch c).est 65536) else y

/-! ## The fast path (R207, R208, R212) -/

/-- The depth of the median: 0, 1 or 2. -/
def medianDepth (m : Nat) : Nat := if m = 0 then 0 else if m = 1 then 1 else 2

/-- The median of the valid values; the mean of the two middle ones for an even number. -/
def medianOf (l : List Int) : Int :=
  let v := sortBy (fun a b => decide (a ≤ b)) l
  let k := v.length
  if k % 2 = 1 then v.getD (k / 2) 0 else convDiv (v.getD (k / 2 - 1) 0 + v.getD (k / 2) 0) 2

/-- A fast sample with the median over the samples before it, newest first: value, validity, clip. -/
def medianSample (d : Nat) (hist : List Sample) : Sample :=
  let win := hist.take (2 * d + 1)
  let centre := hist.getD d ⟨0, false, false⟩
  if d = 0 then centre
  else
    let used := win.filter (·.valid)
    ⟨medianOf (used.map (·.val)), centre.valid, used.any (·.clip)⟩

/-- The left shift into the Q1.25 sum of ±200 mV (R142, R212). -/
def rangeShift (r : Nat) : Nat := r

/-- The range in force. -/
def State.rangeNow (s : State) (c : Nat) : Nat := s.get (F.CSAs_STATUS_RANGE_NOW c)

/-- Add an output to a window. -/
def Window.add (w : Window) (data : Int) (valid chg clip : Bool) : Window :=
  if valid then ⟨w.sum + data, w.cnt + 1, w.clip || clip, w.chg || chg, w.anyChg || chg⟩
  else { w with anyChg := w.anyChg || chg }

/-- A fast-path output: its data, whether it is valid and whether it clipped. -/
structure FastOut where
  data : Int
  valid : Bool
  clip : Bool
deriving DecidableEq, Repr

/-- A fast-path output is formed from the sinc3 value `raw` (R207, R208, R211, R214, R215, R218). -/
def fastOutput (c : Nat) (raw : Int) (clip : Bool) (s : State) : FastOut × State :=
  let ch := s.ch c
  let left := s.get (F.CSAs_STATUS_FAST_LEFT c)
  let d := medianDepth ch.median
  let x : Sample := ⟨satS 24 raw, decide (left ≤ d) && s.anaOk, clip || decide (satS 24 raw ≠ raw) || s.cmOut c⟩
  let hist := (x :: ch.hist).take 5
  let m := medianSample d hist
  let valid := decide (left = 0) && s.anaOk && m.valid
  let chg := s.flag (F.CSAs_STATUS_RANGE_CHG c)
  let data := s.dcBlock c (correct m.val ch.offset ch.gain)
  let inc := if c < 16 then data * (2 ^ rangeShift (s.rangeNow c) : Nat) else data
  let s1 := s.modCh c fun ch =>
    { ch with hist := hist, win := ch.win.add inc valid chg m.clip, outs := ch.outs + 1,
              fastTag := (ch.fastTag + 1) % 16 }
  let s2 := (s1.wr (R.CSAs_FAST c) (resultWord data (ch.fastTag + 1) valid chg m.clip s.senseSuspect)).put
    (F.CSAs_STATUS_FAST_LEFT c) (left - 1)
  (⟨if valid then data else 0, valid, m.clip⟩, s2.clipped c m.clip)

/-! ## The fine path (R209) -/

/-- One half-band output over seven inputs, newest first. -/
def halfBand (h : List Int) : Int :=
  let x := fun i => h.getD i 0
  convDiv (-(x 0) + 9 * x 2 + 16 * x 3 + 9 * x 4 - x 6) 32

/-- A half-band stage over a frame's inputs: the history after them and the outputs at every second input. -/
def hbStage : List Int → List Int → List Int × List Int
  | h, a :: b :: xs =>
    let h1 := (b :: a :: h).take 7
    let r := hbStage h1 xs
    (r.1, halfBand h1 :: r.2)
  | h, _ => (h, [])

/-- The three stages: the histories after the frame and the final output. -/
def fineFilter (hb : List (List Int)) (xs : List Int) : List (List Int) × Int :=
  let a := hbStage (hb.getD 0 []) xs
  let b := hbStage (hb.getD 1 []) a.2
  let c := hbStage (hb.getD 2 []) b.2
  ([a.1, b.1, c.1], c.2.getD 0 0)

/-- A fine result as latched: raw value, its corrected data, validity, clip. -/
structure FineOut where
  raw : Int
  data : Int
  valid : Bool
  clip : Bool
  chg : Bool
deriving DecidableEq, Repr

/-- The fine result of channel `c` at a frame start (R209, R211, R214, R215). -/
def fineResult (c : Nat) (inp : Option FineIn) (s : State) : FineOut × State :=
  let ch := s.ch c
  let xs := (inp.map (·.sinc)).getD [0, 0, 0, 0, 0, 0, 0, 0]
  let r := fineFilter ch.hb xs
  let raw := satS 24 r.2
  let clip := (inp.map (·.clip)).getD false || decide (raw ≠ r.2) || s.cmOut c
  let left := s.get (F.CSAs_STATUS_FINE_LEFT c)
  let valid := decide (left = 0) && s.anaOk
  let chg := s.flag (F.CSAs_STATUS_RANGE_CHG c) && decide (left ≠ 0)
  let data := correct raw ch.offset ch.gain
  let s1 := s.modCh c fun ch => { ch with hb := r.1, fineTag := (ch.fineTag + 1) % 16 }
  let s2 := (s1.wr (R.CSAs_FINE c) (resultWord (s.dcBlock c data) (ch.fineTag + 1) valid chg clip s.senseSuspect)).put
    (F.CSAs_STATUS_FINE_LEFT c) (left - 1)
  let s3 := s2.clipped c clip
  let s4 := if valid ∧ ch.settling then
      (((s3.modCh c fun ch => { ch with settling := false }).put (F.CSAs_STATUS_RANGE_CHG c) 0)).raise (evSettled c)
    else s3
  (⟨raw, if valid then data else 0, valid, clip, chg⟩, s4)

/-! ## The window average (R19, R212) -/

/-- Close the window of a channel: it becomes the latest completed one. -/
def State.closeWindow (s : State) (c : Nat) : State :=
  s.modCh c fun ch => { ch with done := ch.win, win := emptyWindow }

/-- The mean of a window: in the loop basis for a phase channel, in the channel's range otherwise. -/
def windowMean (c : Nat) (w : Window) : Int :=
  if w.cnt = 0 then 0 else convDiv w.sum (if c < 16 then 4 * w.cnt else w.cnt)

/-- The average latched at a frame start. -/
def State.latchAverage (s : State) (c : Nat) : State :=
  let ch := s.ch c
  let w := ch.done
  let valid := decide (0 < w.cnt)
  ((s.modCh c fun ch => { ch with avgTag := (ch.avgTag + 1) % 16 }).wr (R.CSAs_AVG c)
    (resultWord (windowMean c w) (ch.avgTag + 1) valid w.chg w.clip false)).put (F.CSAs_STATUS_NAVG c) (satU 8 w.cnt)

/-! ## Invalidating events (R213 to R217) -/

/-- The counts of an event start (R214); a change of range marks its outputs (R215, R216). -/
def State.startSettle (s : State) (c : Nat) (rangeChanged : Bool) : State :=
  let s1 := s.modCh c fun ch => { ch with settling := true }
  let s2 := (s1.put (F.CSAs_STATUS_FAST_LEFT c) (3 + medianDepth (s.ch c).median)).put (F.CSAs_STATUS_FINE_LEFT c) 6
  if rangeChanged then s2.put (F.CSAs_STATUS_RANGE_CHG c) 1 else s2

/-- A waiting change of RANGE, INPUT or MEDIAN takes effect (R213). -/
def State.applyChange (s : State) (c : Nat) : State :=
  let ch := s.ch c
  if !ch.pending then s
  else
    let r := s.get (F.CSAs_CFG_RANGE c)
    let i := s.get (F.CSAs_CFG_INPUT c)
    let m := s.get (F.CSAs_CFG_MEDIAN c)
    let s1 := (s.modCh c fun ch => { ch with pending := false, median := m, input := i }).put
      (F.CSAs_STATUS_CHG_PENDING c) 0
    if r = s.rangeNow c ∧ i = ch.input ∧ m = ch.median then s1
    else (s1.put (F.CSAs_STATUS_RANGE_NOW c) r).startSettle c (decide (r ≠ s.rangeNow c))

/-- Stage a change for the next frame start. -/
def State.stageChange (s : State) (c : Nat) : State :=
  (s.modCh c fun ch => { ch with pending := true }).put (F.CSAs_STATUS_CHG_PENDING c) 1

/-- A synchronising reset (R217). -/
def State.syncReset (s : State) : State :=
  let s1 := (List.range 32).foldl (fun s c =>
    (s.modCh c fun ch => { ch with hist := [], hb := [[], [], []] }).startSettle c false) s
  (s1.put F.CSA_STATUS_SYNC_PENDING 0).raise evSyncDone

/-- Is the channel claimed by OFFSET_CAL (R226)? -/
def State.chanClaimed (s : State) (c : Nat) : Bool := s.runs 9 c || (s.ch c).cal.isSome

/-- A write of CSAss_CFG (R213, R226): refused whole with a reserved code, while the channel is claimed, and where it
would change INPUT or MEDIAN while the owning axis is armed. -/
def csaCfgWrite (p : Path) (c : Nat) (w : Word) (s : State) : Bool × State :=
  let m := bitsOf w 10 2
  let i := bitsOf w 6 2
  let r := bitsOf w 0 2
  let locked := s.armed (chanAxis c) && !decide (p = .image)
  if m = 3 ∨ r = 3 ∨ s.chanClaimed c ∨
      (locked ∧ (m ≠ s.get (F.CSAs_CFG_MEDIAN c) ∨ i ≠ s.get (F.CSAs_CFG_INPUT c))) then (false, s)
  else
    let ch := s.ch c
    let s1 := ((s.put (F.CSAs_CFG_MEDIAN c) m).put (F.CSAs_CFG_INPUT c) i).put (F.CSAs_CFG_RANGE c) r
    (true, if m = ch.median ∧ i = ch.input ∧ r = s.rangeNow c ∧ !ch.pending then s1 else s1.stageChange c)

/-- A write of CSAss_OFFSET: refused while the channel is claimed. -/
def csaOffsetWrite (c : Nat) (w : Word) (s : State) : Bool × State :=
  if s.chanClaimed c then (false, s) else (true, s.put (F.CSAs_OFFSET_OFFSET c) (bitsOf w 0 24))

/-- A write of CSA_CTRL (R217): accepted at any time. -/
def csaSync (w : Word) (s : State) : State := if bitsOf w 0 1 = 1 then s.put F.CSA_STATUS_SYNC_PENDING 1 else s

/-! ## DC blocking (R219 to R224) -/

/-- π × 10^15. -/
def piScaled : Nat := 3141592653589793

/-- K_MIN (R222): the smallest k with 2π × 2^k × T × FREEZE_SPEED ≥ 256, searched from `k`. -/
def kMinGo (c fs : Nat) : Nat → Nat → Nat
  | 0, k => k
  | f + 1, k => if 256 * 100 * hz * 10 ^ 15 ≤ 2 * piScaled * 2 ^ k * c * fs then k else kMinGo c fs f (k + 1)
where
  /-- Core cycles in a second. -/
  hz : Nat := 400000000

/-- K_EFF of a pair. -/
def State.kEff (s : State) (n : Nat) : Nat :=
  Nat.max (s.get (F.CSA_DCBn_CFG_K n)) (kMinGo (s.get F.FRM_PERIOD_CYCLES) (s.get (F.CSA_DCBn_CFG_FREEZE_SPEED n)) 40 0)

/-- The release hold H in frames (R221). -/
def State.holdFrames (s : State) (n : Nat) : Nat :=
  let d := s.get (F.CSA_DCBn_CFG_FREEZE_SPEED n) * s.get F.FRM_PERIOD_CYCLES
  (100 * 400000000 + d - 1) / d

/-- The clamp of the estimate with 16 fraction bits (R223). -/
def State.estLimit (s : State) (n : Nat) : Int :=
  (2 ^ (23 + 16 - (6 - s.get (F.CSA_DCBn_CFG_LIMIT n))) : Nat)

/-- Show the integer part of an estimate. -/
def State.setEst (s : State) (c : Nat) (e : Int) : State :=
  (s.modCh c fun ch => { ch with est := e }).putS (F.CSAs_DCB_EST_EST c) (e / 65536)

/-- The first of conditions 1 to 4 of R220 that holds. -/
def State.freezeCond (s : State) (n : Nat) (bad : Bool) : Nat :=
  let sp := s.wideS 40 (R.FBKn_SPEED n)
  if !s.flag (F.CSA_DCBn_CFG_EN n) then 1
  else if sp.natAbs * 100 < s.get (F.CSA_DCBn_CFG_FREEZE_SPEED n) * 256 * 4096 then 2
  else if !s.flag (F.FBKn_STATUS_SPD_VALID n) ∨ s.get (F.FBKn_CFG_MODE n) ≠ 2 then 3
  else if bad then 4
  else 0

/-- One channel's update (R219, R223). -/
def State.updateEst (s : State) (n c k : Nat) (y : Int) : State :=
  let e := (s.ch c).est
  let e1 := e + convDiv (y * 65536 - e) (2 ^ k)
  let l := s.estLimit n
  let s1 := s.setEst c (clampI (-l) l e1)
  if e1 < -l ∨ l < e1 then (s1.put (F.CSA_DCBn_STATUS_AT_LIMIT n) 1).raise (evDcbLimit n)
  else if -l < e1 ∧ e1 < l then s1.put (F.CSA_DCBn_STATUS_AT_LIMIT n) 0
  else s1

/-- The DC-blocking stage of pair `n` at a frame start, with the fine results just latched (R219 to R222). -/
def State.dcbFrame (s : State) (n : Nat) (fine : Nat → FineOut) : State :=
  match s.sinkChan (0x10 + n), s.sinkChan (0x18 + n) with
  | some a, some b =>
    let bad := fun c => !(fine c).valid || (fine c).clip || (fine c).chg
    let cond := s.freezeCond n (bad a || bad b)
    let clear := if cond = 0 then s.dcb.getD n 0 + 1 else 0
    let why := if cond ≠ 0 then cond else if clear < s.holdFrames n then 5 else 0
    let k := s.kEff n
    let s1 := { s with dcb := s.dcb.setIfInBounds n (Nat.min clear (s.holdFrames n)) }
    let s2 := ((s1.putB (F.CSA_DCBn_STATUS_FROZEN n) (decide (why ≠ 0))).put (F.CSA_DCBn_STATUS_FREEZE_WHY n) why).put
      (F.CSA_DCBn_STATUS_K_EFF n) k
    if why = 0 then
      (((s2.updateEst n a k (fine a).data).updateEst n b k (fine b).data)).bump (F.CSA_DCBn_STATUS_UPDATES n) 1
    else s2
  | _, _ =>
    ((s.put (F.CSA_DCBn_STATUS_FROZEN n) 1).put (F.CSA_DCBn_STATUS_FREEZE_WHY n) (s.freezeCond n true)).put
      (F.CSA_DCBn_STATUS_K_EFF n) (s.kEff n)

/-- A write of CSAss_DCB_EST (R224): RWL of the axis; the clamp applies to the written value. -/
def dcbEstWrite (p : Path) (c : Nat) (w : Word) (s : State) : Bool × State :=
  let n := chanAxis c
  if c < 16 then (true, s)
  else if s.armed n ∧ p ≠ .image ∧ bitsOf w 0 24 ≠ s.get (F.CSAs_DCB_EST_EST c) then (false, s)
  else
    let e := sext 24 (bitsOf w 0 24) * 65536
    let l := s.estLimit n
    let s1 := s.setEst c (clampI (-l) l e)
    (true, if e < -l ∨ l < e then (s1.put (F.CSA_DCBn_STATUS_AT_LIMIT n) 1).raise (evDcbLimit n)
      else if -l < e ∧ e < l then s1.put (F.CSA_DCBn_STATUS_AT_LIMIT n) 0 else s1)

/-- A write of CSA_DCBn_CFG (R224): reserved codes, EN with an unrouted sink, and a change while the axis is armed are
refused. -/
def dcbCfgWrite (p : Path) (n : Nat) (w : Word) (s : State) : Bool × State :=
  let k := bitsOf w 24 5
  let fs := bitsOf w 0 14
  let w1 := w &&& maskN 31 1 ||| w &&& maskN 22 7 ||| w &&& maskN 0 14
  if k < 12 ∨ 28 < k ∨ fs < 5 ∨ 10000 < fs ∨
      (bitsOf w 31 1 = 1 ∧ !(s.routed (0x10 + n) && s.routed (0x18 + n))) ∨
      (s.armed n ∧ p ≠ .image ∧ w1 ≠ s.rd (R.CSA_DCBn_CFG n)) then (false, s)
  else (true, s.wr (R.CSA_DCBn_CFG n) w1)

/-! ## Offset calibration (R226) -/

/-- A granted OFFSET_CAL starts; CAL_FAIL clears. -/
def State.startOffCal (s : State) (c : Nat) : State :=
  (s.modCh c fun ch => { ch with cal := some ⟨false, 0, 0, false⟩ }).put (F.CSAs_STATUS_CAL_FAIL c) 0

/-- The number of fine results that the run averages. -/
def State.calCount (s : State) : Nat := 2000000 / s.get F.FRM_PERIOD_CYCLES

/-- The run at a frame start: INPUT = ZERO at the first, then the fine results after the settle count. -/
def State.offCalFrame (s : State) (c left : Nat) (f : FineOut) : State :=
  match (s.ch c).cal with
  | none => s
  | some k =>
    if !k.zero then
      (((s.put (F.CSAs_CFG_INPUT c) 1).stageChange c)).modCh c fun ch => { ch with cal := some { k with zero := true } }
    else if left = 0 ∧ k.cnt < s.calCount then
      s.modCh c fun ch => { ch with cal := some { k with sum := k.sum + f.raw, cnt := k.cnt + 1,
                                                         bad := k.bad || f.clip || !f.valid } }
    else s

/-- INPUT = NORMAL again, and the channel is free of its run. -/
def State.endOffCal (s : State) (c : Nat) : State :=
  ((s.put (F.CSAs_CFG_INPUT c) 0).stageChange c).modCh c fun ch => { ch with cal := none }

/-- The run ends: OFFSET takes the mean, or CAL_FAIL sets; INPUT = NORMAL is the event of this frame start (R226). -/
def offsetCalDone (c : Nat) (s : State) : State :=
  match (s.ch c).cal with
  | none => s
  | some k =>
    if k.zero ∧ s.calCount ≤ k.cnt then
      let s1 := if k.bad then s.put (F.CSAs_STATUS_CAL_FAIL c) 1
        else s.putS (F.CSAs_OFFSET_OFFSET c) (convDiv k.sum k.cnt)
      (((s1.endOffCal c).applyChange c)).endAct 9 c
    else s

/-! ## The frame start -/

/-- CSA at a frame start: window averages, fine results, DC blocking, then the correction written since and the
invalidating events that take effect here; none of the events during a debug halt (R213). -/
def State.csaLatch (s : State) (fine : List FineIn) (halted : Bool) : State :=
  let s0 := (List.range 8).foldl (fun s n =>
    if (s.cfg.run.dev.offset.getD n 0) = 0 then
      ((((s.closeWindow (2 * n)).closeWindow (2 * n + 1)).closeWindow (16 + 2 * n))).closeWindow (17 + 2 * n)
    else s) s
  let s1 := (List.range 32).foldl (fun s c => s.latchAverage c) s0
  let step := fun (acc : List FineOut × State) (c : Nat) =>
    let r := fineResult c (fine.find? fun f => decide (f.chan.val = c)) acc.2
    let left := acc.2.get (F.CSAs_STATUS_FINE_LEFT c)
    (acc.1 ++ [r.1], r.2.offCalFrame c left r.1)
  let r := (List.range 32).foldl step ([], s1)
  let s2 := (List.range 8).foldl (fun s n => s.dcbFrame n fun c => r.1.getD c ⟨0, 0, false, false, false⟩) r.2
  let s3 := (List.range 32).foldl (fun s c =>
    s.modCh c fun ch => { ch with offset := s.getS (F.CSAs_OFFSET_OFFSET c), gain := s.get (F.CSAs_GAIN_GAIN c) }) s2
  if halted then s3
  else
    let s4 := (List.range 32).foldl (fun s c => s.applyChange c) s3
    if s4.flag F.CSA_STATUS_SYNC_PENDING then s4.syncReset else s4

/-- The analogue rail enters or leaves regulation (R217, R227, R228): a synchronising reset follows at the first frame
start after it is good. -/
def anaChange (ok : Bool) (s : State) : State :=
  if ok = s.anaOk then s
  else
    let s1 := s.putB F.CSA_STATUS_ANA_OK ok
    if ok then s1.put F.CSA_STATUS_SYNC_PENDING 1 else s1

/-- The common mode has been outside its range for 1 µs (R205). -/
def cmOutSet (c : Nat) (s : State) : State :=
  if c < 16 ∧ !s.flag (F.CSAs_STATUS_CM_OUT c) then (s.put (F.CSAs_STATUS_CM_OUT c) 1).raise (evCmOut c) else s

/-- The common mode has been back inside for 1 µs (R205). -/
def cmOutClear (c : Nat) (s : State) : State := if c < 16 then s.put (F.CSAs_STATUS_CM_OUT c) 0 else s

end Sys2Proof.Machine
end

