-- ==== Sys2Proof/Machine/Trig.lean ====
section
/-!
DEFINITION. Sine and arctangent in fixed point with 64 fraction bits, for the built-in microstep table (R135), the
interpolation of sine and cosine (R235) and the observer (R256 to R258).
-/
namespace Sys2Proof.Machine

/-- 2^64, one in this file's fixed point. -/
def one64 : Nat := 18446744073709551616

/-- π with 64 fraction bits. -/
def pi64 : Nat := 57952155664616982739

/-- Terms `k` and up of the sine series at `x`, where `t` is the term before them. -/
def sinGo : Nat → Nat → Nat → Nat → Nat
  | 0, _, _, _ => 0
  | f + 1, k, x2, t =>
    let u := t * x2 / one64 / ((2 * k) * (2 * k + 1))
    u - sinGo f (k + 1) x2 u

/-- sin x for 0 ≤ x ≤ π/2, both with 64 fraction bits. -/
def sin64 (x : Nat) : Nat := x - sinGo 16 1 (x * x / one64) x

/-- sin of `i` parts of a turn of `n` parts, in the first quadrant. -/
def sinPart (n i : Nat) : Nat := sin64 (2 * pi64 * i / n)

/-- sin of `i` parts of a turn of `n` parts (`n` a multiple of 4), any `i`, with 64 fraction bits. -/
def sinTurn (n : Nat) (i : Nat) : Int :=
  let j := i % n
  let q := n / 4
  if j ≤ q then (sinPart n j : Int)
  else if j ≤ 2 * q then (sinPart n (2 * q - j) : Int)
  else if j ≤ 3 * q then -(sinPart n (j - 2 * q) : Int)
  else -(sinPart n (n - j) : Int)

/-- cos of `i` parts of a turn of `n` parts. -/
def cosTurn (n i : Nat) : Int := sinTurn n (i + n / 4)

/-- The number of parts (of `n` to the turn) nearest the angle of the point (x, y) of the first quadrant: the largest
`m ≤ n / 4` with the angle at `m − ½` parts or above, found by halving. -/
def atanGo (n x y : Nat) : Nat → Nat → Nat
  | 0, m => m
  | k + 1, m =>
    let c := m + 2 ^ k
    if n / 4 < c then atanGo n x y k m
    else if x * sinPart (2 * n) (2 * c - 1) ≤ y * sinPart (2 * n) (n / 2 - (2 * c - 1)) then atanGo n x y k c
    else atanGo n x y k m

/-- The angle of (x, y) in parts of a turn of `n` parts, rounded to the nearest, 0 to n − 1. -/
def atan2Parts (n : Nat) (y x : Int) : Nat :=
  let m := atanGo n x.natAbs y.natAbs 13 0
  (if 0 ≤ x then (if 0 ≤ y then m else n - m) else if 0 ≤ y then n / 2 - m else n / 2 + m) % n

end Sys2Proof.Machine
end

