-- ==== Sys2Proof/Machine/Fbk.lean ====
section
/-!
DEFINITION. Position feedback (chapter 9): the four decoders (R232, R235, R237, R239, R240), index captures (R233, R234), the
reported position (R242, R243), speed (R245, R246), faults (R247, R249) and the frame's part (R238, R244, R250).
-/
namespace Sys2Proof.Machine

/-- Channel `n`. -/
def State.fb (s : State) (n : Nat) : Fbk := s.fbks.toList.getD n restFbk

/-- Change channel `n`. -/
def State.modFb (s : State) (n : Nat) (f : Fbk → Fbk) : State :=
  { s with fbks := s.fbks.setIfInBounds n (f (s.fb n)) }

/-- An FBK event; INDEX, STANDSTILL_IN and STANDSTILL_OUT are never logged (R252). -/
def evFbk (n bit : Nat) : Ev :=
  ⟨R.FBKn_IRQ_STATUS n, bit, 0x10 + n, R.FBKn_IRQ_ENABLE n, bit, if bit = 0 ∨ bit = 4 ∨ bit = 5 then .never else .always⟩

/-- FBKn_CFG.MODE: 0 OFF, 1 QUAD, 2 SINCOS, 3 HALL, 4 SSI. -/
def State.fbMode (s : State) (n : Nat) : Nat := s.get (F.FBKn_CFG_MODE n)

/-- The reported position r. -/
def State.fbPos (s : State) (n : Nat) : Int := s.wideS 48 (R.FBKn_POS n)

/-- A position as a 48-bit value. -/
def wrap48 (x : Int) : Int := sext 48 (unsext 48 x)

/-- The sign that INV gives to every count (R232). -/
def State.fbSign (s : State) (n : Nat) : Int := if s.flag (F.FBKn_CFG_INV n) then -1 else 1

/-! ## Reported position and its history (R242, R245, R246) -/

/-- A change of r dated `t`: the newest change of each frame is kept, 258 of them. -/
def State.dated (s : State) (n t : Nat) (r : Int) : State :=
  s.modFb n fun f =>
    let old := match f.hist with
      | h :: l => if s.now < h.1 then l else h :: l
      | [] => []
    { f with hist := ((t, r) :: old).take 258 }

/-- The raw position becomes `raw` at time `t`; r follows with one count of hysteresis (R242). -/
def State.setRaw (s : State) (n : Nat) (raw : Int) (t : Nat) : State :=
  let r := s.fbPos n
  let d := wrap48 (raw - r)
  let up := s.flag (F.FBKn_STATUS_DIR n)
  let s1 := s.modFb n fun f => { f with raw := wrap48 raw }
  if d = 0 then s1.put (F.FBKn_STATUS_HYST_HOLD n) 0
  else
    let along := decide ((0 < d) = (up = true))
    if s.flag (F.FBKn_CFG_HYST_EN n) ∧ !along ∧ d.natAbs = 1 then s1.put (F.FBKn_STATUS_HYST_HOLD n) 1
    else
      let s2 := (((s1.put (F.FBKn_STATUS_HYST_HOLD n) 0).putB (F.FBKn_STATUS_DIR n) (decide (0 < d))).putWideS 48
        (R.FBKn_POS n) raw).dated n t (wrap48 raw)
      if s.flag (F.FBKn_STATUS_STANDSTILL n) then (s2.put (F.FBKn_STATUS_STANDSTILL n) 0).raise (evFbk n 5) else s2

/-- The channel enters standstill: speed 0, not valid (R246). -/
def State.fbStill (s : State) (n : Nat) : State :=
  let s1 := ((s.putWide 40 (R.FBKn_SPEED n) 0).put (F.FBKn_STATUS_SPD_VALID n) 0).put (F.FBKn_STATUS_STANDSTILL n) 1
  s1.raiseIf (!s.flag (F.FBKn_STATUS_STANDSTILL n)) (evFbk n 4)

/-- The speed history restarts. -/
def State.fbRestart (s : State) (n : Nat) : State := (s.modFb n fun f => { f with hist := [] }).fbStill n

/-! ## Faults (R247) -/

/-- An occurrence of fault `b` of Table 9.6. -/
def State.fbFault (s : State) (n b : Nat) : State :=
  let s1 := (s.bump (F.FBKn_ERR_CNT_COUNT n) 1).put ⟨R.FBKn_FAULT n, b, 1⟩ 1
  let s2 := if b = 0 ∨ b = 2 ∨ b = 5 then s1.put (F.FBKn_STATUS_REF n) 0 else s1
  if s.flag ⟨R.FBKn_FAULT_MASK n, b, 1⟩ then
    let s3 := if s.flag (F.FBKn_STATUS_FAULT n) then s2
      else (s2.put (F.FBKn_STATUS_FAULT n) 1).put (F.FBKn_FAULT_FIRST n) (b + 1)
    ((s3.put (F.FBKn_STATUS_POS_VALID n) 0).put (F.FBKn_STATUS_SPD_VALID n) 0).raise (evFbk n 1)
  else s2.raise (evFbk n 2)

/-- A condition fault begins (AMP, HALL_INVALID, SSI_TIMING, NO_SIGNAL). -/
def State.fbCond (s : State) (n b : Nat) : State :=
  if (s.fb n).conds.testBit b then s else (s.modFb n fun f => { f with conds := f.conds ||| 2 ^ b }).fbFault n b

/-- A condition fault ends. -/
def State.fbCondEnd (s : State) (n b : Nat) : State :=
  s.modFb n fun f => { f with conds := if f.conds.testBit b then f.conds - 2 ^ b else f.conds }

/-- A write of 1 to bits of FBKn_FAULT (R249). -/
def fbFaultClear (n : Nat) (w : Word) (s : State) : State :=
  let had := s.get (F.FBKn_FAULT_FAULTS n)
  let left := (List.range 12).foldl (fun m b =>
    if w.getLsbD b ∧ m.testBit b ∧ !(s.fb n).conds.testBit b then m - 2 ^ b else m) had
  let s1 := s.put (F.FBKn_FAULT_FAULTS n) left
  if had ≠ 0 ∧ left = 0 then
    let s2 := (s1.put (F.FBKn_STATUS_FAULT n) 0).put (F.FBKn_FAULT_FIRST n) 0
    ((s2.modFb n fun f => { f with prevIndex := none, checkJump := false }).fbRestart n).raise (evFbk n 3)
  else s1

/-! ## Incremental A/B/Z (R232 to R234) -/

/-- The place of (A, B) in the order 00, 10, 11, 01. -/
def quadPlace (a b : Bool) : Nat := if a then (if b then 2 else 1) else if b then 3 else 0

/-- The count of a legal transition by QUAD_X. -/
def quadCount (x : Nat) (a0 b0 a1 b1 : Bool) : Int :=
  let up := decide ((quadPlace a1 b1 + 4 - quadPlace a0 b0) % 4 = 1)
  let one : Int := if up then 1 else -1
  if x = 0 then one
  else if x = 1 then (if a0 ≠ a1 then one else 0)
  else if !b0 ∧ !b1 then one
  else 0

/-- An accepted change of A or B to the levels (a, b) at core cycle `cyc` of the frame. -/
def quadTransition (n : Nat) (a b : Bool) (cyc : Nat) (s : State) : State :=
  let old := (s.fb n).ab
  let s1 := (s.at cyc).modFb n fun f => { f with ab := (a, b) }
  if s.fbMode n ≠ 1 then s1
  else if old.1 ≠ a ∧ old.2 ≠ b then s1.fbFault n 0
  else if old = (a, b) then s1
  else
    let d := s.fbSign n * quadCount (s.get (F.FBKn_CFG_QUAD_X n)) old.1 old.2 a b
    if d = 0 then s1 else s1.setRaw n ((s.fb n).raw + d) (s.now + cyc)

/-- The index check (R234). -/
def State.indexCheck (s : State) (n : Nat) (r : Int) : State :=
  let per := s.get (F.FBKn_INDEX_CHK_PERIOD n)
  let tol := s.get (F.FBKn_INDEX_CHK_TOL n)
  match (s.fb n).prevIndex with
  | some p =>
    let d := (wrap48 (r - p)).natAbs
    if per ≠ 0 ∧ tol < d ∧ (tol < (if per ≤ d then d - per else per - d)) then s.fbFault n 1 else s
  | none => s

/-- An index event at core cycle `cyc` of the frame (R233); a homing run takes its time (R108). -/
def indexEvent (n cyc : Nat) (s : State) : State :=
  if s.fbMode n ≠ 1 ∧ s.fbMode n ≠ 2 then s
  else
    let r := s.fbPos n
    let s1 := (((s.at cyc).putWideS 48 (R.FBKn_INDEX_POS n) r).put (F.FBKn_INDEX_FRAME_FRAME n) s.frame).put
      (F.FBKn_INDEX_CYC_CYCLE n) cyc
    let s2 := ((s1.bump (F.FBKn_INDEX_CYC_INDEX_CNT n) 1).modFb n fun f => { f with newIndex := true }).raise (evFbk n 0)
    let s3 := (s2.indexCheck n r).modFb n fun f => { f with prevIndex := some r }
    s3.modAx n fun a => { a with index := some ((s.now + cyc : Nat) : Int) }

/-! ## Sine and cosine (R235, R236) -/

/-- The value nearest `base` that is `phi` modulo 4,096. -/
def nearestAngle (base : Int) (phi : Int) : Int := base + ((phi - base + 2048) % 4096 - 2048)

/-- The step between two angles, −2,048 to 2,047. -/
def angleStep (a b : Nat) : Int := ((b : Int) - a + 2048) % 4096 - 2048

/-- A usable pair with angle `phi` at time `t`. -/
def State.usablePair (s : State) (n phi t : Nat) : State :=
  let f := s.fb n
  let s1 := ((s.put (F.FBKn_STATUS_AMP_BAD n) 0).fbCondEnd n 3).fbCondEnd n 11
  let s2 := s1.modFb n fun f => { f with ampRun := 0, pairSeen := true, angle := some phi }
  match f.angle with
  | none =>
    match f.restore with
    | some (p, ref) =>
      let r := wrap48 (nearestAngle p (s.fbSign n * phi))
      (((s2.modFb n fun f => { f with raw := r, restore := none }).putWideS 48 (R.FBKn_POS n) r)).putB
        (F.FBKn_STATUS_REF n) ref
    | none => s2
  | some old =>
    let d := angleStep old phi
    if 1024 < d.natAbs then s2.fbFault n 2
    else if d = 0 then s2
    else s2.setRaw n (f.raw + s.fbSign n * d) t

/-- A pair of outputs (s, c) at time `t` (R235, R236). -/
def State.sincosPair (s : State) (n : Nat) (sn cs : Int) (valid clip : Bool) (t : Nat) : State :=
  if !valid then s
  else
    let a := satU 16 (convDiv (rsqrt (sn * sn + cs * cs).toNat) 256).toNat
    let s1 := (s.put (F.FBKn_AMP_AMP_NOW n) a).put (F.FBKn_AMP_AMP_MIN n) (Nat.min a (s.get (F.FBKn_AMP_AMP_MIN n)))
    if !clip ∧ s.get (F.FBKn_AMP_CFG_AMP_LO n) ≤ a ∧ a ≤ s.get (F.FBKn_AMP_CFG_AMP_HI n) then
      s1.usablePair n (atan2Parts 4096 sn cs) t
    else s1.modFb n fun f => { f with ampRun := satU 16 (f.ampRun + 1) }

/-- A fast output of a sine or cosine channel: with its partner of the same instant it makes a pair. -/
def State.sincosOutput (s : State) (c : Nat) (o : FastOut) (t : Nat) : State :=
  let n := chanAxis c
  let isSin := decide (s.sinkChan (0x10 + n) = some c)
  let isCos := decide (s.sinkChan (0x18 + n) = some c)
  if s.fbMode n ≠ 2 ∨ (!isSin ∧ !isCos) then s
  else
    let k := (s.ch c).outs
    match (s.fb n).half with
    | some (hs, hk, d, v, cl) =>
      if hs ≠ isSin ∧ hk = k then
        let sn := if isSin then o.data else d
        let cs := if isSin then d else o.data
        (s.modFb n fun f => { f with half := none }).sincosPair n sn cs (v && o.valid) (cl || o.clip) t
      else s.modFb n fun f => { f with half := some (isSin, k, o.data, o.valid, o.clip) }
    | none => s.modFb n fun f => { f with half := some (isSin, k, o.data, o.valid, o.clip) }

/-- AMP_CNT pairs in a row outside the window (R236). -/
def ampBad (n : Nat) (s : State) : State :=
  if s.fbMode n = 2 ∧ s.get (F.FBKn_CFG_AMP_CNT n) ≤ (s.fb n).ampRun ∧ !s.flag (F.FBKn_STATUS_AMP_BAD n) then
    ((s.put (F.FBKn_STATUS_AMP_BAD n) 1).put (F.FBKn_STATUS_SPD_VALID n) 0).fbCond n 3
  else s

/-- Eight frames without a usable pair (R235). -/
def noSignal (n : Nat) (s : State) : State :=
  if s.fbMode n = 2 ∧ 8 ≤ (s.fb n).idleFrames then s.fbCond n 11 else s

/-! ## Hall sensors (R237) -/

/-- The sector of (U, V, W) (Table 9.2). -/
def hallSector (u v w : Bool) : Option Nat :=
  match u, v, w with
  | true, false, false => some 0
  | true, true, false => some 1
  | false, true, false => some 2
  | false, true, true => some 3
  | false, false, true => some 4
  | true, false, true => some 5
  | _, _, _ => none

/-- An accepted Hall state at core cycle `cyc` of the frame. -/
def hallChange (n : Nat) (u v w : Bool) (cyc : Nat) (s : State) : State :=
  if s.fbMode n ≠ 3 then s.at cyc
  else match hallSector u v w with
    | none => (s.at cyc).put (F.FBKn_STATUS_HALL_SECTOR n) 7
    | some k =>
      let f := s.fb n
      let s1 := (((s.at cyc).put (F.FBKn_STATUS_HALL_SECTOR n) k).fbCondEnd n 4).modFb n fun f => { f with sector := some k }
      match f.sector with
      | none => s1
      | some p =>
        match (k + 6 - p) % 6 with
        | 0 => s1
        | 1 => s1.setRaw n (f.raw + s.fbSign n) (s.now + cyc)
        | 5 => s1.setRaw n (f.raw - s.fbSign n) (s.now + cyc)
        | _ => s1.fbFault n 5

/-- A state 000 or 111 has lasted 1 µs (R237). -/
def hallInvalid (n : Nat) (s : State) : State :=
  if s.fbMode n = 3 ∧ s.get (F.FBKn_STATUS_HALL_SECTOR n) = 7 then s.fbCond n 4 else s

/-! ## SSI (R238 to R241) -/

/-- EVERY in frames. -/
def ssiEvery (cfg : Word) : Nat := 2 ^ bitsOf cfg 22 2

/-- N: the frame bits of a transfer (R238). -/
def ssiBits (cfg : Word) : Nat :=
  bitsOf cfg 8 2 + bitsOf cfg 0 6 + bitsOf cfg 12 2 + (if bitsOf cfg 18 2 = 0 then 0 else 1)

/-- Does a transfer fit at a frame of `c` cycles (R241), in half nanoseconds? -/
def ssiFits (cfg tim : Word) (c : Nat) : Bool :=
  decide ((2 * ssiBits cfg + 1) * bitsOf tim 0 8 * 50 + bitsOf tim 8 6 * 50 + bitsOf tim 16 6 * 2000 ≤ ssiEvery cfg * c * 5)

/-- Do the codes of FBKn_SSI_CFG hold (reserved codes of R11)? -/
def ssiCfgOk (w : Word) : Bool :=
  decide (8 ≤ bitsOf w 0 6 ∧ bitsOf w 0 6 ≤ 40 ∧ bitsOf w 18 2 ≠ 3 ∧ ¬(bitsOf w 16 1 = 1 ∧ bitsOf w 12 2 = 0))

/-- The codes of FBKn_SSI_TIMING. -/
def ssiTimOk (w : Word) : Bool :=
  decide (2 ≤ bitsOf w 0 8 ∧ bitsOf w 0 8 ≤ 200 ∧ 1 ≤ bitsOf w 16 6)

/-- The number a list of bits spells, most significant first. -/
def ofBits (l : List Bool) : Nat := l.foldl (fun v b => 2 * v + b2n b) 0

/-- Gray code to binary, most significant bit first. -/
def grayBits : Bool → List Bool → List Bool
  | _, [] => []
  | p, b :: l => (p != b) :: grayBits (p != b) l

/-- The running transfer ends: `line` is the data line at the first falling edge, `bits` the frame bits (R239, R240). -/
def ssiDone (n : Nat) (line : Bool) (bits : List Bool) (s : State) : State :=
  match (s.fb n).transfer with
  | none => s
  | some t =>
    let cfg := s.rd (R.FBKn_SSI_CFG n)
    let lead := bitsOf cfg 8 2
    let k := bitsOf cfg 0 6
    let trail := bitsOf cfg 12 2
    let data := (bits.drop lead).take k
    let err := bits.getD (lead + k) false
    let par := bits.getD (lead + k + trail) false
    let odd := data.foldl (· != ·) par
    let v := ofBits (if bitsOf cfg 20 1 = 1 then grayBits false data else data)
    let ext := decide (bitsOf cfg 21 1 = 1)
    let lim := s.get (F.FBKn_SSI_JUMP_LIMIT n)
    let f := s.fb n
    let diff : Int := match f.value with
      | some p => if ext then sext k (unsext k ((v : Int) - p)) else (v : Int) - p
      | none => 0
    let s1 := (s.wr (R.FBKn_SSI_RAW n) (BitVec.ofNat 32 (ofBits bits))).modFb n fun f => { f with transfer := none }
    if s.fbMode n ≠ 4 then s1
    else if !line then s1.fbFault n 6
    else if bitsOf cfg 16 1 = 1 ∧ b2n err = bitsOf cfg 17 1 then s1.fbFault n 7
    else if (bitsOf cfg 18 2 = 1 ∧ odd) ∨ (bitsOf cfg 18 2 = 2 ∧ !odd) then s1.fbFault n 8
    else if lim ≠ 0 ∧ f.checkJump ∧ lim < diff.natAbs then s1.fbFault n 9
    else
      let raw := if ext ∧ f.value.isSome then f.raw + s.fbSign n * diff else s.fbSign n * v + f.offset
      let s2 := s1.modFb n fun f => { f with value := some v, checkJump := true }
      let s3 := if s.flag (F.FBKn_STATUS_FAULT n) then s2 else s2.put (F.FBKn_STATUS_POS_VALID n) 1
      s3.setRaw n raw t

/-! ## Speed (R245) -/

/-- The newest change dated at or before `t`. -/
def changeAt (hist : List (Nat × Int)) (t : Nat) : Option (Nat × Int) := hist.find? fun h => decide (h.1 ≤ t)

/-- Counts per second in Q32.8 of `d` counts in `t` core cycles. -/
def countSpeed (d : Int) (t : Nat) : Int := convDiv (d * 256 * 400000000) t

/-- The speed at the frame start, and whether there is one; a change still alone in its window keeps the last speed and
limits it to one count in the time since. -/
def State.fbSpeed (s : State) (n : Nat) : Option Int :=
  let tF := s.now
  let quiet := s.get (F.FBKn_SPEED_CFG_STANDSTILL_TO n) * 400000
  let w := 2 ^ s.get (F.FBKn_SPEED_CFG_WIN n) * s.period
  let recent := fun (h : Nat × Int) => decide (tF ≤ h.1 + quiet)
  match changeAt (s.fb n).hist tF, (if w ≤ tF then changeAt (s.fb n).hist (tF - w) else none) with
  | some b, some a =>
    if !recent a ∨ !recent b then none
    else
      let age := tF - b.1
      let limit := fun (v : Int) =>
        let one := if age = 0 then v.natAbs else (countSpeed 1 age).toNat
        if v.natAbs ≤ one then v else if 0 < v then (one : Int) else -(one : Int)
      if a.1 < b.1 then
        let d := wrap48 (b.2 - a.2)
        let v := if d = 0 then 0 else countSpeed d (b.1 - a.1)
        some (if (b.1 - a.1) < age * d.natAbs then limit v else v)
      else if s.flag (F.FBKn_STATUS_SPD_VALID n) then some (limit (s.wideS 40 (R.FBKn_SPEED n)))
      else none
  | _, _ => none

/-! ## The frame (R238, R241, R244, R250) -/

/-- Has the mode a position to show? -/
def State.fbHasPos (s : State) (n : Nat) : Bool :=
  match s.fbMode n with
  | 1 => true
  | 2 => (s.fb n).angle.isSome
  | 3 => true
  | 4 => (s.fb n).value.isSome
  | _ => false

/-- Restore r and REF at the first frame of the image's mode (R250). -/
def State.fbRestore (s : State) (n : Nat) : State :=
  match (s.fb n).restore with
  | some (p, ref) =>
    if s.fbMode n = 1 ∨ s.fbMode n = 3 ∨ s.fbMode n = 4 then
      ((s.modFb n fun f => { f with restore := none, raw := p }).putWideS 48 (R.FBKn_POS n) p).putB (F.FBKn_STATUS_REF n) ref
    else s
  | none => s

/-- Channel `n` at a frame start: restore, validity, speed, the pairs seen, the next transfer. -/
def State.fbFrame (s : State) (n : Nat) : State :=
  let s0 := s.fbRestore n
  let f := s0.fb n
  let s1 := (s0.putB (F.FBKn_STATUS_NEW_INDEX n) f.newIndex).modFb n fun f =>
    { f with newIndex := false, pairSeen := false, idleFrames := if f.pairSeen then 0 else satU 16 (f.idleFrames + 1) }
  let ok := !s1.flag (F.FBKn_STATUS_FAULT n) && s1.fbHasPos n
  let s2 := s1.putB (F.FBKn_STATUS_POS_VALID n) ok
  let s3 := match s2.fbSpeed n with
    | some v => (s2.putWideS 40 (R.FBKn_SPEED n) (satS 40 v)).putB (F.FBKn_STATUS_SPD_VALID n)
        (ok && !s2.flag (F.FBKn_STATUS_AMP_BAD n) && !s2.flag (F.FBKn_STATUS_STANDSTILL n))
    | none => (s2.putWide 40 (R.FBKn_SPEED n) 0).put (F.FBKn_STATUS_SPD_VALID n) 0
  if s3.fbMode n ≠ 4 then s3
  else
    let cfg := s3.rd (R.FBKn_SSI_CFG n)
    if !ssiFits cfg (s3.rd (R.FBKn_SSI_TIMING n)) s3.period then s3.fbCond n 10
    else
      let s4 := s3.fbCondEnd n 10
      if s4.frame % ssiEvery cfg = 0 then s4.modFb n fun f => { f with transfer := some s4.now } else s4

/-- The eight input-latch words of channel `n` (Table 9.5). -/
def State.fbWords (s : State) (n : Nat) : List Word :=
  let ip := s.rd (R.FBKn_INDEX_POS_HI n)
  let age := ((s.frame + 2 ^ 32 - s.get (F.FBKn_INDEX_FRAME_FRAME n)) % 2 ^ 32) * s.period
  let hi := BitVec.ofInt 32 (sext 16 (s.rd (R.FBKn_POS_HI n)).toNat)
  let sp := BitVec.ofInt 32 (sext 8 (s.rd (R.FBKn_SPEED_HI n)).toNat)
  [s.rd (R.FBKn_POS n), hi, s.rd (R.FBKn_SPEED n), sp, s.rd (R.FBKn_STATUS n), s.rd (R.FBKn_INDEX_POS n),
   BitVec.ofNat 32 (bitsOf ip 0 16 + 2 ^ 31 * s.get (F.FBKn_STATUS_NEW_INDEX n)),
   BitVec.ofNat 32 (satU 32 (age - s.get (F.FBKn_INDEX_CYC_CYCLE n)))]

/-! ## Register writes (R230, R236, R241, R243) -/

/-- Is the channel claimed by ENC_CAL (R230)? -/
def State.fbClaimed (s : State) (n : Nat) : Bool := s.runs 10 n

/-- Are the sinks that a mode requires routed (Table 9.1)? -/
def State.fbRouted (s : State) (n mode : Nat) : Bool :=
  match mode with
  | 1 => s.routed (0x400 + n) && s.routed (0x408 + n)
  | 2 => s.routed (0x10 + n) && s.routed (0x18 + n)
  | 3 => s.routed (0x420 + n) && s.routed (0x428 + n) && s.routed (0x430 + n)
  | 4 => s.routed (0x418 + n) && (s.routesTo (0x510 + n)).any fun r => decide (r.src = 0x710 + n)
  | _ => true

/-- Is a change of an RWL word of axis `n` refused while it is armed (R12, R439)? -/
def State.fbLocked (s : State) (p : Path) (n a : Nat) (w : Word) : Bool :=
  s.armed n && decide (p ≠ .image) && decide (w ≠ s.rd a)

/-- A write of FBKn_CFG (R230, R241, R243): the decoder is selected, r set to 0, REF and the history cleared. -/
def fbCfgWrite (p : Path) (n : Nat) (w : Word) (s : State) : Bool × State :=
  let w1 := w &&& BitVec.ofNat 32 0xFF033FD7
  let mode := bitsOf w 0 3
  let unfit := decide (mode = 4) && !ssiFits (s.rd (R.FBKn_SSI_CFG n)) (s.rd (R.FBKn_SSI_TIMING n)) s.period
  if 4 < mode ∨ bitsOf w 6 2 = 3 ∨ bitsOf w 24 8 = 0 ∨ s.fbClaimed n ∨ !s.fbRouted n mode ∨ unfit ∨
      s.fbLocked p n (R.FBKn_CFG n) w1 then (false, s)
  else
    let f0 := restFbk
    let s1 := (s.wr (R.FBKn_CFG n) w1).modFb n fun f => { f0 with ab := f.ab, restore := f.restore }
    let s2 := (((s1.putWide 48 (R.FBKn_POS n) 0).put (F.FBKn_STATUS_REF n) 0).put (F.FBKn_STATUS_HYST_HOLD n) 0).put
      (F.FBKn_STATUS_AMP_BAD n) 0
    let s3 := (s2.put (F.FBKn_STATUS_POS_VALID n) 0).put (F.FBKn_STATUS_HALL_SECTOR n) 7
    (true, s3.fbRestart n)

/-- A write of FBKn_POS (R243): accepted while axis n is disarmed or at standstill. -/
def fbPosWrite (n : Nat) (v : Int) (s : State) : Bool × State :=
  if s.fbClaimed n ∨ !s.atRest n then (false, s)
  else
    let s1 := ((s.putWideS 48 (R.FBKn_POS n) v).put (F.FBKn_STATUS_REF n) 1).put (F.FBKn_STATUS_HYST_HOLD n) 0
    let s2 := s1.modFb n fun f =>
      { f with raw := wrap48 v, restore := none,
               offset := match f.value with
                 | some x => v - s.fbSign n * x
                 | none => f.offset }
    (true, s2.fbRestart n)

/-- A write of FBKn_SSI_CFG (`tim` false) or FBKn_SSI_TIMING (R230, R241). -/
def fbSsiWrite (p : Path) (n : Nat) (tim : Bool) (w : Word) (s : State) : Bool × State :=
  let a := if tim then R.FBKn_SSI_TIMING n else R.FBKn_SSI_CFG n
  let w1 := w &&& BitVec.ofNat 32 (if tim then 0x003F3FFF else 0x00FF333F)
  let cfg := if tim then s.rd (R.FBKn_SSI_CFG n) else w1
  let t := if tim then w1 else s.rd (R.FBKn_SSI_TIMING n)
  if (if tim then !ssiTimOk w else !ssiCfgOk w) ∨ s.fbClaimed n ∨ s.fbLocked p n a w1 ∨
      (s.fbMode n = 4 ∧ !ssiFits cfg t s.period) then (false, s)
  else (true, s.wr a w1)

/-- A write of FBKn_INDEX_CHK (R230). -/
def fbChkWrite (p : Path) (n : Nat) (w : Word) (s : State) : Bool × State :=
  if s.fbClaimed n ∨ s.fbLocked p n (R.FBKn_INDEX_CHK n) w then (false, s) else (true, s.wr (R.FBKn_INDEX_CHK n) w)

/-- A write of FBKn_AMP_CFG (R236). -/
def fbAmpWrite (n : Nat) (w : Word) (s : State) : Bool × State :=
  let lo := bitsOf w 0 16
  let hi := bitsOf w 16 16
  if hi ≤ lo ∨ 0x8000 ≤ lo ∨ 0x8000 ≤ hi then (false, s) else (true, s.wr (R.FBKn_AMP_CFG n) w)

/-- The position has not changed for STANDSTILL_TO (R246), as of core cycle `cyc` of the frame. -/
def fbStandstill (n cyc : Nat) (s : State) : State :=
  let quiet := s.get (F.FBKn_SPEED_CFG_STANDSTILL_TO n) * 400000
  let old : Bool := match (s.fb n).hist with
    | h :: _ => decide (h.1 + quiet ≤ s.now + cyc)
    | [] => true
  if old ∧ !s.flag (F.FBKn_STATUS_STANDSTILL n) then (s.at cyc).fbStill n else s.at cyc

/-! ## The rows -/

/-- QUAD_TRANSITION: the accepted levels of A and B at core cycle `cyc` of the frame. -/
def execQuadTransition (n : AxisIx) (a b : Bool) (cyc : Nat) (s : State) : Host.Outcome State Fault Refusal :=
  liveIn s (quadTransition n.val a b cyc)

/-- INDEX_EVENT at core cycle `cyc` of the frame. -/
def execIndexEvent (n : AxisIx) (cyc : Nat) (s : State) : Host.Outcome State Fault Refusal := liveIn s (indexEvent n.val cyc)

/-- NO_SIGNAL. -/
def execNoSignal (n : AxisIx) (s : State) : Host.Outcome State Fault Refusal := live s (noSignal n.val)

/-- AMP_BAD. -/
def execAmpBad (n : AxisIx) (s : State) : Host.Outcome State Fault Refusal := live s (ampBad n.val)

/-- HALL_CHANGE: the accepted levels of U, V and W at core cycle `cyc` of the frame. -/
def execHallChange (n : AxisIx) (u v w : Bool) (cyc : Nat) (s : State) : Host.Outcome State Fault Refusal :=
  liveIn s (hallChange n.val u v w cyc)

/-- HALL_INVALID. -/
def execHallInvalid (n : AxisIx) (s : State) : Host.Outcome State Fault Refusal := live s (hallInvalid n.val)

/-- SSI_TRANSFER_DONE: the data line at the first falling edge and the frame bits in order. -/
def execSsiTransferDone (n : AxisIx) (line : Bool) (bits : List Bool) (s : State) : Host.Outcome State Fault Refusal :=
  live s (ssiDone n.val line bits)

/-- FBK_STANDSTILL as of core cycle `cyc` of the frame. -/
def execFbkStandstill (n : AxisIx) (cyc : Nat) (s : State) : Host.Outcome State Fault Refusal :=
  live s (fbStandstill n.val cyc)

/-- FBK_FAULT_CLEAR: a write of FBKn_FAULT. -/
def execFbkFaultClear (_p : Path) (n : AxisIx) (w : Word) (s : State) : Host.Outcome State Fault Refusal :=
  live s (fbFaultClear n.val w)

end Sys2Proof.Machine
end

