-- ==== Sys2Proof/Machine/Nvs.lean ====
section
/-!
DEFINITION. Records in three copies, their commits and selection (R362 to R367), hold-up measurement (R368), the power-loss
store (R370 to R374), the event log in MRAM (R375, R376), scrubbing (R377).
-/
namespace Sys2Proof.Machine

/-- The stamp of a commit or a store: network time and epoch while locked, calendar time and epoch 0 otherwise. -/
def State.nvStamp (s : State) : Nat × Nat := (s.stamp.1, s.stamp.2.1)

/-- The low words of a 64-bit field. -/
def bytesOf64 (x : Int) : List Byte := leBytes 8 (unsext 64 x)

/-- A list of bytes padded with zeros to `k`. -/
def padTo (k : Nat) (l : List Byte) : List Byte := l ++ List.replicate (k - l.length) 0

/-! ## What the records hold (Table 15.2) -/

/-- The registers of AXIS_SAFETY n. -/
def safetyRegs (n : Nat) : List Nat :=
  [R.MOTn_HOME_OFFSET n, R.MOTn_HOME_OFFSET_HI n, R.MOTn_SOFT_MIN n, R.MOTn_SOFT_MIN_HI n, R.MOTn_SOFT_MAX n,
   R.MOTn_SOFT_MAX_HI n] ++ if n < 2 then [R.GDR_GUARDn n] else []

/-- The safety record that holds a register. -/
def safetyOf (a : Nat) : Option Nat := (List.range 8).find? fun n => (safetyRegs n).contains a

/-- AXIS_SAFETY n: the register words in order, of GDR_GUARDn only DRVEN_RELEASE. -/
def State.safetyBytes (s : State) (n : Nat) : List Byte :=
  (safetyRegs n).flatMap fun a => leBytes 4 (if a = R.GDR_GUARDn n then (s.rd a).toNat % 2 else (s.rd a).toNat)

/-- The axis block of the present state (Table 15.5); a moving axis is stored uncertain (R370). -/
def State.axisBlock (s : State) (n : Nat) : AxisBlock :=
  { pos := s.wideS 48 (R.MOTn_POS n), homed := s.flag (F.MOTn_STATUS_HOMED n),
    uncertain := s.flag (F.MOTn_STATUS_POS_UNCERTAIN n) || (s.armed n && decide ((s.ax n).kin.v ≠ 0)),
    ref := s.flag (F.FBKn_STATUS_REF n), devRefValid := s.flag (F.OBSn_STATUS_DEV_REF_VALID n),
    guardShort := decide (n < 2) && s.flag (F.CURn_GUARD_SHORT_LATCHED n), vel := s.wideS 40 (R.MOTn_VEL n),
    fbkPos := s.wideS 48 (R.FBKn_POS n), ssiOff := (s.fb n).offset, devRef := s.wideS 48 (R.OBSn_DEV_REF n),
    stopCause := s.rd (R.MOTn_STOP_CAUSE n) }

/-- The 256 bytes of an axis block. -/
def AxisBlock.bytes (b : AxisBlock) : List Byte :=
  let fl := b2n b.homed + 2 * b2n b.uncertain + 4 * b2n b.ref + 8 * b2n b.devRefValid + 16 * b2n b.guardShort
  padTo 256 (bytesOf64 b.pos ++ leBytes 4 fl ++ bytesOf64 b.vel ++ bytesOf64 b.fbkPos ++ bytesOf64 b.ssiOff ++
    bytesOf64 b.devRef ++ leBytes 4 b.stopCause.toNat)

/-- An axis block from its bytes. -/
def axisOfBytes (l : List Byte) : AxisBlock :=
  let fl := rdN l 8 4
  let on := fun i => decide (fl / 2 ^ i % 2 = 1)
  { pos := sext 64 (rdN l 0 8), homed := on 0, uncertain := on 1, ref := on 2, devRefValid := on 3, guardShort := on 4,
    vel := sext 64 (rdN l 12 8), fbkPos := sext 64 (rdN l 20 8), ssiOff := sext 64 (rdN l 28 8),
    devRef := sext 64 (rdN l 36 8), stopCause := BitVec.ofNat 32 (rdN l 44 4) }

/-- The role word of an endpoint: code in the high half, epoch in the low half (R332). -/
def State.role (s : State) (ep : Nat) : Word := SMap.get (fun _ => (0 : Word)) s.net.roles ep

/-- Set a role word. -/
def State.setRole (s : State) (ep : Nat) (w : Word) : State :=
  { s with net := { s.net with roles := SMap.set (fun _ => (0 : Word)) s.net.roles ep w } }

/-- The node's own number. -/
def State.node (s : State) : Nat := s.get F.NET_NODE_NODE

/-- Is the node numbered (R328)? -/
def State.numbered (s : State) : Bool := s.flag F.NET_NODE_NUMBERED

/-- IDENTITY: the number word (bit 31: valid), then the keys or zeros in their place. -/
def State.identityBytes (s : State) (keys : Bool) : List Byte :=
  leBytes 4 (match s.net.hint with
    | some h => 2 ^ 31 + h
    | none => 0) ++
  (List.range 16).flatMap fun k => leBytes 4 (if keys then (s.rd (R.NET_KEYk k)).toNat else 0)

/-- ROLES: the role words of endpoints 0x00 to 0xFF. -/
def State.roleBytes (s : State) : List Byte := (List.range 256).flatMap fun e => leBytes 4 (s.role e).toNat

/-- REPLICA_DIR: the registers that show it. -/
def dirRegs : List Nat := (List.range 2).map R.NVS_REP_OWNk ++ (List.range 3).map R.NVS_REP_HELDj

/-- REPLICA_DIR: holders and owners. -/
def State.dirBytes (s : State) : List Byte := dirRegs.flatMap fun a => leBytes 4 (s.rd a).toNat

/-- The payload of a device record as its commit assembles it (R364). -/
def State.recordBytes (s : State) (id : Nat) : List Byte :=
  if id < 8 then (s.axisBlock id).bytes
  else if id < 16 then s.safetyBytes (id - 8)
  else if id = 16 then s.identityBytes true
  else if id = 17 then s.roleBytes
  else s.dirBytes

/-- Is the id a record (Table 15.2)? -/
def recordId (id : Nat) : Bool := decide (id ≤ 0x12 ∨ (0x20 ≤ id ∧ id ≤ 0x3E))

/-- Does the device write the record? -/
def deviceRecord (id : Nat) : Bool := decide (id ≤ 0x12)

/-- Load the registers that a record feeds. -/
def State.applyRecord (s : State) (id : Nat) (l : List Byte) : State :=
  let wordAt := fun i => BitVec.ofNat 32 (rdN l (4 * i) 4)
  if 8 ≤ id ∧ id < 16 then
    let n := id - 8
    ((List.range (safetyRegs n).length).foldl (fun s i =>
      let a := (safetyRegs n).getD i 0
      if a = R.GDR_GUARDn n then s.put (F.GDR_GUARDn_DRVEN_RELEASE n) ((wordAt i).toNat % 2) else s.wr a (wordAt i)) s)
  else if id = 16 then
    let h := (wordAt 0).toNat
    let s1 := { s with net := { s.net with hint := if 2 ^ 31 ≤ h then some (h % 4096) else none } }
    let s2 := s1.put F.NET_NODE_NODE (h % 4096)
    (List.range 16).foldl (fun s k => s.wr (R.NET_KEYk k) (wordAt (k + 1))) s2
  else if id = 17 then (List.range 256).foldl (fun s e => s.setRole e (wordAt e)) s
  else if id = 18 then
    (List.range 5).foldl (fun s i => s.wr (dirRegs.getD i 0) (wordAt i)) s
  else s

/-! ## Copies and their selection (R362, R366) -/

/-- The three copies of a record. -/
def State.copies (s : State) (id : Nat) : List (Option RecCopy) := SMap.get (fun _ => [none, none, none]) s.nvs.recs id

/-- Store the three copies. -/
def State.setCopies (s : State) (id : Nat) (l : List (Option RecCopy)) : State :=
  { s with nvs := { s.nvs with recs := SMap.set (fun _ => [none, none, none]) s.nvs.recs id l } }

/-- Is a copy intact (R362)? MAGIC, ID and CRC of a stored copy hold. -/
def RecCopy.intact (c : RecCopy) (id : Nat) : Bool := !c.bad && decide (c.id = id ∧ c.payload.length ≤ 4064)

/-- The intact copies in order. -/
def intactOf (id : Nat) (l : List (Option RecCopy)) : List RecCopy := (l.filterMap fun x => x).filter fun c => c.intact id

/-- The copy of highest generation; on equals the lowest index. -/
def newest : List RecCopy → Option RecCopy
  | [] => none
  | c :: l =>
    match newest l with
    | some d => if c.gen < d.gen then some d else some c
    | none => some c

/-- What a selection finds: nothing to do, a repair, a divergence, a loss. -/
inductive RecAction where
  | none
  | repaired
  | diverged
  | lost
deriving DecidableEq, Repr

/-- The copy used and the action (Table 15.4). -/
def selectCopy (id : Nat) (l : List (Option RecCopy)) : Option RecCopy × RecAction :=
  match intactOf id l with
  | [a, b, c] =>
    if a = b ∧ b = c then (some a, .none)
    else if a = b ∨ a = c then (some a, .repaired)
    else if b = c then (some b, .repaired)
    else (newest [a, b, c], .diverged)
  | [a, b] =>
    if a = b then (some a, .repaired)
    else if a.gen + 1 = b.gen ∨ b.gen + 1 = a.gen then (newest [a, b], .repaired)
    else (newest [a, b], .diverged)
  | [a] => (some a, .repaired)
  | _ => (none, .lost)

/-- The copy in use of a record. -/
def State.inUse (s : State) (id : Nat) : Option RecCopy := (selectCopy id (s.copies id)).1

/-- The DIV bit of a record id. -/
def divFld (id : Nat) : Fld := ⟨if id < 32 then R.NVS_REC_DIV else R.NVS_REC_DIV_HI, id % 32, 1⟩

/-- The LOST bit of a record id. -/
def lostFld (id : Nat) : Fld := ⟨if id < 32 then R.NVS_REC_LOST else R.NVS_REC_LOST_HI, id % 32, 1⟩

/-! ## The commit queue (R364) -/

/-- NVS_STATUS follows the queue. -/
def State.nvsShow (s : State) : State :=
  let host := s.nvs.queue.any (·.host) || (s.nvs.running.map (·.host)).getD false
  (((s.put F.NVS_STATUS_QUEUE (Nat.min 16 s.nvs.queue.length)).putB F.NVS_STATUS_HOST_BUSY host).putB F.NVS_STATUS_BUSY
    s.nvs.running.isSome)

/-- Is the host's commit outstanding (R365)? -/
def State.hostBusy (s : State) : Bool := s.flag F.NVS_STATUS_HOST_BUSY

/-- Queue a device commit: one that is queued already is not queued twice, one that finds the queue full waits with the
retries. -/
def State.queueCommit (s : State) (c : Commit) : State :=
  if s.nvs.queue.any (fun d => decide (d.id = c.id ∧ d.keep = c.keep ∧ d.payload = c.payload) && !d.host) then s
  else if s.nvs.queue.length < 16 then ({ s with nvs := { s.nvs with queue := s.nvs.queue ++ [c] } }).nvsShow
  else { s with nvs := { s.nvs with retry := s.nvs.retry ++ [c] } }

/-- A device commit of the latest values. -/
def State.queueRecord (s : State) (id : Nat) : State := s.queueCommit ⟨id, false, [], none, false⟩

/-- A log entry of kind RECORD: the id and the action of Table 15.4. -/
def State.logRecord (s : State) (id action : Nat) : State :=
  s.logEntry 7 (0xC0 + id) 0 (BitVec.ofNat 32 (id + action * 256))

/-- Read a record (R366): select, repair or report; the DIV and LOST bits follow. -/
def State.readRecord (s : State) (id : Nat) : State :=
  let r := selectCopy id (s.copies id)
  let restored := (r.1.map (·.restored)).getD false
  let s1 := s.putB (divFld id) (decide (r.2 = .diverged) || restored)
  let s2 := s1.putB (lostFld id) (decide (r.2 = .lost))
  match r.2 with
  | .none => s2
  | .repaired => ((s2.raise (evNvs 0 (0xC0 + id))).logRecord id 1).queueCommit ⟨id, false, [], r.1, false⟩
  | .diverged => (s2.raise (evNvs 1 (0xC0 + id))).logRecord id 2
  | .lost => (s2.raise (evNvs 2 (0xC0 + id))).logRecord id 3

/-- The start-up read of every record, and the registers that the records feed (R366). -/
def recordRead (s : State) : State :=
  let ids := (List.range 0x3F).filter recordId
  ids.foldl (fun s id =>
    let s1 := s.readRecord id
    match s1.inUse id with
    | some c => s1.applyRecord id c.payload
    | none => s1) s

/-- The result of a record command. -/
def State.nvResult (s : State) (cmd code : Nat) : State := s.wr R.NVS_RESULT (BitVec.ofNat 32 (cmd * 256 + code))

/-- A commit that is refused (R37, R43, R369): a device commit waits for its retry, a host commit reports. -/
def State.commitRefused (s : State) (c : Commit) (code : Nat) : State :=
  (if c.host then s.nvResult 2 code else { s with nvs := { s.nvs with retry := s.nvs.retry ++ [c] } }).nvsShow

/-- The record manager takes the next commit (R364): the supply, the arbiter, then the energy check. -/
def recordCommitStart (s : State) : State :=
  match s.nvs.running, s.nvs.queue with
  | none, c :: rest =>
    let c1 := if c.payload = [] ∧ c.keep = none ∧ !c.host then { c with payload := s.recordBytes c.id } else c
    let len := (c1.keep.map (·.payload.length)).getD c1.payload.length
    let s1 := { s with nvs := { s.nvs with queue := rest } }
    if s1.powerFail then s1.commitRefused c 9
    else
      let r := s1.askCommit (recordTime len) c.id
      if r.1 = 0 then ({ r.2 with nvs := { r.2.nvs with running := some c1 } }).nvsShow
      else r.2.commitRefused c r.1
  | _, _ => s

/-- Blocks that failed their verification are remapped (R360): the spare blocks left, SPARE_LOW below 1,024; false when
they do not suffice. -/
def State.remap (s : State) (k : Nat) : Bool × State :=
  let free := s.get F.NVS_SPARE_FREE
  if free < k then (false, s.raise (evNvs 3 0))
  else
    let s1 := s.put F.NVS_SPARE_FREE (free - k)
    (true, s1.raiseIf (decide (1024 ≤ free ∧ free - k < 1024)) (evNvs 17 0))

/-- The replica content has changed (R381): VERSION advances. -/
def State.repTouch (s : State) : State :=
  { s with nvs := { s.nvs with repVersion := (s.nvs.repVersion + 1) % 65536, repDirty := true } }

/-- Does an own replica hold the record? -/
def inReplica (id : Nat) : Bool := decide (8 ≤ id ∧ id ≤ 17)

/-- The generation of a commit: one above the highest intact one (R363); a rewrite keeps that of the copy used. -/
def State.commitGen (s : State) (c : Commit) : Nat :=
  match c.keep with
  | some k => k.gen
  | none => ((newest (intactOf c.id (s.copies c.id))).map (·.gen)).getD 0 + 1

/-- The copy that a commit writes. -/
def State.commitCopy (s : State) (c : Commit) : RecCopy :=
  match c.keep with
  | some k => k
  | none =>
    let t := s.nvStamp
    { id := c.id, restored := c.restored, gen := s.commitGen c, time := t.1, epoch := t.2, payload := c.payload,
      bad := false }

/-- The running commit has written and verified its three copies, `k` of its blocks after a remap (R360, R363). -/
def recordCommitDone (k : Nat) (s : State) : State :=
  match s.nvs.running with
  | none => s
  | some c =>
    let s0 := ({ s with nvs := { s.nvs with running := none } }).nvsShow
    let r := s0.remap k
    if !r.1 then (if c.host then r.2.nvResult 2 8 else r.2)
    else
      let x := s.commitCopy c
      let s1 := r.2.setCopies c.id [some x, some x, some x]
      let s2 := if 8 ≤ c.id ∧ c.id < 16 then s1 else (s1.putB (divFld c.id) c.restored).put (lostFld c.id) 0
      let s3 := if c.restored then s2.put (divFld c.id) 1 else s2
      let s4 := if inReplica c.id ∧ c.keep = none then s3.repTouch else s3
      if c.host then ((s4.put F.NVS_REC_GEN_VALUE (x.gen % 2 ^ 32)).nvResult 2 0).raise (evNvs 5 (0xC0 + c.id)) else s4

/-- Commits refused for energy ask again (R364). -/
def energyRetry (s : State) : State :=
  let l := s.nvs.retry
  l.foldl State.queueCommit { s with nvs := { s.nvs with retry := [] } }

/-- 100 ms after the last write to a register of AXIS_SAFETY n (R364). -/
def safetyAutosave (n : Nat) (s : State) : State :=
  if s.nvs.safetyDirty.contains n then
    ({ s with nvs := { s.nvs with safetyDirty := s.nvs.safetyDirty.filter fun m => decide (m ≠ n) } }).queueRecord (8 + n)
  else s

/-- A register of a safety record has been written. -/
def State.safetyWritten (s : State) (a : Nat) : State :=
  match safetyOf a with
  | some n =>
    if s.nvs.safetyDirty.contains n then s else { s with nvs := { s.nvs with safetyDirty := n :: s.nvs.safetyDirty } }
  | none => s

/-- DISARM of an axis with AUTOSAVE queues AXIS_STATE (R364). -/
def State.autoSave (s : State) (n : Nat) : State :=
  if bitsOf (s.rd R.NVS_CFG) n 1 = 1 then s.queueRecord n else s

/-! ## Commands (R365, R367) -/

/-- The record buffer. -/
def State.bufByte (s : State) (i : Nat) : Byte := SMap.get (fun _ => (0 : Byte)) s.nvs.bufBytes i

/-- The first `n` bytes of the record buffer. -/
def State.bufTake (s : State) (n : Nat) : List Byte := (List.range n).map s.bufByte

/-- Fill the record buffer. -/
def State.bufFill (s : State) (l : List Byte) : State :=
  let m := (List.range l.length).foldl (fun m i => SMap.set (fun _ => (0 : Byte)) m i (l.getD i 0)) []
  { s with nvs := { s.nvs with bufBytes := m } }

/-- The payload that LOAD shows: the keys of IDENTITY read 0. -/
def shownPayload (id : Nat) (l : List Byte) : List Byte := if id = 16 then padTo l.length (l.take 4) else l

/-- LOAD. -/
def nvsLoad (id : Nat) (s : State) : State :=
  if !recordId id then s.nvResult 1 3
  else
    let s1 := s.readRecord id
    match s1.inUse id with
    | none => s1.nvResult 1 6
    | some c =>
      (((s1.bufFill (shownPayload id c.payload)).put F.NVS_REC_LEN_VALUE c.payload.length).put F.NVS_REC_GEN_VALUE
        (c.gen % 2 ^ 32)).nvResult 1 0

/-- COMMIT of the buffer. -/
def nvsCommit (id : Nat) (s : State) : State :=
  if !recordId id then s.nvResult 2 3
  else if deviceRecord id then s.nvResult 2 4
  else if s.powerFail then s.nvResult 2 9
  else if s.hostBusy ∨ 16 ≤ s.nvs.queue.length then s.nvResult 2 5
  else
    let c : Commit :=
      { id := id, host := true, payload := s.bufTake (s.get F.NVS_REC_LEN_VALUE), keep := none, restored := false }
    (({ s with nvs := { s.nvs with queue := s.nvs.queue ++ [c] } }).nvsShow).nvResult 2 0

/-- ACK (R367). -/
def nvsAck (id : Nat) (s : State) : State :=
  if !recordId id then s.nvResult 3 3
  else if s.flag (divFld id) then
    let s1 := s.put (divFld id) 0
    (match s.inUse id with
     | some c => s1.queueCommit ⟨id, false, c.payload, none, false⟩
     | none => s1).nvResult 3 0
  else if s.flag (lostFld id) then
    let s1 := s.put (lostFld id) 0
    (if deviceRecord id then s1.queueRecord id else s1).nvResult 3 0
  else s.nvResult 3 7

/-- SAVE_STATE (R364). -/
def saveState (id : Nat) (s : State) : State :=
  if 8 ≤ id then s.nvResult 4 3
  else if 16 ≤ s.nvs.queue.length then s.nvResult 4 5
  else (s.queueRecord id).nvResult 4 0

/-- A write of NVS_BUF, NVS_REC_LEN (R365): refused while the host's commit is outstanding. -/
def nvsBufWrite (i : Nat) (w : Word) (s : State) : Bool × State :=
  if s.hostBusy then (false, s)
  else
    let base := s.get F.NVS_BUF_PAGE_PAGE * 1024 + 4 * i
    let m := (List.range 4).foldl (fun m j =>
      SMap.set (fun _ => (0 : Byte)) m (base + j) ((leBytes 4 w.toNat).getD j 0)) s.nvs.bufBytes
    (true, { s with nvs := { s.nvs with bufBytes := m } })

/-- The word of the record buffer window. -/
def State.nvsBufRead (s : State) (i : Nat) : Word :=
  let base := s.get F.NVS_BUF_PAGE_PAGE * 1024 + 4 * i
  BitVec.ofNat 32 (ofLe ((List.range 4).map fun j => s.bufByte (base + j)))

/-- A write of NVS_REC_LEN. -/
def nvsLenWrite (w : Word) (s : State) : Bool × State :=
  if s.hostBusy ∨ 4064 < w.toNat then (false, s) else (true, s.wr R.NVS_REC_LEN w)

/-! ## CHOLD_MEASURE (R368) -/

/-- A run ends with the falls ΔV1 and ΔV2 of VHOLD in µV and the time in µs that the sink was connected. -/
def choldMeasureDone (dv1 dv2 t : Nat) (s : State) : State :=
  if !s.runs 8 0 then s
  else
    let den : Int := (dv2 : Int) * 10000 - (dv1 : Int) * t
    let nf : Nat := if den ≤ 0 then 40000001 else (convDiv ((t : Int) * 100000000000) den.toNat).toNat
    let capped := decide (40000000 < nf)
    let low := decide (nf < 100000)
    let c := if capped then 40000000 else nf
    let s1 := (s.put F.NVS_CHOLD_STATE (if low then 2 else if capped then 3 else 1)).put F.NVS_CHOLD_C_MEAS
      (convDiv c 1000).toNat
    let s2 := { s1 with nvs := { s1.nvs with cUseNf := if low then 0 else c * 9 / 10 } }
    ((s2.raiseIf low (evNvs 9 0)).raise (evNvs 8 0)).endAct 8 0

/-! ## The power-loss store (R370 to R374) -/

/-- VM and VHOLD, one sample every 100 µs, 119 kept. -/
def State.plsSample (s : State) : State :=
  if s.nvs.sampleAt ≤ s.now then
    let l := s.nvs.samples ++ [(s.vm, s.nvs.vhold)]
    { s with nvs := { s.nvs with samples := l.drop (l.length - 119), sampleAt := s.now + 40000 } }
  else s

/-- The slot of the latest valid store. -/
def State.plsLatest (s : State) : Option (Nat × PlsStore) :=
  match s.nvs.pls.toList with
  | [some a, some b] => if a.seq < b.seq then some (1, b) else some (0, a)
  | [some a, none] => some (0, a)
  | [none, some b] => some (1, b)
  | _ => none

/-- A frame start that sees VM_FAIL first is F_f (R370). -/
def State.plsArm (s : State) : State :=
  if s.flag F.SUP_STATUS_VM_FAIL ∧ s.nvs.plsPhase = .idle then
    { s with nvs := { s.nvs with plsPhase := .armed, plsStart := s.now } }
  else s

/-- The trigger that holds at an output stage (R370): 1 standstill, 2 WAIT, 3 energy. -/
def State.plsTrigger (s : State) : Option Nat :=
  if axesAll.all fun n => !s.armed n.val || decide ((s.ax n.val).kin.v = 0) then some 1
  else if s.nvs.plsStart + s.get F.NVS_PLS_CFG_WAIT * 400000 ≤ s.now then some 2
  else if s.energy2 ≤ s.power2 1000000 then some 3
  else none

/-- The snapshot at an output stage (R370). -/
def State.plsOutput (s : State) : State :=
  match s.nvs.plsPhase, s.plsTrigger with
  | .armed, some t =>
    let st := s.nvStamp
    let seq := ((s.plsLatest.map (·.2.seq)).getD 0 + 1) % 2 ^ 32
    let x : PlsStore :=
      { seq := seq, time := st.1, epoch := st.2, node := s.node, frame := s.frame, trigger := t,
        axes := (List.range 8).map s.axisBlock, samples := s.nvs.samples, consumed := false }
    ({ s with nvs := { s.nvs with plsPhase := .snapped, snapshot := some x } }).logEntry 6 0 0 (BitVec.ofNat 32 seq)
  | _, _ => s

/-- The write of the store begins once no commit runs (R371). -/
def plsWriteStart (s : State) : State :=
  if s.nvs.plsPhase = .snapped ∧ s.nvs.running = none then { s with nvs := { s.nvs with plsPhase := .writing } } else s

/-- NVS_PLS_STATUS and PLS_PENDING of the latest valid store. -/
def State.plsShow (s : State) : State :=
  match s.plsLatest with
  | none => s.put F.NVS_STATUS_PLS_PENDING 0
  | some (i, x) =>
    (((s.put F.NVS_PLS_STATUS_SEQ (x.seq % 2 ^ 28)).putB F.NVS_PLS_STATUS_CONSUMED x.consumed).put F.NVS_PLS_STATUS_SLOT
      i).putB F.NVS_STATUS_PLS_PENDING (!x.consumed)

/-! ## The event log in MRAM (R375, R376) -/

/-- NVS_LOG_HEAD and NVS_LOG_TAIL. -/
def State.logShow (s : State) : State :=
  let head := (s.log.area.getLast?.map (·.seq)).getD (s.get F.NVS_LOG_HEAD_SEQ)
  let tail := match s.log.area, s.log.buf with
    | e :: _, _ => e.seq
    | [], e :: _ => e.seq
    | [], [] => s.log.seq
  (s.put F.NVS_LOG_HEAD_SEQ head).put F.NVS_LOG_TAIL_SEQ tail

/-- Move the first `k` waiting entries to the log area, with FLAGS bit 1 where the power-loss store flushes them. -/
def State.logWrite (s : State) (k : Nat) (flush : Bool) : State :=
  let out := (s.log.buf.take k).map fun e => if flush then { e with flags := e.flags ||| 2 } else e
  let area := s.log.area ++ out
  ({ s with log := { s.log with buf := s.log.buf.drop k, area := area.drop (area.length - 1048576) } }).logShow

/-- A chunk of 64 entries is written, with `k` remapped blocks. -/
def logChunkWrite (k : Nat) (s : State) : State :=
  if 64 ≤ s.log.buf.length then
    let r := s.remap k
    if r.1 then r.2.logWrite 64 false else r.2
  else s

/-- The waiting entries are written (R375). -/
def logFlushTimer (s : State) : State := s.logWrite s.log.buf.length false

/-- The 32 bytes of an entry (Table 15.6). -/
def LogEntry.bytes (e : LogEntry) : List Byte :=
  let b := leBytes 4 e.seq ++ leBytes 1 e.kind ++ leBytes 1 e.endpoint ++ leBytes 1 e.bit ++ leBytes 1 e.flags ++
    leBytes 8 e.time ++ leBytes 2 e.epoch ++ leBytes 2 e.reg ++ leBytes 4 e.frame ++ leBytes 4 e.data.toNat
  b ++ leBytes 4 (crc32 b)

/-- A write of NVS_LOG_SEL shows the entry (R376). -/
def logSelect (w : Word) (s : State) : State :=
  let s1 := s.wr R.NVS_LOG_SEL w
  let found := (s.log.area ++ s.log.buf).find? fun e => decide (e.seq = w.toNat) && !s.log.badSeqs.contains e.seq
  let bytes := (found.map LogEntry.bytes).getD []
  (List.range 8).foldl (fun s i => s.wr (R.NVS_LOG_ENTRYw i) (BitVec.ofNat 32 (rdN bytes (4 * i) 4)))
    (s1.putB F.NVS_LOG_LOST_FOUND found.isSome)

/-- The store is written and the buffer flushed (R371); STATE becomes STORED (R398). -/
def plsDone (s : State) : State :=
  match s.nvs.plsPhase, s.nvs.snapshot with
  | .writing, some x =>
    let slot := match s.plsLatest with
      | some (i, _) => 1 - i
      | none => 0
    let phase := if s.flag F.SUP_STATUS_VM_FAIL then PlsPhase.done else .idle
    let s1 := { s with nvs := { s.nvs with pls := s.nvs.pls.setIfInBounds slot (some x), plsPhase := phase,
                                           snapshot := none } }
    let s2 := if s1.get F.SUP_STATUS_STATE = 3 then s1.put F.SUP_STATUS_STATE 4 else s1
    ((s2.logWrite s2.log.buf.length true).plsShow).raise (evNvs 6 0)
  | _, _ => s

/-- The CONSUMED mark (R374): an NV commit of one block, after the start-up measurement or once VM is good again. -/
def consumedMark (s : State) : State :=
  match s.plsLatest with
  | none => s
  | some (i, x) =>
    if x.consumed ∨ s.frm.claimStart ∨ s.powerFail then s
    else
      let r := s.askCommit (blockTime 64) i
      if r.1 = 0 then
        let pls := r.2.nvs.pls.setIfInBounds i (some { x with consumed := true })
        ({ r.2 with nvs := { r.2.nvs with pls := pls } }).plsShow
      else r.2

/-! ## Restoring at start-up (R372, R373) -/

/-- Restore axis `n` from a block. -/
def State.restoreAxis (s : State) (n : Nat) (b : AxisBlock) : State :=
  let s1 := (s.putWideS 48 (R.MOTn_POS n) b.pos).modAx n fun a =>
    { a with kin := { a.kin with x := b.pos * fx }, xOut := b.pos * fx }
  let s2 := (s1.putB (F.MOTn_STATUS_HOMED n) b.homed).putB (F.MOTn_STATUS_POS_UNCERTAIN n) b.uncertain
  let s3 := s2.modFb n fun f => { f with restore := some (b.fbkPos, b.ref && !b.uncertain), offset := b.ssiOff }
  if b.devRefValid then (s3.putWideS 48 (R.OBSn_DEV_REF n) b.devRef).put (F.OBSn_STATUS_DEV_REF_VALID n) 1 else s3

/-- Restore axis `n` from its record, or start it at 0 and uncertain (R110, R373). -/
def State.restoreRecord (s : State) (n : Nat) : State :=
  match s.inUse n with
  | some c => s.restoreAxis n { axisOfBytes c.payload with uncertain := true }
  | none => s.put (F.MOTn_STATUS_POS_UNCERTAIN n) 1

/-- The restore before the REG entries of the image apply. -/
def State.plsRestore (s : State) : State :=
  let s0 := s.plsShow
  match s.plsLatest with
  | some (_, x) =>
    if x.consumed then
      ((List.range 8).foldl (fun s n => s.restoreRecord n) s0).put F.NVS_PLS_STATUS_SOURCE
        (if (List.range 8).any fun n => (s.inUse n).isSome then 1 else 2)
    else
      (((List.range 8).foldl (fun s n => match x.axes[n]? with
        | some b => s.restoreAxis n b
        | none => s) s0).put F.NVS_PLS_STATUS_SOURCE 0).raise (evNvs 7 0)
  | none =>
    ((List.range 8).foldl (fun s n => s.restoreRecord n) s0).put F.NVS_PLS_STATUS_SOURCE
      (if (List.range 8).any fun n => (s.inUse n).isSome then 1 else 2)

/-! ## Scrubbing (R377) -/

/-- The record copy that a block belongs to (Table 15.1): its id and index. -/
def copyAt (a : Nat) : Option (Nat × Nat) :=
  if 0x800000 ≤ a ∧ a < 0xB00000 then
    let i := (a - 0x800000) / 0x100000
    let id := (a - 0x800000) % 0x100000 / 0x1000
    if recordId id then some (id, i) else none
  else if 0x3C00000 ≤ a ∧ a < 0x3C03000 then some (16, (a - 0x3C00000) / 0x1000)
  else none

/-- An uncorrectable block found by a scrub. -/
def State.scrubUe (s : State) (a : Nat) : State :=
  let s1 := (s.bump F.NVS_SCRUB_CNT_UE_CNT 1).raise (evNvs 11 0)
  let s2 := if s1.flag F.NVS_SCRUB_ADDR_VALID then s1
    else (s1.put F.NVS_SCRUB_ADDR_ADDR a).put F.NVS_SCRUB_ADDR_VALID 1
  match copyAt a with
  | some (id, i) =>
    let l := s2.copies id
    (s2.setCopies id (l.set i ((l.getD i none).map fun c => { c with bad := true })))
  | none =>
    if a < 0x800000 then
      let b := a / 0x400000
      (s2.setBank b { s2.bank b with damaged := true }).raise (evNvs 18 0)
    else if 0xC00000 ≤ a ∧ a < 0x1B00000 then
      let j := (a - 0xC00000) / 0x500000
      if s2.get (F.NVS_REP_HELDj_STATE j) = 0 then s2 else s2.put (F.NVS_REP_HELDj_STATE j) 3
    else if 0x1C00000 ≤ a ∧ a < 0x3C00000 then
      let k := (a - 0x1C00000) / 2048
      let lost := (s2.log.area.filter fun e => decide (e.seq % 1048576 / 64 = k)).map (·.seq)
      { s2 with log := { s2.log with badSeqs := s2.log.badSeqs ++ lost } }
    else if 0x3D00000 ≤ a ∧ a < 0x3D02000 then
      ({ s2 with nvs := { s2.nvs with pls := s2.nvs.pls.setIfInBounds ((a - 0x3D00000) / 0x1000) none } }).plsShow
    else s2

/-- A scrub run ends: corrected blocks, the addresses of uncorrectable ones; every record is read again. -/
def scrubDone (ce : Nat) (ue : List Nat) (s : State) : State :=
  if !s.runs 5 0 then s
  else
    let s1 := s.bump F.NVS_SCRUB_CNT_CE_CNT ce
    let s2 := ue.foldl State.scrubUe s1
    let s3 := ((List.range 0x3F).filter recordId).foldl State.readRecord s2
    (s3.raise (evNvs 10 0)).endAct 5 0

/-! ## The rows -/

/-- NVS_LOAD. -/
def execNvsLoad (_p : Path) (id : Byte) (s : State) : Host.Outcome State Fault Refusal := live s (nvsLoad id.toNat)

/-- NVS_COMMIT. -/
def execNvsCommit (_p : Path) (id : Byte) (s : State) : Host.Outcome State Fault Refusal := live s (nvsCommit id.toNat)

/-- NVS_ACK. -/
def execNvsAck (_p : Path) (id : Byte) (s : State) : Host.Outcome State Fault Refusal := live s (nvsAck id.toNat)

/-- SAVE_STATE. -/
def execSaveState (_p : Path) (id : Byte) (s : State) : Host.Outcome State Fault Refusal := live s (saveState id.toNat)

/-- RECORD_COMMIT_START. -/
def execRecordCommitStart (s : State) : Host.Outcome State Fault Refusal := live s recordCommitStart

/-- RECORD_COMMIT_DONE with the number of blocks that were remapped. -/
def execRecordCommitDone (remaps : Nat) (s : State) : Host.Outcome State Fault Refusal := live s (recordCommitDone remaps)

/-- SAFETY_AUTOSAVE. -/
def execSafetyAutosave (n : AxisIx) (s : State) : Host.Outcome State Fault Refusal := live s (safetyAutosave n.val)

/-- ENERGY_RETRY. -/
def execEnergyRetry (s : State) : Host.Outcome State Fault Refusal := live s energyRetry

/-- RECORD_READ: the start-up read. -/
def execRecordRead (s : State) : Host.Outcome State Fault Refusal := live s recordRead

/-- PLS_WRITE_START. -/
def execPlsWriteStart (s : State) : Host.Outcome State Fault Refusal := live s plsWriteStart

/-- PLS_DONE. -/
def execPlsDone (s : State) : Host.Outcome State Fault Refusal := live s plsDone

/-- CONSUMED_MARK. -/
def execConsumedMark (s : State) : Host.Outcome State Fault Refusal := live s consumedMark

/-- LOG_CHUNK_WRITE with the number of blocks that were remapped. -/
def execLogChunkWrite (remaps : Nat) (s : State) : Host.Outcome State Fault Refusal := live s (logChunkWrite remaps)

/-- LOG_FLUSH_TIMER. -/
def execLogFlushTimer (s : State) : Host.Outcome State Fault Refusal := live s logFlushTimer

/-- LOG_SELECT. -/
def execLogSelect (_p : Path) (w : Word) (s : State) : Host.Outcome State Fault Refusal := live s (logSelect w)

/-- SCRUB_DONE: corrected blocks and the MRAM addresses of uncorrectable ones. -/
def execScrubDone (corrected : Nat) (bad : List Nat) (s : State) : Host.Outcome State Fault Refusal :=
  live s (scrubDone corrected bad)

/-- CHOLD_MEASURE_DONE: the falls of VHOLD in µV without and with the sink, and the sink's time in µs. -/
def execCholdMeasureDone (dv1 dv2 t : Nat) (s : State) : Host.Outcome State Fault Refusal :=
  live s (choldMeasureDone dv1 dv2 t)

end Sys2Proof.Machine
end

