-- ==== Sys2Proof/Machine/Replica.lean ====
section
/-!
DEFINITION. Replicas: content and blocks, placement (R379), the holder's side (R380), refresh (R381), restore (R382).
-/
namespace Sys2Proof.Machine

/-- Is the replica service in force (R357)? -/
def State.replicaOn (s : State) : Bool :=
  decide (bitsOf (s.rd R.NET_RING) 9 1 = 1) && s.flag F.NVS_REP_CFG_EN

/-! ## Messages (Table 15.8) -/

/-- The address of a node's endpoint 0x00, or of every node (Table 13.12). -/
def nodeAddr (n : Nat) : Nat := n * 256
/-- The address of every node's endpoint 0x00. -/
def everyAddr : Nat := 2 * 2 ^ 22

/-- Queue a REPLICA message. -/
def State.sendRep (s : State) (dst op chunk block owner version : Nat) (body : List Byte) : State :=
  let pay := leBytes 1 op ++ leBytes 1 chunk ++ leBytes 2 block ++ leBytes 2 owner ++ leBytes 2 version ++ padTo 24 body
  let m : Mbx :=
    { kind := 4, flags := 0, src := 0, dst := dst, epoch := 0, tag := 0, counter := 0, payload := pay,
      mac := List.replicate 16 0 }
  { s with net := { s.net with rep := s.net.rep ++ [m] } }

/-! ## Content and blocks -/

/-- Bytes with their length in front. -/
def chunkOf (l : List Byte) : List Byte := leBytes 4 l.length ++ l

/-- The bytes of a length-prefixed chunk and the rest. -/
def takeChunk (l : List Byte) : List Byte × List Byte :=
  let n := rdN l 0 4
  (slice l 4 n, l.drop (4 + n))

/-- A stored partition as bytes: its sections, manifest and signature section. -/
def partBytes (p : Option StoredPart) : List Byte :=
  match p with
  | none => [0]
  | some st =>
    [1] ++ leBytes 4 st.secs.length ++ st.secs.flatMap (fun e => leBytes 4 e.1 ++ chunkOf e.2) ++ chunkOf st.manifest ++
      (match st.sig with
        | none => [0]
        | some g => [1] ++ chunkOf g)

/-- Sections from bytes. -/
def takeSecs : Nat → List Byte → List (Nat × List Byte) × List Byte
  | 0, l => ([], l)
  | k + 1, l =>
    let c := takeChunk (l.drop 4)
    let r := takeSecs k c.2
    ((rdN l 0 4, c.1) :: r.1, r.2)

/-- A stored partition from bytes. -/
def takePart (l : List Byte) : Option StoredPart × List Byte :=
  if rdN l 0 1 = 0 then (none, l.drop 1)
  else
    let a := takeSecs (Nat.min 4096 (rdN l 1 4)) (l.drop 5)
    let m := takeChunk a.2
    if rdN m.2 0 1 = 0 then (some ⟨a.1, m.1, none⟩, m.2.drop 1)
    else
      let g := takeChunk (m.2.drop 1)
      (some ⟨a.1, m.1, some g.1⟩, g.2)

/-- Partitions from bytes. -/
def takeParts : Nat → List Byte → List (Option StoredPart)
  | 0, _ => []
  | k + 1, l =>
    let r := takePart l
    r.1 :: takeParts k r.2

/-- The content of the own replica: IDENTITY without keys, ROLES, AXIS_SAFETY 0 to 7, the active bank. -/
def State.repContent (s : State) : List Byte :=
  chunkOf (s.identityBytes false) ++ chunkOf s.roleBytes ++ (List.range 8).flatMap (fun n => chunkOf (s.safetyBytes n)) ++
    (s.bank s.activeBank).parts.flatMap partBytes

/-- The number of 3,072-byte blocks of `k` bytes. -/
def blocksOf (k : Nat) : Nat := (k + 3071) / 3072

/-- The data blocks of a content. -/
def dataBlocks (l : List Byte) : List (List Byte) := (piecesOf 3072 (blocksOf l.length) l).map (padTo 3072)

/-- The manifest: serial, node, VERSION, block count, its own number of blocks, the digest of the data blocks, the CRC of
every data block; it takes the first block, and further ones when the CRCs need them. -/
def State.repManifest (s : State) (ds : List (List Byte)) : List (List Byte) :=
  let m := blocksOf (52 + 4 * ds.length)
  let l := leBytes 8 (s.wide 64 R.SYS_SERIAL_LO) ++ leBytes 2 s.node ++ leBytes 2 s.nvs.repVersion ++
    leBytes 4 (m + ds.length) ++ leBytes 4 m ++ sha256 ds.flatten ++ ds.flatMap fun d => leBytes 4 (crc32 d)
  (piecesOf 3072 m l).map (padTo 3072)

/-- The blocks of the own replica with their indices. -/
def State.ownBlocks (s : State) : List (Nat × List Byte) :=
  let ds := dataBlocks s.repContent
  let bs := s.repManifest ds ++ ds
  (List.range bs.length).zip bs

/-- Number of manifest blocks that block 0 names. -/
def manifestLen (l : List Byte) : Nat := rdN l 16 4

/-- The digest over the data blocks of a set of blocks. -/
def blocksDigest (bs : List (Nat × List Byte)) : List Byte :=
  let m := manifestLen ((bs.find? fun b => decide (b.1 = 0)).elim [] (·.2))
  sha256 ((sortBy (fun a b => decide (a.1 ≤ b.1)) (bs.filter fun b => decide (m ≤ b.1))).flatMap (·.2))

/-- The digest that the manifest holds. -/
def manifestDigest (bs : List (Nat × List Byte)) : List Byte := slice ((bs.find? fun b => decide (b.1 = 0)).elim [] (·.2)) 20 32

/-! ## The owner's side (R379, R381) -/

/-- An own replica. -/
def State.ownRep (s : State) (k : Nat) : OwnRep := s.nvs.own.toList.getD k ⟨0, false, [], []⟩

/-- Change an own replica. -/
def State.modOwn (s : State) (k : Nat) (f : OwnRep → OwnRep) : State :=
  { s with nvs := { s.nvs with own := s.nvs.own.setIfInBounds k (f (s.ownRep k)) } }

/-- The node of a candidate: 0 to 3 the nearest slots on side `k` (0 upstream), 4 to 7 on the other side (R379). -/
def State.candidate (s : State) (k c : Nat) : Option Nat :=
  let count := s.net.nodes.length
  let up := decide (k = 0) != decide (4 ≤ c)
  let d := c % 4 + 1
  let slot := if up then (s.net.slot + 4 * count - d) % Nat.max 1 count else (s.net.slot + d) % Nat.max 1 count
  match s.net.nodes.find? fun e => decide (e.1 = slot) with
  | none => none
  | some e =>
    let other := s.get (F.NVS_REP_OWNk_STATE (1 - k)) ≠ 0 ∧ s.get (F.NVS_REP_OWNk_HOLDER (1 - k)) = e.2
    if e.2 = s.node ∨ other then none else some e.2

/-- Offer replica `k` to the next candidate from `c` on; past its own side REPLICA_UNPLACED is raised, past every one it
is raised again and the placement waits for the next refresh. -/
def State.offerNext (s : State) (k c : Nat) : State :=
  match (List.range 8).find? fun p => decide (c ≤ p) && (s.candidate k p).isSome with
  | none => (s.modOwn k fun o => { o with candidate := 0, offered := false }).raise (evNvs 13 0)
  | some p =>
    let bs := s.ownBlocks
    let m := manifestLen (bs.headD (0, [])).2
    let body := leBytes 4 (3072 * bs.length) ++ leBytes 2 bs.length ++ leBytes 2 0 ++
      leBytes 8 (s.wide 64 R.SYS_SERIAL_LO) ++ leBytes 4 (crc32 ((bs.take m).flatMap (·.2)))
    let s1 := s.raiseIf (decide (c < 4 ∧ 4 ≤ p)) (evNvs 13 0)
    let s2 := s1.modOwn k fun o => { o with candidate := p, offered := true }
    s2.sendRep (nodeAddr ((s.candidate k p).getD 0)) 1 0 0 s.node s.nvs.repVersion body

/-- The own replica that a node holds or is asked to hold. -/
def State.repAt (s : State) (node : Nat) : Option Nat :=
  (List.range 2).find? fun k =>
    if (s.ownRep k).offered then decide (s.candidate k (s.ownRep k).candidate = some node)
    else decide (s.get (F.NVS_REP_OWNk_STATE k) ≠ 0 ∧ s.get (F.NVS_REP_OWNk_HOLDER k) = node)

/-- ACCEPT places the replica on its sender (R379). -/
def replicaAccept (m : RepMsg) (s : State) : State :=
  match (List.range 2).find? fun k =>
      (s.ownRep k).offered && decide (s.candidate k (s.ownRep k).candidate = some m.src) with
  | none => s
  | some k =>
    let s1 := s.modOwn k fun o => { o with offered := false, acked := [], sent := [] }
    ((s1.put (F.NVS_REP_OWNk_STATE k) 1).put (F.NVS_REP_OWNk_HOLDER k) m.src).queueRecord 18

/-- DECLINE, or no answer for 1 s: the next candidate. -/
def State.nextCandidate (s : State) (k : Nat) : State :=
  if (s.ownRep k).offered then s.offerNext k ((s.ownRep k).candidate + 1) else s

/-- DECLINE (R379). -/
def replicaDecline (m : RepMsg) (s : State) : State :=
  match s.repAt m.src with
  | some k => s.nextCandidate k
  | none => s

/-- Send a block in its 128 DATA messages. -/
def State.sendBlock (s : State) (dst owner version : Nat) (b : Nat × List Byte) : State :=
  (List.range 128).foldl (fun s i => s.sendRep dst 4 i b.1 owner version (slice b.2 (24 * i) 24)) s

/-- One replica in a refresh run: OFFER while unplaced; every block that the holder has not acknowledged; VERIFY in the
daily run. -/
def State.refreshOne (s : State) (daily : Bool) (k : Nat) : State :=
  if s.get (F.NVS_REP_OWNk_STATE k) = 0 then (if (s.ownRep k).offered then s else s.offerNext k 0)
  else
    let bs := s.ownBlocks
    let sum := bs.map fun b => (b.1, crc32 b.2)
    let dst := nodeAddr (s.get (F.NVS_REP_OWNk_HOLDER k))
    let todo := bs.filter fun b => !(s.ownRep k).acked.contains (b.1, crc32 b.2)
    let s1 := todo.foldl (fun s b => s.sendBlock dst s.node s.nvs.repVersion b) s
    let s2 := if todo.isEmpty then s1 else s1.put (F.NVS_REP_OWNk_STATE k) 1
    let s3 := s2.modOwn k fun o => { o with acked := o.acked.filter sum.contains, sent := sum }
    if daily then s3.sendRep dst 8 0 0 s.node s.nvs.repVersion ((blocksDigest bs).take 24) else s3

/-- A refresh run (R381): the two replicas one after the other. -/
def replicaRefresh (daily : Bool) (s : State) : State :=
  if s.runs 7 0 ∧ s.replicaOn then
    let s1 := (s.refreshOne daily 0).refreshOne daily 1
    ({ s1 with nvs := { s1.nvs with repDirty := false } }).endAct 7 0
  else s

/-- BLOCK_ACK: the block is acknowledged; COMPLETE follows the last one (R381). -/
def replicaBlockAck (m : RepMsg) (s : State) : State :=
  match s.repAt m.src with
  | none => s
  | some k =>
    let o := s.ownRep k
    let e := (m.block, rdN m.body 0 4)
    if o.offered ∨ !o.sent.contains e then s
    else
      let acked := if o.acked.contains e then o.acked else o.acked ++ [e]
      let s1 := s.modOwn k fun o => { o with acked := acked }
      if o.sent.all acked.contains then
        (((s1.sendRep (nodeAddr m.src) 7 0 0 s.node m.version []).put (F.NVS_REP_OWNk_STATE k) 2).put
          (F.NVS_REP_OWNk_VERSION k) m.version).queueRecord 18
      else s1

/-- VERIFY_ACK: another digest marks every block changed (R381). -/
def replicaVerifyAck (m : RepMsg) (s : State) : State :=
  match s.repAt m.src with
  | none => s
  | some k =>
    if m.body.take 24 = (blocksDigest s.ownBlocks).take 24 then s
    else (s.modOwn k fun o => { o with acked := [] }).put (F.NVS_REP_OWNk_STATE k) 3

/-! ## The holder's side (R380, R381) -/

/-- A foreign slot without a replica. -/
def freeHeld : Held :=
  { owner := 0, serial := 0, version := 0, nblocks := 0, size := 0, blocks := [], staging := [], stageBlock := 0 }

/-- A foreign slot. -/
def State.heldRep (s : State) (j : Nat) : Held := s.nvs.heldReps.toList.getD j freeHeld

/-- Change a foreign slot. -/
def State.modHeld (s : State) (j : Nat) (f : Held → Held) : State :=
  { s with nvs := { s.nvs with heldReps := s.nvs.heldReps.setIfInBounds j (f (s.heldRep j)) } }

/-- STATE of a foreign slot. -/
def State.heldState (s : State) (j : Nat) : Nat := s.get (F.NVS_REP_HELDj_STATE j)

/-- The slots that hold a replica of a node; the one being filled comes first. -/
def State.heldOf (s : State) (owner : Nat) : List Nat :=
  let l := (List.range 3).filter fun j => decide (s.heldState j ≠ 0 ∧ s.get (F.NVS_REP_HELDj_OWNER j) = owner)
  l.filter (fun j => decide (s.heldState j ≠ 2)) ++ l.filter fun j => decide (s.heldState j = 2)

/-- The slot that a message of an owner speaks of: the one accepted last. -/
def State.heldFor (s : State) (m : RepMsg) : Option Nat :=
  (s.heldOf m.owner).find? fun _ => decide (m.src = m.owner)

/-- Drop a foreign replica (R380). -/
def State.dropHeld (s : State) (j : Nat) : State :=
  (((s.modHeld j fun _ => freeHeld).wr (R.NVS_REP_HELDj j) 0).raise (evNvs 14 0)).queueRecord 18

/-- Judge an OFFER as a holder: the slot to use, or the reason of the refusal. -/
def State.judgeOffer (s : State) (m : RepMsg) : Except Nat Nat :=
  if !s.replicaOn then .error 3
  else if 5 * 2 ^ 20 < rdN m.body 0 4 then .error 2
  else
    match (s.heldOf m.owner).find? fun j => decide ((s.heldRep j).serial = rdN m.body 8 8) with
    | some j => .ok j
    | none =>
      match (List.range 3).find? fun j => decide (s.heldState j = 0) with
      | some j => .ok j
      | none => .error 1

/-- An OFFER: an answer to FETCH joins the restore's offers; any other is accepted or declined (R380, R382). -/
def replicaOffer (m : RepMsg) (s : State) : State :=
  match s.nvs.restore with
  | some r =>
    if m.owner = s.node ∧ s.get F.NVS_REP_STATUS_STATE = 1 then
      let s1 := { s with nvs := { s.nvs with restore := some { r with offers := r.offers ++ [(m.src, m.version, rdN m.body 0 4)] } } }
      s1.bump F.NVS_REP_STATUS_OFFERS 1
    else s.sendRep (nodeAddr m.src) 3 0 0 m.owner m.version (leBytes 1 3)
  | none =>
    match s.judgeOffer m with
    | .error c => s.sendRep (nodeAddr m.src) 3 0 0 m.owner m.version (leBytes 1 c)
    | .ok j =>
      let keep := decide (s.heldState j ≠ 0)
      let s1 := s.modHeld j fun h =>
        { (if keep then h else freeHeld) with owner := m.owner, serial := rdN m.body 8 8, version := m.version,
                                              nblocks := rdN m.body 4 2, size := rdN m.body 0 4 }
      let s2 := (s1.put (F.NVS_REP_HELDj_STATE j) 1).put (F.NVS_REP_HELDj_OWNER j) m.owner
      (s2.sendRep (nodeAddr m.src) 2 0 0 m.owner m.version []).queueRecord 18

/-- One chunk into a staged block; the block when its 128 chunks are there. -/
def stageChunk (staging : List (Nat × List Byte)) (chunk : Nat) (body : List Byte) :
    List (Nat × List Byte) × Option (List Byte) :=
  let st := sortBy (fun a b => decide (a.1 ≤ b.1)) ((chunk, padTo 24 body) :: staging.filter fun e => decide (e.1 ≠ chunk))
  if st.length = 128 then ([], some (st.flatMap (·.2))) else (st, none)

/-- Does a block agree with the CRC that a held manifest gives for it? -/
def crcAgrees (bs : List (Nat × List Byte)) (i : Nat) (l : List Byte) : Bool :=
  match bs.find? fun b => decide (b.1 = 0) with
  | none => true
  | some (_, m0) =>
    let k := manifestLen m0
    if i < k then true
    else
      let all := (sortBy (fun a b => decide (a.1 ≤ b.1)) (bs.filter fun b => decide (b.1 < k))).flatMap (·.2)
      decide (rdN all (52 + 4 * (i - k)) 4 = crc32 l)

/-- Put a block into a set. -/
def putBlock (bs : List (Nat × List Byte)) (i : Nat) (l : List Byte) : List (Nat × List Byte) :=
  (i, l) :: bs.filter fun b => decide (b.1 ≠ i)

/-- DATA to a holder: the block is assembled, committed under the energy check and answered (R381). -/
def State.holderData (s : State) (j : Nat) (m : RepMsg) : State :=
  let h := s.heldRep j
  let old := if h.stageBlock = m.block then h.staging else []
  let r := stageChunk old m.chunk m.body
  let s1 := (s.modHeld j fun h => { h with staging := r.1, stageBlock := m.block }).put (F.NVS_REP_HELDj_STATE j) 1
  match r.2 with
  | none => s1
  | some l =>
    let nak := fun (s : State) => s.sendRep (nodeAddr m.src) 6 0 m.block m.owner m.version []
    if !crcAgrees h.blocks m.block l then nak s1
    else
      let a := s1.askCommit (blockTime 3072) 0
      if a.1 ≠ 0 then nak a.2
      else (a.2.modHeld j fun h => { h with blocks := putBlock h.blocks m.block l }).sendRep (nodeAddr m.src) 5 0 m.block
        m.owner m.version (leBytes 4 (crc32 l))

/-- DATA to a restoring device. -/
def State.restoreData (s : State) (r : Restore) (m : RepMsg) : State :=
  let old := if r.stageBlock = m.block then r.staging else []
  let x := stageChunk old m.chunk m.body
  let keep := fun (r : Restore) (s : State) => { s with nvs := { s.nvs with restore := some r } }
  match x.2 with
  | none => keep { r with staging := x.1, stageBlock := m.block } s
  | some l =>
    (keep { r with staging := [], stageBlock := m.block, blocks := putBlock r.blocks m.block l } s).sendRep
      (nodeAddr m.src) 5 0 m.block m.owner m.version (leBytes 4 (crc32 l))

/-- DATA. -/
def replicaData (m : RepMsg) (s : State) : State :=
  match s.nvs.restore with
  | some r => if r.source = some m.src ∧ m.owner = s.node then s.restoreData r m else s
  | none =>
    match s.heldFor m with
    | some j => s.holderData j m
    | none => s

/-- VERIFY: the holder answers with its digest. -/
def replicaVerify (m : RepMsg) (s : State) : State :=
  match s.heldFor m with
  | some j => s.sendRep (nodeAddr m.src) 9 0 0 m.owner m.version ((blocksDigest (s.heldRep j).blocks).take 24)
  | none => s

/-- RELEASE. -/
def replicaRelease (m : RepMsg) (s : State) : State :=
  (s.heldOf m.owner).foldl (fun s j => if m.src = m.owner then s.dropHeld j else s) s

/-- FETCH: a holder of a complete replica for that node offers it (R382). -/
def replicaFetch (m : RepMsg) (s : State) : State :=
  match (s.heldOf m.owner).find? fun j => decide (s.heldState j = 2) with
  | none => s
  | some j =>
    if !s.replicaOn then s
    else
      let h := s.heldRep j
      let k := manifestLen ((h.blocks.find? fun b => decide (b.1 = 0)).elim [] (·.2))
      let mb := (sortBy (fun a b => decide (a.1 ≤ b.1)) (h.blocks.filter fun b => decide (b.1 < k))).flatMap (·.2)
      s.sendRep (nodeAddr m.src) 1 0 0 m.owner (s.get (F.NVS_REP_HELDj_VERSION j))
        (leBytes 4 h.size ++ leBytes 2 h.nblocks ++ leBytes 2 0 ++ leBytes 8 h.serial ++ leBytes 4 (crc32 mb))

/-- ACCEPT at a holder that offered to a restoring node: it sends every block and COMPLETE (R382). -/
def State.serveRestore (s : State) (m : RepMsg) : State :=
  match (s.heldOf m.owner).find? fun j => decide (s.heldState j = 2) with
  | none => s
  | some j =>
    let bs := sortBy (fun a b => decide (a.1 ≤ b.1)) (s.heldRep j).blocks
    (bs.foldl (fun s b => s.sendBlock (nodeAddr m.src) m.owner m.version b) s).sendRep (nodeAddr m.src) 7 0 0 m.owner
      m.version []

/-- KEEP_DAYS have passed without the owner (R380). -/
def keepExpiry (j : Nat) (s : State) : State :=
  if s.heldState j ≠ 0 ∧ !(s.net.nodes.any fun e => decide (e.2 = s.get (F.NVS_REP_HELDj_OWNER j))) then s.dropHeld j else s

/-! ## Restore (R382) -/

/-- The restore ends. -/
def State.endRestore (s : State) (st : Nat) : State :=
  ({ s with nvs := { s.nvs with restore := none } }.put F.NVS_STATUS_RESTORING 0).put F.NVS_REP_STATUS_STATE st

/-- Start a restore: FETCH to every node. -/
def State.startRestore (s : State) : State :=
  let s1 := { s with nvs := { s.nvs with restore := some ⟨[], none, [], [], 0⟩ } }
  let s2 := (s1.wr R.NVS_REP_STATUS (BitVec.ofNat 32 (2 ^ 28))).put F.NVS_STATUS_RESTORING 1
  s2.sendRep everyAddr 0x0B 0 0 s.node 0 []

/-- The best offer: the highest VERSION, then the lowest node. -/
def bestOffer : List (Nat × Nat × Nat) → Option (Nat × Nat × Nat)
  | [] => none
  | o :: l =>
    match bestOffer l with
    | none => some o
    | some b => if b.2.1 < o.2.1 ∨ (b.2.1 = o.2.1 ∧ o.1 ≤ b.1) then some o else some b

/-- Accept the best offer left; without one the restore fails with 0xE1. -/
def State.acceptOffer (s : State) : State :=
  match s.nvs.restore with
  | none => s
  | some r =>
    match bestOffer r.offers with
    | none => (((if s.get F.NVS_REP_STATUS_CODE = 0 then s.put F.NVS_REP_STATUS_CODE 0xE1 else s).endRestore 5)).raise (evNvs 16 0)
    | some o =>
      let r1 := { r with offers := r.offers.filter fun x => decide (x ≠ o), source := some o.1, blocks := [], staging := [] }
      let s1 := ({ s with nvs := { s.nvs with restore := some r1 } }.put F.NVS_REP_STATUS_STATE 2).put
        F.NVS_REP_STATUS_SOURCE o.1
      s1.sendRep (nodeAddr o.1) 2 0 0 s.node o.2.1 []

/-- 1 s after FETCH (R382). -/
def restoreWindow (s : State) : State := if s.get F.NVS_REP_STATUS_STATE = 1 then s.acceptOffer else s

/-- A failed step: the code, RESTORE_FAILED, the next offer; after the last the restore has ended as failed. -/
def State.restoreFailed (s : State) (code : Nat) : State :=
  let s1 := (s.put F.NVS_REP_STATUS_CODE code).raise (evNvs 16 0)
  match s1.nvs.restore with
  | some r => if r.offers = [] then s1.endRestore 5 else s1.acceptOffer
  | none => s1

/-- The blocks are complete: digest, image into the inactive bank, its checks, activation, records (R382). -/
def State.restoreComplete (s : State) (r : Restore) : State :=
  let s0 := s.put F.NVS_REP_STATUS_STATE 3
  if blocksDigest r.blocks ≠ manifestDigest r.blocks then s0.restoreFailed 0xE0
  else
    let k := manifestLen ((r.blocks.find? fun b => decide (b.1 = 0)).elim [] (·.2))
    let l := (sortBy (fun a b => decide (a.1 ≤ b.1)) (r.blocks.filter fun b => decide (k ≤ b.1))).flatMap (·.2)
    let rest := fun (i : Nat) => (List.range i).foldl (fun l _ => (takeChunk l).2) l
    let parts := takeParts 9 (rest 10)
    let a := s0.askCommit (blockTime 4096) 0
    if a.1 ≠ 0 then a.2.restoreFailed 0xE2
    else
      let b := a.2.otherBank
      let s1 := (a.2.setBank b ⟨parts, false⟩).put (bankValidFld b) 1
      let failed := fun (s : State) (c st sec : Nat) => ((s.put (bankValidFld b) 0).cfgResult c st sec).restoreFailed c
      match loadBank s1 b with
      | .error (c, st, sec) => failed s1 c st sec
      | .ok c =>
        if !periodOk c.dev s1.ringCycle then failed s1 0x10 9 0xFF
        else
          match buildPlacement c.dev.cycles (c.parts.flatMap (·.tasks)) with
          | none => failed s1.admitRefused 0x11 10 0xFF
          | some pl =>
            let job : Job := { bank := b, cfg := c, place := pl, axis := none, fallback := false }
            let s2 := { s1 with cfg := { s1.cfg with act := some job } }
            let put1 := fun (s : State) (id : Nat) (l : List Byte) =>
              (s.applyRecord id l).queueCommit ⟨id, false, l, none, true⟩
            let s3 := put1 s2 17 (takeChunk (rest 1)).1
            let s4 := (List.range 8).foldl (fun s n => put1 s (8 + n) (takeChunk (rest (2 + n))).1) s3
            (s4.endRestore 4).raise (evNvs 15 0)

/-- COMPLETE: a holder marks the replica complete and drops an older one of the node; a restoring device goes on. -/
def replicaComplete (m : RepMsg) (s : State) : State :=
  match s.nvs.restore with
  | some r => if r.source = some m.src ∧ m.owner = s.node then s.restoreComplete r else s
  | none =>
    match s.heldFor m with
    | none => s
    | some j =>
      let s1 := ((s.put (F.NVS_REP_HELDj_STATE j) 2).put (F.NVS_REP_HELDj_VERSION j) m.version).modHeld j fun h =>
        { h with version := m.version }
      ((s1.heldOf m.owner).filter fun i => decide (i ≠ j)).foldl State.dropHeld (s1.queueRecord 18)

/-- ACCEPT at its receiver: the owner's replica is placed, or the restoring node is served. -/
def replicaAccepted (m : RepMsg) (s : State) : State :=
  if m.owner = s.node ∧ s.nvs.restore = none then replicaAccept m s else s.serveRestore m

/-- RESTORE of NVS_CMD: every axis disarmed and the service in force. -/
def restoreCmd (s : State) : State :=
  if s.anyArmed ∨ !s.replicaOn ∨ s.nvs.restore.isSome then s.nvResult 5 5 else (s.startRestore).nvResult 5 0

/-- A blank device with AUTO_RESTORE restores itself once numbered (R382). -/
def blankRestore (s : State) : State :=
  if s.flag F.NVS_CFG_AUTO_RESTORE ∧ !s.flag F.CFG_STATUS_BANK0_VALID ∧ !s.flag F.CFG_STATUS_BANK1_VALID ∧ s.numbered ∧
      s.replicaOn ∧ s.nvs.restore = none then s.startRestore
  else s

/-- NVS_CMD. -/
def nvsCmd (w : Word) (s : State) : Bool × State :=
  let id := bitsOf w 8 8
  match bitsOf w 0 8 with
  | 1 => (true, nvsLoad id s)
  | 2 => (true, nvsCommit id s)
  | 3 => (true, nvsAck id s)
  | 4 => (true, saveState id s)
  | 5 => (true, restoreCmd s)
  | _ => (false, s)

/-! ## The rows -/

/-- RESTORE. -/
def execRestore (_p : Path) (_id : Byte) (s : State) : Host.Outcome State Fault Refusal := live s restoreCmd

/-- BLANK_RESTORE_START. -/
def execBlankRestoreStart (s : State) : Host.Outcome State Fault Refusal := live s blankRestore

/-- REPLICA_REFRESH_RUN; whether it is the run of every 24 h. -/
def execReplicaRefreshRun (daily : Bool) (s : State) : Host.Outcome State Fault Refusal := live s (replicaRefresh daily)

/-- REPLICA_OFFER. -/
def execReplicaOffer (m : RepMsg) (s : State) : Host.Outcome State Fault Refusal := live s (replicaOffer m)

/-- REPLICA_ACCEPT. -/
def execReplicaAccept (m : RepMsg) (s : State) : Host.Outcome State Fault Refusal := live s (replicaAccepted m)

/-- REPLICA_DECLINE. -/
def execReplicaDecline (m : RepMsg) (s : State) : Host.Outcome State Fault Refusal := live s (replicaDecline m)

/-- OFFER_TIMEOUT of own replica `k`. -/
def execOfferTimeout (k : Fin 2) (s : State) : Host.Outcome State Fault Refusal := live s fun s => s.nextCandidate k.val

/-- REPLICA_DATA. -/
def execReplicaData (m : RepMsg) (s : State) : Host.Outcome State Fault Refusal := live s (replicaData m)

/-- REPLICA_BLOCK_ACK. -/
def execReplicaBlockAck (m : RepMsg) (s : State) : Host.Outcome State Fault Refusal := live s (replicaBlockAck m)

/-- BLOCK_NAK: the block stays unacknowledged and is sent again in the next run (R381). -/
def replicaBlockNak (m : RepMsg) (s : State) : State :=
  match s.repAt m.src with
  | none => s
  | some k => s.modOwn k fun o => { o with acked := o.acked.filter fun e => decide (e.1 ≠ m.block) }

/-- REPLICA_BLOCK_NAK. -/
def execReplicaBlockNak (m : RepMsg) (s : State) : Host.Outcome State Fault Refusal := live s (replicaBlockNak m)

/-- REPLICA_COMPLETE. -/
def execReplicaComplete (m : RepMsg) (s : State) : Host.Outcome State Fault Refusal := live s (replicaComplete m)

/-- REPLICA_VERIFY. -/
def execReplicaVerify (m : RepMsg) (s : State) : Host.Outcome State Fault Refusal := live s (replicaVerify m)

/-- REPLICA_VERIFY_ACK. -/
def execReplicaVerifyAck (m : RepMsg) (s : State) : Host.Outcome State Fault Refusal := live s (replicaVerifyAck m)

/-- REPLICA_RELEASE. -/
def execReplicaRelease (m : RepMsg) (s : State) : Host.Outcome State Fault Refusal := live s (replicaRelease m)

/-- REPLICA_FETCH. -/
def execReplicaFetch (m : RepMsg) (s : State) : Host.Outcome State Fault Refusal := live s (replicaFetch m)

/-- RESTORE_OFFER_WINDOW. -/
def execRestoreOfferWindow (s : State) : Host.Outcome State Fault Refusal := live s restoreWindow

/-- REPLICA_KEEP_EXPIRY of foreign slot `j`. -/
def execReplicaKeepExpiry (j : Fin 3) (s : State) : Host.Outcome State Fault Refusal := live s (keepExpiry j.val)

end Sys2Proof.Machine
end

