-- ==== Sys2Proof/Machine/Net.lean ====
section
/-!
DEFINITION. Ring ports, segments, training, forwarding (R313 to R325, R333 to R339), link delay (R342), the records that a
pass brings (R124 to R126), loss of the ring (R337, R344, R358).
-/
namespace Sys2Proof.Machine

/-! ## Segments (R315, R316, R325) -/

/-- How a received segment stands: its FCS correct, the complement of the correct value, or errored in another way. -/
inductive SegState where
  | good
  | marked
  | bad
deriving DecidableEq, Repr

/-- A segment from TYPE to the end of its body, without the FCS. -/
structure Seg where
  head : List Byte
  body : List Byte
  st : SegState
deriving DecidableEq, Repr

/-- TYPE of a segment. -/
def Seg.typ (g : Seg) : Nat := rdN g.head 0 1

/-- The segment of the bytes from TYPE to the FCS (R315); a LENGTH above 2,304 or another size is an error (R316). -/
def parseSeg (l : List Byte) : Seg :=
  let content := l.take (l.length - 4)
  let fcs := ofLe (l.drop (l.length - 4))
  let len := rdN l 2 2
  let crc := crc32 content
  let st := if l.length ≠ len + 8 ∨ 2304 < len then SegState.bad
    else if fcs = crc then .good else if fcs + crc = 0xFFFFFFFF then .marked else .bad
  ⟨content.take 4, content.drop 4, st⟩

/-- The bytes sent for a segment: the correct FCS of what is sent, or its complement for a segment that was not received
correctly (R325). -/
def Seg.bytes (g : Seg) : List Byte :=
  let content := g.head ++ g.body
  let crc := crc32 content
  content ++ leBytes 4 (if g.st = .good then crc else 0xFFFFFFFF - crc)

/-- A segment that the node itself makes. -/
def mkSeg (typ : Nat) (body : List Byte) : Seg := ⟨leBytes 1 typ ++ leBytes 1 0 ++ leBytes 2 body.length, body, .good⟩

/-- The types of Table 13.1. -/
def knownType (t : Nat) : Bool := [1, 2, 3, 4, 5, 0x10, 0x11, 0x12].contains t

/-- Replace the bytes at an offset. -/
def putBytes (l : List Byte) (off : Nat) (b : List Byte) : List Byte := l.take off ++ b ++ l.drop (off + b.length)

/-- A HEADER body (Table 13.4). -/
structure Hdr where
  cycleNo : Nat
  time : Nat
  epoch : Nat
  topo : Nat
  len : Nat
  nodes : Nat
  mbx : Nat
  records : Nat
  ver : Nat
  features : Nat
  prio : Nat
  root : Nat
  reopen : Option (Nat × Nat)
deriving DecidableEq, Repr

/-- A HEADER body from its bytes; REOPEN names a node and a port. -/
def parseHdr (b : List Byte) : Hdr :=
  let r := rdN b 0x1C 2
  let o := rdN b 0x1E 2
  { cycleNo := rdN b 0 4, time := rdN b 4 8, epoch := rdN b 0xC 2, topo := rdN b 0xE 2, len := rdN b 0x10 4,
    nodes := rdN b 0x14 2, mbx := rdN b 0x16 2, records := rdN b 0x18 2, ver := rdN b 0x1A 1, features := rdN b 0x1B 1,
    prio := r / 4096, root := r % 4096,
    reopen := if o / 32768 = 1 then some (o % 4096, o / 4096 % 4) else none }

/-- The 32 bytes of a HEADER body. -/
def Hdr.bytes (h : Hdr) : List Byte :=
  let o := match h.reopen with
    | some (n, p) => 32768 + p * 4096 + n
    | none => 0
  leBytes 4 h.cycleNo ++ leBytes 8 h.time ++ leBytes 2 h.epoch ++ leBytes 2 h.topo ++ leBytes 4 h.len ++
    leBytes 2 h.nodes ++ leBytes 2 h.mbx ++ leBytes 2 h.records ++ leBytes 1 h.ver ++ leBytes 1 h.features ++
    leBytes 2 (h.prio * 4096 + h.root) ++ leBytes 2 o

/-- Is the segment a HEADER with a correct FCS? -/
def Seg.isHeader (g : Seg) : Bool := decide (g.typ = 1 ∧ g.st = .good ∧ g.body.length = 32)

/-! ## The network side of the state -/

/-- Change the network side. -/
def State.modNet (s : State) (f : Net → Net) : State := { s with net := f s.net }

/-- Port `q`. -/
def State.np (s : State) (q : Nat) : NetPort := s.net.ports.toList.getD q restPort

/-- Change port `q`. -/
def State.modNp (s : State) (q : Nat) (f : NetPort → NetPort) : State :=
  { s with net := { s.net with ports := s.net.ports.setIfInBounds q (f (s.np q)) } }

/-- NETp_STATUS.STATE: 0 DISABLED, 1 DOWN, 2 TRAINING, 3 REFUSED, 4 CLOSED, 5 OPEN, 6 TEST. -/
def State.portState (s : State) (q : Nat) : Nat := s.get (F.NETp_STATUS_STATE q)

/-- Is the port OPEN? -/
def State.isOpen (s : State) (q : Nat) : Bool := decide (s.portState q = 5)

/-- Counter `j` of Table 13.14 counts. -/
def State.count (s : State) (q j : Nat) : State := s.bump (F.NETp_CNT_COUNT q j) 1

/-- Send a segment `after` ns after the event. -/
def State.sendSeg (s : State) (q after : Nat) (b : List Byte) : State :=
  s.modNet fun n => { n with tx := n.tx ++ [⟨q, after, b⟩] }

/-- The outcome of a network event: what it sends replaces what the last one sent. -/
def liveN (s : State) (f : State → State) : Host.Outcome State Fault Refusal :=
  live s fun s => f (s.modNet fun n => { n with tx := [] })

/-- The outcome of an event that may send and may move the asynchronous path. -/
def liveNA (s : State) (f : State → State) : Host.Outcome State Fault Refusal :=
  live s fun s => State.settle s (f (s.modNet fun n => { n with tx := [] }))

/-- Is this node the root? -/
def State.rootHere (s : State) : Bool := s.flag F.NET_RING_ROOT_HERE

/-! ## Port states (Table 13.3) -/

/-- A loader session bound to ring port `q`, or to any ring port, ends (R69). -/
def State.portSession (s : State) (q : Option Nat) : State :=
  match s.cfg.port with
  | some (.ring p _) =>
    if (q = none ∨ q = some p.val) ∧ s.loader ≠ 6 then s.endSession 0x15 0 0xFF else s
  | _ => s

/-- Store a port state; a port that leaves OPEN ends its session. -/
def State.setPort (s : State) (q v : Nat) : State :=
  let was := s.isOpen q
  let s1 := s.put (F.NETp_STATUS_STATE q) v
  if was ∧ v ≠ 5 then s1.portSession (some q) else s1

/-- A port enters DOWN (R334, R342, R343). -/
def State.enterDown (s : State) (q : Nat) : State :=
  let st := s.portState q
  let s1 := if st = 2 ∨ st = 4 ∨ st = 5 then s.count q 0 else s
  let s2 := ((s1.put (F.NETp_STATUS_LINK_VER q) 0).put (F.NETp_STATUS_REASON q) 0).modNp q fun _ => restPort
  ((s2.put (F.NETp_STATUS_DELAY_VALID q) 0).put (F.NETp_STATUS_OFFSET_VALID q) 0).setPort q 1

/-- A port starts training (R317). -/
def State.enterTraining (s : State) (q : Nat) : State :=
  ((s.put (F.NETp_STATUS_LINK_VER q) 0).modNp q fun p =>
    { p with sent := 0, recv := 0, backoff := false, looping := false, prbs := false }).setPort q 2

/-- A write of NETp_CFG: EN = 0 disables the port, EN = 1 of a disabled port makes it DOWN. -/
def netCfgWrite (q : Nat) (w : Word) (s : State) : State :=
  let s1 := s.put (F.NETp_CFG_EN q) (bitsOf w 0 1)
  if bitsOf w 0 1 = 0 then (if s.portState q = 0 then s1 else (s1.put (F.NETp_STATUS_LINK_VER q) 0).setPort q 0)
  else if s.portState q = 0 then s1.enterDown q else s1

/-- The PHY reports a full-duplex link (R317). -/
def linkUp (q : Nat) (s : State) : State := if s.portState q = 1 then s.enterTraining q else s

/-- The link resolves to another mode (R313). -/
def linkModeRefused (q : Nat) (s : State) : State :=
  if s.portState q = 1 then (s.put (F.NETp_STATUS_REASON q) 1).setPort q 3 else s

/-- No valid code group for 5 µs, or the loss of the link (R334, Table 13.3). -/
def linkLost (q : Nat) (s : State) : State :=
  let st := s.portState q
  if st = 2 ∨ st = 3 ∨ st = 4 ∨ st = 5 then s.enterDown q else s

/-! ## TRAIN segments (R317, R342) -/

/-- The serial number. -/
def State.serial (s : State) : Nat := s.wide 64 R.SYS_SERIAL_LO

/-- The word of a root: priority and node number, 0 for none. -/
def State.rootWord (s : State) : Nat :=
  match s.net.root with
  | some r => s.net.rootPrio * 4096 + r
  | none => 0

/-- The TRAIN body that port `q` sends (Table 13.2). -/
def State.trainBody (s : State) (q : Nat) : List Byte :=
  let ver := s.get (F.NETp_STATUS_LINK_VER q)
  let loopReq := s.runs 1 q && decide (s.get (F.NETp_TEST_LOOP q) = 2)
  leBytes 8 s.serial ++ leBytes 2 3 ++ leBytes 1 q ++ leBytes 1 (b2n (decide (ver ≠ 0)) + 2 * b2n loopReq) ++
    leBytes 1 ver ++ leBytes 1 0 ++ leBytes 2 (if s.numbered then 32768 + s.node else 0) ++ leBytes 2 s.rootWord ++
    leBytes 2 (if s.numbered then s.get F.NET_RING_TOPO_EPOCH else 0) ++ leBytes 4 0

/-- A port whose training is complete rests in CLOSED. -/
def State.trained (s : State) (q : Nat) : State :=
  if s.portState q = 2 ∧ 3 ≤ (s.np q).sent ∧ 3 ≤ (s.np q).recv then s.setPort q 4 else s

/-- Send a TRAIN segment. -/
def State.sendTrain (s : State) (q after : Nat) : State :=
  let s1 := s.sendSeg q after (mkSeg 0x10 (s.trainBody q)).bytes
  let agreed := s.get (F.NETp_STATUS_LINK_VER q) ≠ 0
  (if agreed then s1.modNp q fun p => { p with sent := Nat.min 3 (p.sent + 1) } else s1).trained q

/-- The highest version of both bitmaps, 0 for none; the device supports 1 and 2. -/
def commonVersion (v : Nat) : Nat := if v / 2 % 2 = 1 then 2 else if v % 2 = 1 then 1 else 0

/-- A delay sample in quarter ns (R342): discarded outside 0 to 1,000 ns; DELAY is the mean of the latest 16. -/
def State.delaySample (s : State) (q : Nat) (x : Int) (peer : Nat) : State :=
  if x < 0 ∨ 4000 < x then (if s.serial < peer then s.modNp q fun p => { p with backoff := true } else s)
  else
    let l := (x :: (s.np q).samples).take 16
    let s1 := (s.modNp q fun p => { p with samples := l }).put (F.NETp_DELAY_DELAY q)
      (convDiv (sumI l) (4 * l.length)).toNat
    if 2 ≤ l.length then s1.put (F.NETp_STATUS_DELAY_VALID q) 1 else s1

/-- A valid TRAIN arrives `gapH` half ns after the port's own latest one. -/
def trainReceived (q : Nat) (b : List Byte) (gapH : Nat) (s : State) : State :=
  let st := s.portState q
  if b.length ≠ 24 ∨ (st ≠ 2 ∧ st ≠ 4) then s
  else
    let known := s.get (F.NETp_STATUS_LINK_VER q)
    let ver := if known = 0 then commonVersion (rdN b 8 2) else known
    if ver = 0 then (s.put (F.NETp_STATUS_REASON q) 2).setPort q 3
    else
      let s1 := s.put (F.NETp_STATUS_LINK_VER q) ver
      let flags := rdN b 11 1
      if flags / 2 % 2 = 1 then (s1.modNp q fun p => { p with looping := true }).setPort q 6
      else
        let s2 := if flags % 2 = 1 ∧ rdN b 12 1 = ver then s1.modNp q fun p => { p with recv := Nat.min 3 (p.recv + 1) }
          else s1
        if gapH ≤ 24000 then (s2.delaySample q ((gapH : Int) - 20000) (rdN b 0 8)).trained q
        else s2.sendTrain q 10000

/-- The TRAIN interval expires: a request, 50 µs later after a discarded sample of the lower SERIAL. -/
def trainInterval (q : Nat) (s : State) : State :=
  if s.portState q = 2 ∨ s.portState q = 4 then
    (s.sendTrain q (if (s.np q).backoff then 50000 else 0)).modNp q fun p => { p with backoff := false }
  else s

/-- 10 ms without a valid TRAIN (R317, Table 13.3). -/
def trainTimeout (q : Nat) (s : State) : State :=
  if s.portState q = 2 then (s.count q 4).enterTraining q
  else if s.portState q = 4 then s.enterTraining q else s

/-- LOOP_REQ has been absent for 10 ms (R338). -/
def loopReqTimeout (q : Nat) (s : State) : State := if (s.np q).looping then s.enterTraining q else s

/-! ## LINK_PRBS (R338) -/

/-- A granted LINK_PRBS takes the port into TEST; with remote loopback a TRAIN with LOOP_REQ goes first. -/
def State.startPrbs (s : State) (q : Nat) : State :=
  let s1 := if s.get (F.NETp_TEST_LOOP q) = 2 then s.sendSeg q 0 (mkSeg 0x10 (s.trainBody q)).bytes else s
  if s.portState q = 0 then s1 else s1.setPort q 6

/-- The activity ends: the port trains again. -/
def State.endPrbs (s : State) (q : Nat) : State := if s.portState q = 6 then s.enterTraining q else s

/-- Does the port's checker run? -/
def State.prbsOn (s : State) (q : Nat) : Bool := s.runs 1 q && decide (s.portState q = 6)

/-- The checker locks. -/
def prbsLock (q : Nat) (s : State) : State := if s.prbsOn q then s.modNp q fun p => { p with prbs := true } else s

/-- The checker loses lock. -/
def prbsLockLost (q : Nat) (s : State) : State :=
  if s.prbsOn q ∧ (s.np q).prbs then (s.modNp q fun p => { p with prbs := false }).count q 8 else s

/-- An errored bit. -/
def prbsBitError (q : Nat) (s : State) : State := if s.prbsOn q ∧ (s.np q).prbs then s.count q 7 else s

/-! ## Forwarding (R321 to R325, R333) -/

/-- The other ports after `q` in the cyclic order A, B, C. -/
def othersOf (q : Nat) : List Nat := [(q + 1) % 3, (q + 2) % 3]

/-- The port on which a segment that arrives on `q` goes on; none where a frame ends at the root. -/
def State.outPort (s : State) (q : Nat) : Option Nat :=
  let p := ((othersOf q).find? s.isOpen).getD q
  if s.rootHere ∧ s.net.rs.first = some p then none else some p

/-- The broken ports at which a node that has only `q` wraps with a marking. -/
def State.wrapPorts (s : State) (q : Nat) : List Nat :=
  if (othersOf q).any s.isOpen ∨ s.rootHere ∨ !s.numbered then []
  else (othersOf q).filter fun p => decide (s.portState p = 1 ∨ s.portState p = 4)

/-- WRAP_1 and WRAP_2 of a GOOSE body as the node leaves them. -/
def State.markWrap (s : State) (q : Nat) (b : List Byte) : List Byte :=
  let me := 32768 + s.node
  if (s.wrapPorts q).isEmpty then b
  else if rdN b 6 2 < 32768 then putBytes b 6 (leBytes 2 me)
  else if rdN b 6 2 ≠ me ∧ rdN b 8 2 < 32768 then putBytes b 8 (leBytes 2 me)
  else b

/-- ERR_NODE and LOOP_FOUND of a GOOSE body as the node leaves them. -/
def State.markFaults (s : State) (b : List Byte) : List Byte :=
  let b1 := if s.net.errPass ∧ rdN b 10 2 < 32768 ∧ s.numbered then putBytes b 10 (leBytes 2 (32768 + s.node)) else b
  if s.net.loopPass then putBytes b1 12 (leBytes 2 (rdN b1 12 2 ||| 1)) else b1

/-- Send a segment on, one forwarding latency after its arrival. -/
def State.forward (s : State) (q : Nat) (g : Seg) : State :=
  match s.outPort q with
  | none => s
  | some p =>
    let s1 := s.sendSeg p (s.get F.NET_NODE_FWD_LAT) g.bytes
    if g.typ = 1 ∧ !s1.net.sentOn.contains p then s1.modNet fun n => { n with sentOn := n.sentOn ++ [p] } else s1

/-- What the FCS of an arriving segment counts; errors of two consecutive cycles take the port down (R334). -/
def State.countSeg (s : State) (q : Nat) (g : Seg) : State :=
  let s0 := if knownType g.typ then s else s.count q 6
  match g.st with
  | .good => s0
  | .marked => s0.count q 2
  | .bad =>
    let s1 := (s0.count q 1).modNet fun n => { n with errPass := true }
    let s2 := s1.modNp q fun p => { p with errNow := true }
    if (s.np q).errPrev then s2.enterDown q else s2

/-- Each marking wrap counts at the broken ports. -/
def State.countWraps (s : State) (q : Nat) : State := (s.wrapPorts q).foldl (fun s p => s.count p 5) s

/-- A HEADER opens a CLOSED port it arrives on (own TOPO_EPOCH), or every CLOSED port (an ENUM cycle) (R336). -/
def State.openOnHeader (s : State) (q : Nat) (g : Seg) : State :=
  if !g.isHeader then s
  else
    let h := parseHdr g.body
    if h.nodes = 0 then
      (List.range 3).foldl (fun s p => if s.portState p = 4 ∧ (s.portState q = 4 ∨ s.portState q = 5) then s.setPort p 5 else s) s
    else if s.portState q = 4 ∧ s.numbered ∧ h.topo = s.get F.NET_RING_TOPO_EPOCH then s.setPort q 5
    else s

/-! ## Master records (R124 to R126) -/

/-- The memberships of a herd that this node hosts as Bellwether. -/
def State.hosting (s : State) (i : Nat) : Bool := s.flag (F.NET_HERDi_STATUS_HOSTING i)

/-- Store a present MASTER record for membership `i`. -/
def State.masterRecord (s : State) (i : Nat) (b : List Byte) : State :=
  let r : MRec := ⟨sext 48 (rdN b 4 6), sext 40 (rdN b 10 5), rdN b 16 8⟩
  s.modHerd i fun h =>
    { h with prev := h.cur, cur := some r, count := h.count + 1, missed := 0, seen := true, ok := true, words := allWords b }

/-- One record that a pass shows (Table 4.4): a RAW one to its Bellwether, a present MASTER one to its members. -/
def State.takeRecord (s : State) (b : List Byte) : State :=
  let flags := rdN b 1 1
  let valid := decide (flags / 64 % 2 = 1)
  (s.membersOf (rdN b 0 1)).foldl (fun s i =>
    if !valid then s
    else if flags < 128 then (if s.hosting i then s.modHerd i fun h => { h with raw := b } else s)
    else
      let seen := ((s.herds.toList[i]?).map (·.seen)).getD true
      let epoch := s.get (F.NET_HERDi_STATUS_BW_EPOCH i)
      if s.net.recOk ∧ epoch ≠ 0 ∧ rdN b 2 2 = epoch ∧ !seen then s.masterRecord i b else s) s

/-- The records of a RECORDS body. -/
def State.takeRecords (s : State) (b : List Byte) : State :=
  (piecesOf 24 (b.length / 24) b).foldl State.takeRecord s

/-- HOLDOVER consecutive cycles have missing records (R126). -/
def masterLostEvent (i : Nat) (s : State) : State :=
  match s.herds.toList[i]? with
  | none => s
  | some h =>
    let k := s.get (F.NET_HERDi_PARAM_HOLDOVER i)
    let late := decide (k * s.get F.NET_CYCLE_LEN * 2 ≤ (s.now + s.sub - s.net.passAt) * 5)
    if h.ok ∧ (k ≤ h.missed ∨ late) then s.masterLost i else s

/-! ## A segment that is forwarded only -/

/-- A segment that arrives on an open port and is forwarded: a later pass of its cycle, an unknown type, a pass that the
node does not process. Only what R316, R323, R325 and R333 say changes it; its records are read (R124). -/
def State.passOn (s : State) (q : Nat) (g : Seg) : State :=
  let s0 := if g.typ = 1 then
      let again := g.isHeader && decide (s.net.cycle = some (rdN g.body 0 4)) && !s.net.sentOn.contains q && !s.rootHere
      s.modNet fun n => { n with errPass := false, loopPass := again }
    else s
  let g1 := if g.typ = 5 ∧ g.body.length = 16 then { g with body := s0.markFaults (s0.markWrap q g.body) } else g
  let s1 := s0.forward q g1
  let s2 := if g.typ = 5 then s1.countWraps q else s1
  let s3 := if g.typ = 3 ∧ g.st = .good then s2.takeRecords g.body else s2
  s3.countSeg q g

/-- SEGMENT_RECEIVED: the segment of bytes `b`, TYPE to FCS, arrives on port `q`. TRAIN segments are never forwarded. -/
def segmentReceived (q : Nat) (b : List Byte) (s : State) : State :=
  let g := parseSeg b
  if g.typ = 0x10 then s
  else
    let s1 := s.openOnHeader q g
    if s1.isOpen q then s1.passOn q g else s1

/-! ## Loss of the ring (R337, R344, R358) -/

/-- The axes of SUP_AXES stop with cause RING. -/
def State.supStops (s : State) : State :=
  s.causeAll ((List.range 8).filter fun n => decide (bitsOf (s.rd R.NET_CFG) n 1 = 1)) 4 0

/-- SUP_LOST (R358). -/
def State.supLost (s : State) : State :=
  (if s.flag F.NET_RING_SUP_LOST then s else (s.put F.NET_RING_SUP_LOST 1).raise (evNet 3)).supStops

/-- SUP_MISS consecutive misses. -/
def supLostEvent (s : State) : State :=
  if s.get F.NET_CFG_SUP_MISS ≤ s.net.misses ∧ !s.flag F.NET_RING_SUP_LOST then s.supLost else s

/-- No valid HEADER for 3 × CYCLE_LEN (R337). -/
def isolated (s : State) : State :=
  if s.rootHere ∨ s.flag F.NET_RING_ISOLATED then s
  else
    let s1 := (s.put F.NET_RING_ISOLATED 1).raise (evNet 4)
    ((s1.supLost).portSession none).modNet fun n => { n with life := none, root := none, rootPrio := 0 }

/-- Every pending timed command of the device is dropped (R131). -/
def State.dropAllSlots (s : State) : State := (List.range 8).foldl (fun s n => s.dropSlots n fun _ => true) s

/-- Loss of lock (R344). -/
def State.loseLock (s : State) : State :=
  let s1 := (s.put F.NET_TIME_STATUS_LOCKED 0).put F.NET_TIME_STATUS_HOLDOVER 0
  ((s1.modNet fun n => { n with lock := 0, stepped := false }).raise (evNet 1)).dropAllSlots

/-- Holdover lasts longer than NET_TIME_CFG.HOLDOVER (R344). -/
def holdoverExpiry (s : State) : State :=
  if s.locked ∧ s.flag F.NET_TIME_STATUS_HOLDOVER then s.loseLock else s

/-- A write of NETp_OFFSET (R343). -/
def netOffsetWrite (q : Nat) (w : Word) (s : State) : State :=
  (s.wr (R.NETp_OFFSET q) w).put (F.NETp_STATUS_OFFSET_VALID q) 1

/-! ## Commands -/

/-- LINK_UP. -/
def execLinkUp (q : PortIx) (s : State) : Host.Outcome State Fault Refusal := liveN s (linkUp q.val)

/-- LINK_MODE_REFUSED. -/
def execLinkModeRefused (q : PortIx) (s : State) : Host.Outcome State Fault Refusal := liveN s (linkModeRefused q.val)

/-- LINK_LOST. -/
def execLinkLost (q : PortIx) (s : State) : Host.Outcome State Fault Refusal := liveN s (linkLost q.val)

/-- TRAIN_RECEIVED: a valid TRAIN body, `gapH` half ns after the port's own latest TRAIN. -/
def execTrainReceived (q : PortIx) (body : List Byte) (gapH : Nat) (s : State) : Host.Outcome State Fault Refusal :=
  liveN s (trainReceived q.val body gapH)

/-- TRAIN_INTERVAL. -/
def execTrainInterval (q : PortIx) (s : State) : Host.Outcome State Fault Refusal := liveN s (trainInterval q.val)

/-- TRAIN_TIMEOUT. -/
def execTrainTimeout (q : PortIx) (s : State) : Host.Outcome State Fault Refusal := liveN s (trainTimeout q.val)

/-- LOOP_REQ_TIMEOUT. -/
def execLoopReqTimeout (q : PortIx) (s : State) : Host.Outcome State Fault Refusal := liveN s (loopReqTimeout q.val)

/-- INVALID_CODE_GROUP. -/
def execInvalidCodeGroup (q : PortIx) (s : State) : Host.Outcome State Fault Refusal := liveN s fun s => s.count q.val 3

/-- PRBS_LOCK. -/
def execPrbsLock (q : PortIx) (s : State) : Host.Outcome State Fault Refusal := liveN s (prbsLock q.val)

/-- PRBS_LOCK_LOST. -/
def execPrbsLockLost (q : PortIx) (s : State) : Host.Outcome State Fault Refusal := liveN s (prbsLockLost q.val)

/-- PRBS_BIT_ERROR. -/
def execPrbsBitError (q : PortIx) (s : State) : Host.Outcome State Fault Refusal := liveN s (prbsBitError q.val)

/-- SEGMENT_RECEIVED. -/
def execSegmentReceived (q : PortIx) (bytes : List Byte) (s : State) : Host.Outcome State Fault Refusal :=
  liveN s (segmentReceived q.val bytes)

/-- ISOLATED. -/
def execIsolated (s : State) : Host.Outcome State Fault Refusal := liveN s isolated

/-- SUP_LOST. -/
def execSupLost (s : State) : Host.Outcome State Fault Refusal := liveN s supLostEvent

/-- HOLDOVER_EXPIRY. -/
def execHoldoverExpiry (s : State) : Host.Outcome State Fault Refusal := liveN s holdoverExpiry

/-- MASTER_LOST of membership `i`. -/
def execMasterLost (i : Fin 16) (s : State) : Host.Outcome State Fault Refusal := liveN s (masterLostEvent i.val)

/-- NET_OFFSET_WRITE. -/
def execNetOffsetWrite (_p : Path) (q : PortIx) (w : Word) (s : State) : Host.Outcome State Fault Refusal :=
  liveN s (netOffsetWrite q.val w)

end Sys2Proof.Machine
end

