-- ==== Sys2Proof/Machine/Pwm.lean ====
section
/-!
DEFINITION. The pulse-width modulator (chapter 6): patterns and runt suppression (R163, R164), commit and reload (R165 to
R167), refresh (R168), forces (R170), fault latches as written (R174, R175), auxiliary channels (R176) and timer events
(R178); the guard-domain short as its boundary takes it (R151 to R154, R198).
-/
namespace Sys2Proof.Machine

/-! ## Periods and patterns -/

/-- PWM periods in a frame of axis `n` (R15). -/
def State.pwmDiv (s : State) (n : Nat) : Nat := Nat.max 1 (s.cfg.run.dev.m.getD n 1)

/-- The PWM period P of axis `n` in core cycles (R160). -/
def State.pwmP (s : State) (n : Nat) : Nat := s.get F.FRM_PERIOD_CYCLES / s.pwmDiv n

/-- The period in steps of 78.125 ps (R162). -/
def State.steps (s : State) (n : Nat) : Nat := 32 * s.pwmP n

/-- The high intervals of a compare pair in a period of `full` steps (R162, R163). -/
def highIntervals (full : Nat) (c : Nat × Nat) : List (Nat × Nat) :=
  let r := Nat.min c.1 full
  let f := Nat.min c.2 full
  if r < f then [(r, f)]
  else if f < r then
    (if 0 < f then [(0, f)] else []) ++ (if r < full then [(r, full)] else [])
  else []

/-- Cut the first `len` steps out of intervals: the refresh pulse (R168). -/
def cutLow (len : Nat) (l : List (Nat × Nat)) : List (Nat × Nat) :=
  l.filterMap fun i => if i.2 ≤ len then none else some (Nat.max i.1 len, i.2)

/-- Join intervals whose gap is shorter than `g`. -/
def joinGaps (g : Nat) : List (Nat × Nat) → List (Nat × Nat)
  | [] => []
  | i :: l =>
    match joinGaps g l with
    | [] => [i]
    | j :: r => if j.1 < i.2 + g then (i.1, Nat.max i.2 j.2) :: r else i :: j :: r

/-- Runt suppression in two passes over three periods laid end to end (R164): first the short high intervals, then the
short low ones. An interval that the window of three periods cuts counts as long. -/
def suppress (full : Nat) (l : List (Nat × Nat)) : List (Nat × Nat) :=
  let a := joinGaps 1 l
  let b := a.filter fun i => decide (i.1 = 0 ∨ i.2 = 3 * full ∨ 128 ≤ i.2 - i.1)
  joinGaps 128 b

/-- Shift intervals by `d`. -/
def shiftBy (d : Nat) (l : List (Nat × Nat)) : List (Nat × Nat) := l.map fun i => (i.1 + d, i.2 + d)

/-- The part of intervals that lies in the middle period, counted from its start. -/
def middle (full : Nat) (l : List (Nat × Nat)) : List (Nat × Nat) :=
  l.filterMap fun i =>
    let a := Nat.max i.1 full
    let b := Nat.min i.2 (2 * full)
    if a < b then some (a - full, b - full) else none

/-- The refresh length of channel `k` in steps: 300 ns + 100 ns × code (R168). -/
def State.refreshLen (s : State) (k : Nat) : Nat := (300 + 100 * s.get (F.PWMk_CFG_REFRESH_LEN k)) * 64 / 5

/-- The active compares of channel `k`. -/
def State.active (s : State) (k : Nat) : Nat × Nat :=
  (s.get (F.PWMk_ACT_RISE_VALUE k), s.get (F.PWMk_ACT_FALL_VALUE k))

/-- Is the next boundary of axis `n` frame-aligned? -/
def State.nextAligned (s : State) (n : Nat) : Bool := decide (s.pwmDiv n ≤ (s.pw n).idx + 1)

/-- The set that loads at the next boundary of channel `k` (R165, R166). -/
def State.nextSet (s : State) (k : Nat) : Nat × Nat :=
  let b := s.br k
  match (if s.nextAligned (k / 4) then b.ready else none) with
  | some c => c
  | none => b.pend.getD (s.active k)

/-- The coil level that the next period of axis `n` runs at. -/
def State.nextLevel (s : State) (n : Nat) : Nat :=
  let p := s.pw n
  if s.nextAligned n then p.levelReady.getD p.level else p.level

/-- H of channel `k` in the present RUN period, as intervals from the period start (R163, R164, R168). -/
def State.runHigh (s : State) (k : Nat) : List (Nat × Nat) :=
  let n := k / 4
  let full := s.steps n
  let b := s.br k
  let cut := fun (c : Bool) l => if c then cutLow (s.refreshLen k) l else l
  let prev := highIntervals full b.before
  let now := cut b.refresh (highIntervals full (s.active k))
  let next := if s.nextLevel n = 1 ∨ s.nextLevel n = 2 ∨ s.driven n then highIntervals full (s.nextSet k) else []
  cut b.refresh (middle full (suppress full (prev ++ shiftBy full now ++ shiftBy (2 * full) next)))

/-- Is `t` inside one of the intervals? -/
def inside (l : List (Nat × Nat)) (t : Nat) : Bool := l.any fun i => decide (i.1 ≤ t ∧ t < i.2)

/-- The longest gap between intervals of a period of `full` steps, from step `from0`. -/
def longestGap (full : Nat) : Nat → List (Nat × Nat) → Nat
  | at0, [] => full - at0
  | at0, i :: l => Nat.max (i.1 - at0) (longestGap full i.2 l)

/-- Was the period that ends a charging period for channel `k` (R168)? A state that changed inside the period counts as
it stands at the end. -/
def State.charged (s : State) (k : Nat) : Bool :=
  match s.chanState k with
  | 0 => decide (s.get (F.PWMk_CFG_SAFE k) = 1)
  | 2 => true
  | 3 => decide (s.get (F.PWMk_FORCE_LEVEL k) = 2)
  | 4 => (s.br k).refresh || decide (s.refreshLen k ≤ longestGap (s.steps (k / 4)) 0 (s.runHigh k))
  | _ => false

/-- Was H 1 for the whole of the period that ends (PWMkk_STATUS.FULL)? -/
def State.wasFull (s : State) (k : Nat) : Bool :=
  match s.chanState k with
  | 3 => decide (s.get (F.PWMk_FORCE_LEVEL k) = 3)
  | 4 => decide (s.runHigh k = [(0, s.steps (k / 4))])
  | _ => false

/-- The pattern that a channel leaves behind it at a boundary. -/
def State.leftBehind (s : State) (k : Nat) : Nat × Nat :=
  match s.chanState k with
  | 3 => if s.get (F.PWMk_FORCE_LEVEL k) = 3 then (0, s.steps (k / 4)) else (0, 0)
  | 4 => s.active k
  | _ => (0, 0)

/-! ## The guard-domain short (R151 to R154, R198) -/

/-- GUARD_RELEASE of axis `n`. -/
def evGuardRelease (n : Nat) : Ev := evGdr (6 + n) (n + 1)

/-- The coil level of axis `n` as it is in force. -/
def State.setLevel (s : State) (n v : Nat) : State := s.modPw n fun p => { p with level := v }

/-- A latched short is released, or its entry prevented: SHORT_LATCHED 0, COIL_STATE OFF (R198). `why`: the flag that
says so. -/
def State.guardRelease (s : State) (n : Nat) (why : Fld) : State :=
  let s1 := ((s.put (F.CURn_GUARD_SHORT_LATCHED n) 0).put why 1).setLevel n 0
  (s1.put (F.CURn_STATUS_COIL_STATE n) 0).raise (evGuardRelease n)

/-- The guard domain takes the short of R152 or R153, unless DRV_EN low prevents it (R198) or the domain is held in its reset
(R403). -/
def State.guardEnter (s : State) (n : Nat) : State :=
  if !s.flag F.GDR_STATUS_VGRD_OK then s
  else if !s.flag F.GDR_STATUS_DRV_EN ∧ s.drvenRel n then
    s.guardRelease n (F.GDR_GUARDn_DRVEN_RELEASED n)
  else (s.put (F.CURn_GUARD_SHORT_LATCHED n) 1).raise (evCur n 9)

/-- A latched short of a disarmed axis ends with its bridges off (R154). -/
def State.guardEnd (s : State) (n : Nat) : State :=
  ((s.put (F.CURn_GUARD_SHORT_LATCHED n) 0).setLevel n 0).put (F.CURn_STATUS_COIL_STATE n) 0

/-- Regulator `n`. -/
def State.cur (s : State) (n : Nat) : CurAxis := s.curs.toList.getD n restCur

/-- Change regulator `n`. -/
def State.modCur (s : State) (n : Nat) (f : CurAxis → CurAxis) : State :=
  { s with curs := s.curs.setIfInBounds n (f (s.cur n)) }

/-- Phase `i` = 2n for A, 2n + 1 for B. -/
def State.ph (s : State) (i : Nat) : Phase := s.phases.toList.getD i restPhase

/-- Change phase `i`. -/
def State.modPh (s : State) (i : Nat) (f : Phase → Phase) : State :=
  { s with phases := s.phases.setIfInBounds i (f (s.ph i)) }

/-- The coil level that loads at a frame-aligned boundary (R151 to R154): a short of a disarmed axis is latched in the
guard domain, one of an armed axis is not; a level of an armed axis takes over from a latched short. -/
def State.loadLevel (s : State) (n : Nat) : State :=
  match (s.pw n).levelReady with
  | none => s
  | some v =>
    let old := (s.pw n).level
    let s1 := s.modPw n fun p => { p with level := v, levelReady := none }
    if 2 ≤ n then s1
    else if v = 3 ∧ !s.armed n ∧ !s.shortLatched n then s1.guardEnter n
    else if v = 3 ∧ s.armed n ∧ old ≠ 3 then s1.raise (evCur n 9)
    else if s.armed n then s1.put (F.CURn_GUARD_SHORT_LATCHED n) 0
    else s1

/-- A write of CURn_GUARD.RELEASE takes effect (R154). -/
def State.takeRelease (s : State) (n : Nat) : State :=
  if (s.cur n).release then
    let s1 := s.modCur n fun c => { c with release := false }
    if !s.armed n ∧ s.shortLatched n then s1.guardEnd n else s1
  else s

/-! ## The boundary (R165, R166, R168, R188) -/

/-- Channel `k` at a boundary of its axis before the coil level loads: what the ended period was, and the compares of the
one that begins. -/
def State.endPeriod (s : State) (k : Nat) (aligned : Bool) : State :=
  let b := s.br k
  let set := s.nextSet k
  let charge := if s.charged k then 0 else b.charge + s.pwmP (k / 4)
  let left := s.leftBehind k
  let s1 := s.putB (F.PWMk_STATUS_FULL k) (s.wasFull k)
  let s2 := s1.modBr k fun b =>
    { b with before := left, charge := charge, pend := b.late, late := none, refresh := false,
             ready := if aligned then none else b.ready, uv := false, uvSeen := false,
             uvRun := if b.uvSeen then b.uvRun else 0 }
  (s2.put (F.PWMk_ACT_RISE_VALUE k) set.1).put (F.PWMk_ACT_FALL_VALUE k) set.2

/-- Channel `k` begins its period: a refresh period where it is due (R168), and the demand at its start. -/
def State.beginPeriod (s : State) (k : Nat) : State :=
  if s.chanState k = 4 then
    let after := s.get (F.PWMk_CFG_REFRESH_AFTER k)
    let due := decide (after ≠ 0 ∧ after * 40000 ≤ (s.br k).charge)
    let s1 := if due then (s.modBr k fun b => { b with refresh := true }).bump (F.PWMk_STATUS_REFRESH_CNT k) 1 else s
    let h := inside (s1.runHigh k) 0
    s1.modBr k fun b => { b with h := h, l := !h }
  else s

/-- An auxiliary channel on axis `n` at its boundary (R176). -/
def State.auxBoundary (s : State) (n a : Nat) (aligned : Bool) : State :=
  if s.get (F.PWM_AUXa_CFG_SYNC_AXIS a) ≠ n then s
  else
    let x := s.axu a
    let act := (s.get (F.PWM_AUXa_ACT_RISE_VALUE a), s.get (F.PWM_AUXa_ACT_FALL_VALUE a))
    let set := match (if aligned then x.ready else none) with
      | some c => c
      | none => x.pend.getD act
    let s1 := s.modAxu a fun x =>
      { x with pend := x.late, late := none, ready := if aligned then none else x.ready, changing := false }
    let s2 := (s1.put (F.PWM_AUXa_ACT_RISE_VALUE a) set.1).put (F.PWM_AUXa_ACT_FALL_VALUE a) set.2
    if s.get (F.PWM_AUXa_CFG_MODE a) = 1 then
      s2.putB (F.PWM_AUXa_STATUS_OUT a) (inside (highIntervals (s.steps n) set) 0)
    else s2

/-- The axis whose counter timer unit `u` watches (R178). -/
def State.timerAxis (s : State) (u : Nat) : Nat := if u < 8 then u else s.get (F.PWM_AUXa_CFG_SYNC_AXIS (u - 8))

/-- The period counter q of a unit at a zero of its counter (R178). -/
def State.timerZero (s : State) (n u : Nat) : State :=
  if s.timerAxis u ≠ n then s
  else
    let q := s.timers.toList.getD u 0
    let q1 := if s.get (F.PWM_EVTu_CFG_PRESCALE u) ≤ q then 0 else q + 1
    { s with timers := s.timers.setIfInBounds u q1 }

/-- The open-coil check of phase `p` of axis `n` for the period that begins now (R155): a window of at least 2 µs, its
two instants 1,162.5 ns after its start and its end. -/
def State.openCheckStart (s : State) (n p : Nat) : State :=
  let lv := (s.pw n).level
  let a := Nat.min (s.active (4 * n + 2 * p)).2 (s.steps n)
  let b := Nat.min (s.active (4 * n + 2 * p + 1)).2 (s.steps n)
  let w := if a ≤ b then b - a else a - b
  if (lv = 1 ∨ lv = 2) ∧ 25600 ≤ w then
    let t0 := (s.pw n).periods * s.steps n
    s.modPh (2 * n + p) fun f =>
      { f with noQual := 0, checks := f.checks ++ [⟨t0 + Nat.min a b + 14880, t0 + Nat.max a b + 14880, f.last⟩] }
  else s

/-- The counter of axis `n` passes zero (R160, R165, R166, R168, R176, R178). -/
def pwmBoundary (n : Nat) (s : State) : State :=
  let aligned := s.nextAligned n
  let ks := (List.range 4).map (4 * n + ·)
  let s1 := ks.foldl (fun s k => s.endPeriod k aligned) s
  let s2 := s1.modPw n fun p => { p with idx := if aligned then 0 else p.idx + 1, periods := p.periods + 1 }
  let s3 := (if aligned then s2.loadLevel n else s2).takeRelease n
  let s4 := ks.foldl (fun s k => s.beginPeriod k) s3
  let s5 := (List.range 8).foldl (fun s a => s.auxBoundary n a aligned) s4
  let s6 := (List.range 16).foldl (fun s u => s.timerZero n u) s5
  let chans := [2 * n, 2 * n + 1, 16 + 2 * n, 17 + 2 * n]
  let close := aligned && decide (s.cfg.run.dev.offset.getD n 0 ≠ 0)
  let s7 := chans.foldl (fun s c =>
    (if close then s.closeWindow c else s).modCh c fun ch => { ch with outs := 0 }) s6
  (s7.openCheckStart n 0).openCheckStart n 1

/-! ## Commits, forces, latches -/

/-- Is a commit registered in counter cycle `cyc` timely (R165)? -/
def State.timely (s : State) (n cyc : Nat) : Bool := decide (cyc + 8 ≤ s.pwmP n)

/-- Count a late host commit (R165). -/
def State.lateCommit (s : State) : State := (s.bump F.PWM_LATE_CNT_COUNT 1).raise evLateCommit

/-- A host commit of channel `k` in counter cycle `cyc` (R165, R167): refused while the axis is armed. -/
def pwmCommit (k cyc : Nat) (s : State) : Bool × State :=
  let n := k / 4
  let set := ((s.rd (R.PWMk_CMP_RISE k)).toNat, (s.rd (R.PWMk_CMP_FALL k)).toNat)
  if s.armed n then (false, s)
  else if s.timely n cyc then (true, s.modBr k fun b => { b with pend := some set })
  else (true, (s.modBr k fun b => { b with late := some set }).lateCommit)

/-- A host commit of auxiliary channel `a` (R176): accepted at any time. -/
def auxCommit (a cyc : Nat) (s : State) : State :=
  let set := (s.get (F.PWM_AUXa_CMP_RISE_VALUE a), s.get (F.PWM_AUXa_CMP_FALL_VALUE a))
  if s.timely (s.get (F.PWM_AUXa_CFG_SYNC_AXIS a)) cyc then s.modAxu a fun x => { x with pend := some set }
  else (s.modAxu a fun x => { x with late := some set }).lateCommit

/-- A write of PWMkk_FORCE (R170). -/
def pwmForce (k : Nat) (w : Word) (s : State) : Bool × State :=
  let v := bitsOf w 0 2
  let n := k / 4
  if v ≠ 0 ∧ (s.armed n ∨ s.shortLatched n ∨ s.latched n) then (false, s)
  else (true, s.put (F.PWMk_FORCE_LEVEL k) v)

/-- A write of PWM_FAULT_FORCE (R174): never refused. -/
def pwmFaultForce (w : Word) (s : State) : State :=
  (List.range 8).foldl (fun s n => if w.getLsbD n then s.faultSource n 7 else s) s

/-- Does a latch of the written bits stay for a level source (R175)? -/
def State.clearBlocked (s : State) (w : Word) : Bool :=
  (List.range 8).any fun n => w.getLsbD n && s.latched n && decide (s.faultLevels n ≠ 0)

/-- A write of 1 to bits of PWM_FAULT_LATCH (R175): CLEAR_REFUSED comes once for the write. -/
def faultLatchClear (w : Word) (s : State) : State :=
  ((List.range 8).foldl (fun s n =>
    if w.getLsbD n ∧ s.latched n ∧ s.faultLevels n = 0 then
      (s.put ⟨R.PWM_FAULT_LATCH, n, 1⟩ 0).wr (R.PWM_FAULT_SRCn n) 0
    else s) s).raiseIf (s.clearBlocked w) evClearRefused

/-- A write of PWM_AUXa_CFG (R176, R177): device-wide RWL; a change takes effect at the next boundary of the new
SYNC_AXIS, with the output 0 until then. -/
def auxCfgWrite (p : Path) (a : Nat) (w : Word) (s : State) : Bool × State :=
  let w1 := w &&& BitVec.ofNat 32 0x1FFFFB
  let bad := decide (bitsOf w 0 2 = 3 ∨ bitsOf w 6 2 = 0)
  if bad ∨ (s.anyArmed ∧ p ≠ .image ∧ w1 ≠ s.rd (R.PWM_AUXa_CFG a)) then (false, s)
  else if w1 = s.rd (R.PWM_AUXa_CFG a) then (true, s)
  else (true, ((s.wr (R.PWM_AUXa_CFG a) w1).modAxu a fun x => { x with changing := true }).put
    (F.PWM_AUXa_STATUS_OUT a) 0)

/-- A write of PWM_EVTuu_CFG restarts the period counter of the unit (R178). -/
def timerCfgWrite (u : Nat) (w : Word) (s : State) : State :=
  let s1 := s.wr (R.PWM_EVTu_CFG u) (mergeMask (s.rd (R.PWM_EVTu_CFG u)) w 0xFF0007)
  { s1 with timers := s1.timers.setIfInBounds u 0 }

/-- A timer event of unit `u` (R178): kind 0 ZERO, 1 PERIOD, 2 CMP. -/
def timerEvent (u kind : Nat) (s : State) : State :=
  let on := s.flag ⟨R.PWM_EVTu_CFG u, kind, 1⟩ && decide (s.timers.toList.getD u 0 = 0) &&
    (decide (kind ≠ 2) || decide (s.get (F.PWM_EVTu_CMP_CYCLE u) < s.pwmP (s.timerAxis u)))
  if !on then s
  else
    let evt : Fld := ⟨R.PWM_EVT_STATUS, u, 1⟩
    let s1 := if s.flag evt then s.put ⟨R.PWM_EVT_STATUS, 16 + u, 1⟩ 1 else s
    (s1.put evt 1).put ⟨R.PWM_EVTu_CFG u, 4 + kind, 1⟩ 1

/-- A write of 1 to bits of PWM_EVT_STATUS: clearing EVT_u clears HIT of the unit. -/
def evtStatusClear (w : Word) (s : State) : State :=
  let s1 := (List.range 16).foldl (fun s u => if w.getLsbD u then s.put (F.PWM_EVTu_CFG_HIT u) 0 else s) s
  s1.wr R.PWM_EVT_STATUS (s1.rd R.PWM_EVT_STATUS &&& ~~~w)

/-- The counters restart with a new configuration (R161): every compare 0, every prescaler 0, the next zero of each axis
its frame-aligned boundary. -/
def State.pwmRestart (s : State) : State :=
  let s1 := (List.range 32).foldl (fun s k =>
    let z := (((s.wr (R.PWMk_CMP_RISE k) 0).wr (R.PWMk_CMP_FALL k) 0).wr (R.PWMk_ACT_RISE k) 0).wr (R.PWMk_ACT_FALL k) 0
    z.modBr k fun b => { b with pend := none, late := none, frameSet := none, ready := none, before := (0, 0) }) s
  let s2 := (List.range 8).foldl (fun s a =>
    let z := (((s.wr (R.PWM_AUXa_CMP_RISE a) 0).wr (R.PWM_AUXa_CMP_FALL a) 0).wr (R.PWM_AUXa_ACT_RISE a) 0).wr
      (R.PWM_AUXa_ACT_FALL a) 0
    z.modAxu a fun x => { x with pend := none, late := none, frameSet := none, ready := none }) s1
  let s3 := (List.range 8).foldl (fun s n => s.modPw n fun p => { p with idx := s.pwmDiv n - 1, periods := 0 }) s2
  let s4 := (List.range 16).foldl (fun s i => s.modPh i fun f => { f with checks := [] }) s3
  { s4 with timers := Vector.replicate 16 0 }

/-- Frame commits and levels of the ended frame load at the frame-aligned boundaries of the frame that begins (R166). -/
def State.passCommits (s : State) : State :=
  let s1 := (List.range 32).foldl (fun s k =>
    match (s.br k).frameSet with
    | some c => s.modBr k fun b => { b with frameSet := none, ready := some c }
    | none => s) s
  let s2 := (List.range 8).foldl (fun s a =>
    match (s.axu a).frameSet with
    | some c => s.modAxu a fun x => { x with frameSet := none, ready := some c }
    | none => s) s1
  (List.range 8).foldl (fun s n =>
    match (s.pw n).levelSet with
    | some v => s.modPw n fun p => { p with levelSet := none, levelReady := some v }
    | none => s) s2

/-! ## The rows -/

/-- PWM_BOUNDARY: the counter of axis `n` wraps. -/
def execPwmBoundary (n : AxisIx) (s : State) : Host.Outcome State Fault Refusal := liveA s (pwmBoundary n.val)

/-- PWM_COMMIT: a write of PWMkk_COMMIT in counter cycle `cyc`. -/
def execPwmCommit (_p : Path) (k : BridgeIx) (cyc : Nat) (s : State) : Host.Outcome State Fault Refusal :=
  live s fun s => (pwmCommit k.val cyc s).2

/-- PWM_FORCE: a write of PWMkk_FORCE. -/
def execPwmForce (_p : Path) (k : BridgeIx) (w : Word) (s : State) : Host.Outcome State Fault Refusal :=
  liveA s fun s => (pwmForce k.val w s).2

/-- FAULT_LATCH_SET: a source of Table 6.4, its code, asserts at group `n` long enough. -/
def execFaultLatchSet (n : AxisIx) (code : Fin 8) (s : State) : Host.Outcome State Fault Refusal :=
  liveA s fun s => if code.val = 0 then s else s.faultSource n.val code.val

/-- PWM_FAULT_FORCE. -/
def execPwmFaultForce (_p : Path) (w : Word) (s : State) : Host.Outcome State Fault Refusal :=
  liveA s (pwmFaultForce w)

/-- FAULT_LATCH_CLEAR: a write of PWM_FAULT_LATCH. -/
def execFaultLatchClear (_p : Path) (w : Word) (s : State) : Host.Outcome State Fault Refusal :=
  liveA s (faultLatchClear w)

/-- AUX_COMMIT: a write of PWM_AUXa_COMMIT in counter cycle `cyc`. -/
def execAuxCommit (_p : Path) (a : AuxIx) (cyc : Nat) (s : State) : Host.Outcome State Fault Refusal :=
  live s (auxCommit a.val cyc)

/-- AUX_WINDOW_END: an EDGE window expires. -/
def execAuxWindowEnd (a : AuxIx) (s : State) : Host.Outcome State Fault Refusal :=
  liveA s fun s => if s.get (F.PWM_AUXa_CFG_MODE a.val) = 2 then s.put (F.PWM_AUXa_STATUS_OUT a.val) 0 else s

/-- AUX_COMPARE_EDGE: the counter of SYNC_AXIS reaches step `t`. -/
def execAuxCompareEdge (a : AuxIx) (t : Nat) (s : State) : Host.Outcome State Fault Refusal :=
  liveA s fun s =>
    let act := (s.get (F.PWM_AUXa_ACT_RISE_VALUE a.val), s.get (F.PWM_AUXa_ACT_FALL_VALUE a.val))
    if s.get (F.PWM_AUXa_CFG_MODE a.val) = 1 ∧ !(s.axu a.val).changing then
      s.putB (F.PWM_AUXa_STATUS_OUT a.val)
        (inside (highIntervals (s.steps (s.get (F.PWM_AUXa_CFG_SYNC_AXIS a.val))) act) t)
    else s

/-- TIMER_EVENT: kind 0 ZERO, 1 PERIOD, 2 CMP. -/
def execTimerEvent (u : Fin 16) (kind : Fin 3) (s : State) : Host.Outcome State Fault Refusal :=
  live s (timerEvent u.val kind.val)

end Sys2Proof.Machine
end

