-- ==== Sys2Proof/Machine/Cur.lean ====
section
/-!
DEFINITION. Commutation and current regulation (chapter 5): microstep tables (R135), the electrical index (R134, R137, R138),
standstill current (R149, R150), the phase loops (R142 to R146), range changes (R147), stretch pulses and the open-coil
check (R155 to R158), guard-axis shorts (R151 to R154), encoder calibration (R139, R140).
-/
namespace Sys2Proof.Machine

/-! ## Microstep tables (R135, R136) -/

/-- The built-in quarter wave. -/
def builtinQ (i : Nat) : Int := convDiv (32767 * sinTurn 16384 i) one64

/-- The full period of a quarter wave (Table 5.1). -/
def fullPeriod (q : Nat → Int) (j : Nat) : Int :=
  let r := j % 4096
  match j / 4096 % 4 with
  | 0 => q r
  | 1 => q (4096 - r)
  | 2 => -(q r)
  | _ => -(q (4096 - r))

/-- The table that CURn_CFG selects, when it is one of the image's. -/
def State.curTable (s : State) (n : Nat) : Option MTable :=
  let t := s.get (F.CURn_CFG_TABLE n)
  if t = 0 then none else (((s.cfg.run.parts[n]?).map (·.tables)).getD []).find? fun m => decide (m.num = t)

/-- Does partition `n` hold table `t` (R136)? -/
def State.hasTable (s : State) (n t : Nat) : Bool :=
  decide (t = 0) || (((s.cfg.run.parts[n]?).map (·.tables)).getD []).any fun m => decide (m.num = t)

/-- S of phase A and of phase B at an index. -/
def State.tableAt (s : State) (n idx : Nat) : Int × Int :=
  match s.curTable n with
  | none => (fullPeriod builtinQ idx, fullPeriod builtinQ ((idx + 4096) % 16384))
  | some m =>
    if m.kind = 0 then
      let q := fun i => m.vals.getD i 0
      (fullPeriod q idx, fullPeriod q ((idx + 4096) % 16384))
    else (m.vals.getD (2 * idx) 0, m.vals.getD (2 * idx + 1) 0)

/-! ## Times and scales -/

/-- A time in ms in frames, rounded up. -/
def State.msFrames (s : State) (ms : Nat) : Nat := (ms * 400000 + s.period - 1) / s.period

/-- 2^32, one LSB of an amplitude in A_run. -/
def ampOne : Nat := 4294967296

/-- IRUN as an A_run. -/
def State.irun (s : State) (n : Nat) : Nat := s.get (F.CURn_IRUN_VALUE n) * ampOne

/-- COIL_STATE (Table 5.3). -/
def State.coil (s : State) (n : Nat) : Nat := s.get (F.CURn_STATUS_COIL_STATE n)

/-- Store COIL_STATE. -/
def State.setCoil (s : State) (n v : Nat) : State := s.put (F.CURn_STATUS_COIL_STATE n) v

/-- Is the loop running (COIL_STATE RUN or HOLD)? -/
def State.coilOn (s : State) (n : Nat) : Bool := decide (s.coil n = 1 ∨ s.coil n = 2)

/-! ## Amplitude at standstill (R149 to R151) -/

/-- The standstill MODE in force: only axes 0 and 1 know SHORT and OPEN (R151). -/
def State.stillMode (s : State) (n : Nat) : Nat := if n < 2 then s.get (F.CURn_STANDSTILL_MODE n) else 0

/-- The amplitude that the ramp ends at. -/
def State.rampEnd (s : State) (n : Nat) : Nat :=
  if s.stillMode n = 0 then s.get (F.CURn_IHOLD_VALUE n) * ampOne else 0

/-- One step of the ramp (R149). -/
def State.rampStep (s : State) (n : Nat) : Nat :=
  let a := (s.cur n).aRun
  let e := s.rampEnd n
  let ms := s.get (F.CURn_STANDSTILL_HOLD_RAMP n)
  let i := s.irun n
  let span := if i ≤ e then e - i else i - e
  let d := span * s.period / (ms * 400000)
  if ms = 0 then e else if a ≤ e then Nat.min e (a + d) else Nat.max e (a - d)

/-- The amplitude of the frame, from the standstill that its profile step reports. -/
def State.curAmp (s : State) (n : Nat) : State :=
  if !s.armed n then s
  else if !(s.ax n).still then
    let s1 := s.modCur n fun c => { c with timer := 0, aRun := s.irun n }
    if 2 ≤ s.coil n then s1.setCoil n 1 else s1
  else
    let a := if s.coil n = 2 then s.rampStep n else if s.coil n = 1 then s.irun n else (s.cur n).aRun
    s.modCur n fun c => { c with timer := c.timer + 1, aRun := a }

/-- The standstill timer reaches DELAY (R149): HOLD, and the first step of the ramp. -/
def standstillDelay (n : Nat) (s : State) : State :=
  if s.armed n ∧ s.coil n = 1 ∧ (s.ax n).still ∧
      s.msFrames (s.get (F.CURn_STANDSTILL_DELAY n)) ≤ (s.cur n).timer then
    (s.setCoil n 2).modCur n fun c => { c with aRun := s.rampStep n }
  else s

/-! ## The electrical angle (R134, R137, R138, R141) -/

/-- x_fb: the feedback position in µst (R137). -/
def State.xFb (s : State) (n : Nat) : Int :=
  s.wideS 48 (R.FBKn_POS n) * s.getS (F.CURn_ENC_NUM_VALUE n) / (s.get (F.CURn_ENC_DEN_VALUE n) : Nat)

/-- A position error, reduced on a modulo axis to −L/2 to L/2 (R137). -/
def reduceErr (len : Nat) (d : Int) : Int :=
  if len = 0 then d else (d + (len / 2 : Nat)) % (len : Int) - (len / 2 : Nat)

/-- The position error δ (R137). -/
def State.posErr (s : State) (n : Nat) : Int := reduceErr (s.modulo n) (s.pos n - s.xFb n)

/-- Is the axis in closed loop this frame? -/
def State.closedLoop (s : State) (n : Nat) : Bool :=
  s.flag (F.CURn_STATUS_CL_ACTIVE n) && decide (s.get (F.CURn_CFG_COMM n) = 1) && (s.ax n).cal.isNone

/-- The index before DIR_INV and the amplitude in Q1.15 (R134, R138). -/
def State.angle (s : State) (n : Nat) : Nat × Int :=
  let a := (s.cur n).aRun
  if s.closedLoop n then
    let d := s.posErr n
    let lm := (s.get (F.CURn_LEAD_LEAD_MAX n) : Int)
    let idx := (s.xFb n + s.get (F.CURn_COMM_OFFSET_OFFSET n) + clampI (-lm) lm d) % 16384
    let full := s.get (F.CURn_LEAD_CL_FULL n)
    let i := s.get (F.CURn_ICL_MIN_VALUE n) * ampOne
    let k := Nat.min d.natAbs full
    (idx.toNat, convDiv ((i : Int) * full + ((a : Int) - i) * k) (full * ampOne))
  else ((s.pos n % 16384).toNat, convDiv (if (s.ax n).cal.isSome then s.irun n else a) ampOne)

/-- The commutation task (R134, R135, R138): index, amplitude and setpoints. -/
def State.commutate (s : State) (n : Nat) : State :=
  if s.coilOn n then
    let a := s.angle n
    let idx := if s.flag (F.CURn_CFG_DIR_INV n) then (16384 - a.1) % 16384 else a.1
    let t := s.tableAt n idx
    (((s.put (F.CURn_ANGLE_IDX n) idx).putS (F.CURn_STATUS_AMP n) a.2).putS (F.CURn_SETP_IA_SET n)
      (satS 16 (convDiv (a.2 * t.1) 32768))).putS (F.CURn_SETP_IB_SET n) (satS 16 (convDiv (a.2 * t.2) 32768))
  else ((s.put (F.CURn_STATUS_AMP n) 0).put (F.CURn_SETP_IA_SET n) 0).put (F.CURn_SETP_IB_SET n) 0

/-- An encoder fault in closed loop changes over to open loop (R141). -/
def State.clFallback (s : State) (n : Nat) : State :=
  if s.flag (F.CURn_STATUS_CL_ACTIVE n) ∧ s.get (F.CURn_CFG_COMM n) = 1 ∧ s.flag (F.FBKn_STATUS_FAULT n) then
    ((s.put (F.CURn_STATUS_CL_ACTIVE n) 0).put (F.CURn_STATUS_CL_FALLBACK n) 1).raise (evCur n 7)
  else s

/-! ## The phase loop (R142 to R146) -/

/-- A setpoint of axis range `r` in the loop basis, Q1.23 of ±200 mV. -/
def toBasis (set : Int) (r : Nat) : Int := set * (2 ^ (6 + r) : Nat)

/-- The voltage of a phase: v at 47 fraction bits narrowed and saturated, then u for a supply of `vm` mV; whether either
saturated (R143). -/
def phaseVoltage (v47 : Int) (vm : Nat) : Int × Bool :=
  let v1 := convDiv v47 (2 ^ 32)
  let v := satS 16 v1
  let u1 := convDiv (v * 64000) (Nat.max vm 6000)
  let u := satS 16 u1
  (u, decide (v ≠ v1 ∨ u ≠ u1))

/-- FALL of a half-bridge at the voltage `u` (R144): (1 + u) × 16 P, to the nearest step. -/
def fallOf (u : Int) (p : Nat) : Nat := (convDiv ((32768 + u) * p) 2048).toNat

/-- An output-buffer word (Table 2.14). -/
def State.outWord (s : State) (w v : Nat) : State :=
  { s with frm := { s.frm with obuf := SMap.set (fun _ => none) s.frm.obuf w (some (BitVec.ofNat 32 v)) } }

/-- The compares of phase `p` of axis `n`. -/
def State.writeCompares (s : State) (n p fPos fNeg : Nat) : State :=
  let k := 4 * n + 2 * p
  (((s.outWord (2 * k) 0).outWord (2 * k + 1) fPos).outWord (2 * k + 2) 0).outWord (2 * k + 3) fNeg

/-- u as CURn_UOUT shows it. -/
def uoutFld (n p : Nat) : Fld := if p = 0 then F.CURn_UOUT_UA n else F.CURn_UOUT_UB n

/-- The setpoint of a phase. -/
def setpFld (n p : Nat) : Fld := if p = 0 then F.CURn_SETP_IA_SET n else F.CURn_SETP_IB_SET n

/-- RANGE_SETTLE of a phase. -/
def settleFld (n p : Nat) : Fld :=
  if p = 0 then F.CURn_STATUS_RANGE_SETTLE_A n else F.CURn_STATUS_RANGE_SETTLE_B n

/-- LOOP_SAT of a phase. -/
def satFld (n p : Nat) : Fld := if p = 0 then F.CURn_STATUS_LOOP_SAT_A n else F.CURn_STATUS_LOOP_SAT_B n

/-- PHASE_A or PHASE_B. -/
def phaseFld (n p : Nat) : Fld := if p = 0 then F.CURn_STATUS_PHASE_A n else F.CURn_STATUS_PHASE_B n

/-- The latched window of a phase. -/
def State.phaseWindow (s : State) (n p : Nat) : Window := (s.ch (2 * n + p)).done

/-- The mean of a phase in the loop basis. -/
def State.phaseMean (s : State) (n p : Nat) : Int := windowMean (2 * n + p) (s.phaseWindow n p)

/-- The measured current (CURn_IA, CURn_IB), the mean that the latch has taken: Q1.15 of the axis range, and mA by the
shunt. A window without a valid output leaves them. -/
def State.showCurrent (s : State) (n p : Nat) : State :=
  if (s.phaseWindow n p).cnt = 0 then s else
  let m := s.phaseMean n p
  let frac := satS 16 (convDiv (m * (2 ^ (2 - (s.cur n).range) : Nat)) 256)
  let r := s.get (if p = 0 then F.CURn_SHUNT_RSHUNT_A n else F.CURn_SHUNT_RSHUNT_B n)
  let ma := if r = 0 then 0 else clampI (-32767) 32767 (convDiv (m * 20000000) (8388608 * r))
  (s.putS (if p = 0 then F.CURn_IA_FRAC n else F.CURn_IB_FRAC n) frac).putS
    (if p = 0 then F.CURn_IA_MA n else F.CURn_IB_MA n) ma

/-- Does I hold this frame: a range settle (R147) or the window of a stretch pulse (R156)? -/
def State.integHold (s : State) (n p : Nat) : Bool :=
  let age := (s.ph (2 * n + p)).stretchAge
  s.flag (settleFld n p) || decide (age = if s.cfg.run.dev.offset.getD n 0 = 0 then 3 else 4)

/-- The back-EMF feedforward of a phase in Q1.15 of 64 V (R143). -/
def State.feedForward (s : State) (n p : Nat) : Int :=
  if s.flag (F.CURn_CFG_EMF_FF n) then
    let ff := (s.obss.toList.getD n restObs).ff
    if p = 0 then ff.1 else ff.2
  else 0

/-- The loop of one phase in a frame with a valid mean (R143, R144, R146, R156). -/
def State.runLoop (s : State) (n p : Nat) : State :=
  let i := 2 * n + p
  let f := s.ph i
  let set := s.getS (setpFld n p)
  let e := toBasis set (s.cur n).range - s.phaseMean n p
  let pterm := (s.get (F.CURn_KP_KP n) : Int) * e
  let one : Int := (2 ^ 47 : Nat)
  let cand := clampI (-one) one (f.integ + (s.get (F.CURn_KI_KI n) : Int) * e)
  let keep := s.integHold n p || decide (f.clip ≠ 0 ∧ e.sign = f.clip)
  let integ := if keep then f.integ else cand
  let r := phaseVoltage (pterm * 256 + integ + s.feedForward n p * (2 ^ 32 : Nat)) s.vm
  let per := s.pwmP n
  let s1 := s.modPh i fun f =>
    { f with integ := integ, clip := if r.2 then r.1.sign else 0,
             clipRun := if r.2 then f.clipRun + 1 else 0, freeRun := if r.2 then 0 else f.freeRun + 1,
             heldRun := 0, stretch := false, stretchAge := if f.stretch then 1 else f.stretchAge }
  let s2 := if s1.flag (satFld n p) ∧ 64 ≤ (s1.ph i).freeRun then s1.put (satFld n p) 0 else s1
  if f.stretch then
    let h := 16 * per
    let neg := decide (set < 0)
    let u : Int := ((800 * 32768 + per - 1) / per : Nat)
    ((s2.putS (uoutFld n p) (satS 16 (if neg then -u else u)))).writeCompares n p
      (if neg then h - 12800 else h + 12800) (if neg then h + 12800 else h - 12800)
  else (s2.putS (uoutFld n p) r.1).writeCompares n p (fallOf r.1 per) (fallOf (-r.1) per)

/-- One phase of a frame; the flag says that the frame was held (R145). -/
def State.phaseFrame (s : State) (n p : Nat) : Bool × State :=
  let i := 2 * n + p
  let s0 := s.modPh i fun f => { f with stretchAge := if f.stretchAge = 0 then 0 else if f.stretchAge < 4 then
    f.stretchAge + 1 else 0 }
  if !s.coilOn n then
    (false, (s0.modPh i fun f => { f with integ := 0, clip := 0, clipRun := 0, freeRun := f.freeRun + 1, heldRun := 0,
                                          stretch := false }).put (uoutFld n p) 0)
  else if (s.phaseWindow n p).cnt = 0 then (true, s0.modPh i fun f => { f with heldRun := f.heldRun + 1 })
  else (false, s0.runLoop n p)

/-- The loops of an axis whose tasks run in the frame, `ra` phase A and `rb` phase B; a held frame counts once (R145). -/
def State.loops (s : State) (n : Nat) (ra rb : Bool) : State :=
  let a := if ra then s.phaseFrame n 0 else (false, s)
  let b := if rb then a.2.phaseFrame n 1 else (false, a.2)
  if a.1 || b.1 then (b.2.bump (F.CURn_HOLD_CNT_COUNT n) 1).raise (evCur n 3) else b.2

/-- Eight held frames in a row (R145): the latch of the axis sets. -/
def senseLost (n : Nat) (s : State) : State :=
  if 8 ≤ (s.ph (2 * n)).heldRun ∨ 8 ≤ (s.ph (2 * n + 1)).heldRun then
    let s1 := (s.modPh (2 * n) fun f => { f with heldRun := 0 }).modPh (2 * n + 1) fun f => { f with heldRun := 0 }
    (s1.raise (evCur n 4)).faultSource n 6
  else s

/-- 64 clipped frames in a row (R146). -/
def loopSat (n p : Nat) (s : State) : State :=
  if 64 ≤ (s.ph (2 * n + p)).clipRun ∧ !s.flag (satFld n p) then (s.put (satFld n p) 1).raise (evCur n 2) else s

/-! ## Range changes (R147) -/

/-- A rescaled field: its new value, and whether it was held at a bound. -/
def rescaleField (v old new top : Nat) : Nat × Bool :=
  let y := (convDiv ((v * 2 ^ old : Nat) : Int) (2 ^ new)).toNat
  if top < y then (top, true) else if v ≠ 0 ∧ y = 0 then (1, true) else (y, false)

/-- The current fields of an axis in its new range. -/
def State.rescaleAxis (s : State) (n new : Nat) : State :=
  let old := (s.cur n).range
  if old = new then s
  else
    let step := fun (acc : Bool × State) (fl : Fld × Nat) =>
      let r := rescaleField (acc.2.get fl.1) old new fl.2
      (acc.1 || r.2, acc.2.put fl.1 r.1)
    let fields := [(F.CURn_IRUN_VALUE n, 0x7FFF), (F.CURn_IHOLD_VALUE n, 0x7FFF), (F.CURn_ICL_MIN_VALUE n, 0x7FFF),
      (F.CURn_DIAG_CFG_OPEN_THR n, 4095)]
    let r := fields.foldl step (false, s)
    let a := Nat.min (0x7FFF * ampOne) ((s.cur n).aRun * 2 ^ old / 2 ^ new)
    (r.2.modCur n fun c => { c with aRun := a, range := new }).raiseIf r.1 (evCur n 6)

/-- RANGE_SETTLE of one phase at the latch: it sets while the latched window holds outputs taken after F_r, and at F_v it
clears, with the new axis range where the channel is 2n. -/
def State.rangeSettle (s : State) (n p : Nat) : State :=
  let c := 2 * n + p
  let w := s.rd (R.CSAs_FINE c)
  let good := wordValid w && !wordChg w
  let on := s.flag (settleFld n p)
  if on ∧ good then
    let s1 := (s.put (settleFld n p) 0).raise (evCur n 5)
    if p = 0 then s1.rescaleAxis n (s.rangeNow c) else s1
  else if !on ∧ !good ∧ (s.phaseWindow n p).anyChg then s.put (settleFld n p) 1
  else s

/-! ## Stretch pulses and the open-coil check (R155 to R159) -/

/-- The frame's part of the diagnostics: frames without a qualifying period, frames since a pass, DIAG_IMPOSSIBLE. -/
def State.diagFrame (s : State) (n : Nat) : State :=
  let step := fun (f : Phase) => { f with noQual := satU 24 (f.noQual + 1), age := satU 24 (f.age + 1) }
  ((s.modPh (2 * n) step).modPh (2 * n + 1) step).putB (F.CURn_STATUS_DIAG_IMPOSSIBLE n) (decide (s.pwmP n < 800))

/-- A stretch pulse falls due (R156, R159). -/
def stretchPulse (n p : Nat) (s : State) : State :=
  let f := s.ph (2 * n + p)
  let ms := s.get (F.CURn_DIAG_CFG_INTERVAL n)
  if ms ≠ 0 ∧ s.coilOn n ∧ !s.flag (settleFld n p) ∧ 800 ≤ s.pwmP n ∧ s.msFrames ms ≤ f.noQual ∧ !f.stretch ∧
      f.stretchAge = 0 then
    (s.modPh (2 * n + p) fun f => { f with stretch := true }).bump (F.CURn_DIAG_STATUS_STRETCH_CNT n) 1
  else s

/-- A check passes (R155, R157). -/
def State.checkPass (s : State) (n p : Nat) : State :=
  let was := s.get (phaseFld n p)
  let s1 := (s.modPh (2 * n + p) fun f => { f with fails := 0, age := 0 }).put (phaseFld n p) 1
  (s1.put (if p = 0 then F.CURn_DIAG_STATUS_OPEN_CHECKED_A n else F.CURn_DIAG_STATUS_OPEN_CHECKED_B n) 1).raiseIf
    (decide (was = 2)) (evCur n 1)

/-- The two outputs of a check are compared: in Q1.25 of the loop basis against OPEN_THR of the axis range. -/
def State.judgeCheck (s : State) (n p : Nat) (a b : Int × Bool) : State :=
  let thr := s.get (F.CURn_DIAG_CFG_OPEN_THR n) * 2 ^ (8 + (s.cur n).range)
  if thr ≤ (b.1 - a.1).natAbs then s.checkPass n p
  else if a.2 ∧ b.2 then s.modPh (2 * n + p) fun f => { f with fails := f.fails + 1 }
  else s

/-- A fast output of a phase channel joins the waiting checks (R155). -/
def State.openCheck (s : State) (c : Nat) (o : FastOut) : State :=
  let n := c / 2
  let p := c % 2
  let t := (s.pw n).periods * s.steps n + (s.ch c).outs * 10240
  let v : Int × Bool := (o.data * (2 ^ s.rangeNow c : Nat), o.valid)
  let f := s.ph c
  let seen := f.checks.map fun k => if t ≤ k.a then { k with first := some v } else k
  let ripe := seen.filter fun k => decide (k.b ≤ t)
  let s1 := s.modPh c fun f => { f with last := some v, checks := seen.filter fun k => decide (t < k.b) }
  ripe.foldl (fun s k => match k.first with
    | some a => s.judgeCheck n p a v
    | none => s) s1

/-- OPEN_COUNT failing checks in a row (R157, R158). -/
def openCoil (n p : Nat) (s : State) : State :=
  if s.get (F.CURn_DIAG_CFG_OPEN_COUNT n) ≤ (s.ph (2 * n + p)).fails ∧ s.get (phaseFld n p) ≠ 2 then
    let s1 := (s.put (phaseFld n p) 2).raise (evCur n 0)
    if s.flag (F.CURn_DIAG_CFG_OPEN_ACT n) then s1.faultSource n 6 else s1
  else s

/-- A connected phase without a pass for its age (R157). -/
def phaseAgeOut (n p : Nat) (s : State) : State :=
  let ms := s.get (F.CURn_DIAG_CFG_INTERVAL n)
  let top := if ms = 0 then s.msFrames 256 else s.msFrames (4 * ms)
  if s.get (phaseFld n p) = 1 ∧ top ≤ (s.ph (2 * n + p)).age then s.put (phaseFld n p) 0 else s

/-! ## Arming and disarming (R148, R152) -/

/-- CUR at the latch that takes an ARM. -/
def State.curArm (s : State) (n : Nat) : State :=
  let s1 := (s.modCur n fun c => { c with aRun := s.irun n, timer := 0 }).setCoil n 1
  let z := fun (f : Phase) => { f with integ := 0, clip := 0 }
  let s2 := (s1.modPh (2 * n) z).modPh (2 * n + 1) z
  s2.putB (F.CURn_STATUS_CL_ACTIVE n) (decide (s.get (F.CURn_CFG_COMM n) = 1) && !s.flag (F.FBKn_STATUS_FAULT n))

/-- CUR at a disarm: the coil state after it. -/
def State.curDisarm (s : State) (n coil : Nat) : State :=
  ((s.setCoil n coil).put (F.CURn_STATUS_CL_ACTIVE n) 0).put (F.CURn_STATUS_CL_FALLBACK n) 0

/-- The coil state that a DISARM command leaves (R152): SHORT on a guard axis with DISARM_SHORT. -/
def State.disarmCoil (s : State) (n : Nat) : Nat :=
  if n < 2 ∧ s.flag (F.CURn_GUARD_DISARM_SHORT n) then 3 else 0

/-- A disarm by a protection path (R101, R152): the bridges are off, or stay in a latched short. -/
def State.curTripDisarm (s : State) (n : Nat) : State :=
  if s.shortLatched n then s.curDisarm n 3
  else ((s.curDisarm n 0).setLevel n 0).modPw n fun p => { p with levelSet := none, levelReady := none }

/-! ## Register writes of chapter 5 -/

/-- CAL_OK clears; COMM = CLOSED_LOOP reverts with it (R139). -/
def State.dropCal (s : State) (n : Nat) : State :=
  ((s.put (F.CURn_STATUS_CAL_OK n) 0).put (F.CURn_CFG_COMM n) 0).put (F.CURn_STATUS_CL_ACTIVE n) 0

/-- Is a change of an RWL word of axis `n` refused (R12, R439)? -/
def State.lockedChange (s : State) (p : Path) (n a : Nat) (w : Word) : Bool :=
  s.armed n && decide (p ≠ .image) && decide (w ≠ s.rd a)

/-- A write of CURn_CFG (R136, R139). -/
def curCfgWrite (p : Path) (n : Nat) (w : Word) (s : State) : Bool × State :=
  let comm := bitsOf w 0 2
  let w1 := mergeMask (s.rd (R.CURn_CFG n)) w 0x9F
  let rwl := mergeMask (s.rd (R.CURn_CFG n)) w 0x1F
  if 1 < comm ∨ !s.hasTable n (bitsOf w 2 2) ∨ (comm = 1 ∧ !s.flag (F.CURn_STATUS_CAL_OK n)) ∨
      s.lockedChange p n (R.CURn_CFG n) rwl then (false, s)
  else
    let s1 := s.wr (R.CURn_CFG n) w1
    (true, if bitsOf w 4 1 ≠ s.get (F.CURn_CFG_DIR_INV n) then s1.dropCal n else s1)

/-- A write of CURn_ENC_NUM (`den` false) or CURn_ENC_DEN (R137, R139). -/
def encScaleWrite (p : Path) (n : Nat) (den : Bool) (w : Word) (s : State) : Bool × State :=
  let a := if den then R.CURn_ENC_DEN n else R.CURn_ENC_NUM n
  if w = 0 ∨ (!den ∧ w = 0x80000000) ∨ s.lockedChange p n a w then (false, s)
  else (true, if w = s.rd a then s else (s.wr a w).dropCal n)

/-- A write of CURn_COMM_OFFSET (R139). -/
def commOffsetWrite (n : Nat) (w : Word) (s : State) : State :=
  (s.put (F.CURn_COMM_OFFSET_OFFSET n) (bitsOf w 0 14)).put (F.CURn_STATUS_CAL_OK n) 1

/-- A write of CURn_STANDSTILL (R149, R151). -/
def standstillWrite (n : Nat) (w : Word) (s : State) : Bool × State :=
  let mode := bitsOf w 30 2
  if mode = 3 ∨ (2 ≤ n ∧ mode ≠ 0) ∨ 1000 < bitsOf w 14 10 ∨ 10000 < bitsOf w 0 14 then (false, s)
  else (true, s.wr (R.CURn_STANDSTILL n) (w &&& BitVec.ofNat 32 0xC0FFFFFF))

/-- A write of CURn_GUARD (R152 to R154). -/
def guardWrite (n : Nat) (w : Word) (s : State) : Bool × State :=
  if 2 ≤ n then (decide (w = 0), s)
  else
    let s1 := ((s.put (F.CURn_GUARD_PF_SHORT n) (bitsOf w 1 1)).put (F.CURn_GUARD_DISARM_SHORT n) (bitsOf w 0 1)).copyPf n
    (true, if bitsOf w 2 1 = 1 ∧ !s.armed n then s1.modCur n fun c => { c with release := true } else s1)

/-! ## Encoder calibration (R140) -/

/-- Core cycles of one direction of the run: 4 s. -/
def encCalHalf : Nat := 1600000000

/-- The end of a run (R140): the axis is back at its start. -/
def encCalDone (n : Nat) (s : State) : State :=
  match (s.ax n).cal with
  | none => s
  | some k =>
    if k.ran < (2 * encCalHalf : Nat) then s
    else
      let moved : Int := match k.turn with
        | some t => t
        | none => 0
      let fail := decide (moved < 16384 - 256 ∨ 16384 + 256 < moved ∨ 2048 < k.hi - k.lo)
      let off := convDiv k.sum k.count % 16384
      let s1 := s.modAx n fun a => { a with cal := none, kin := { a.kin with x := k.start, v := 0 } }
      let s2 := if fail then (s1.put (F.CURn_STATUS_CAL_OK n) 0).raise (evCur n 8)
        else (s1.put (F.CURn_COMM_OFFSET_OFFSET n) off.toNat).put (F.CURn_STATUS_CAL_OK n) 1
      s2.endAct 10 n

/-- What a frame of the run records: δ, and the change of x_fb at the turn. -/
def State.encCalFrame (s : State) (n : Nat) : State :=
  match (s.ax n).cal with
  | none => s
  | some k =>
    let d := s.posErr n
    let first := decide (k.count = 0)
    let turn := if k.turn.isNone ∧ encCalHalf ≤ k.ran then some (reduceErr (s.modulo n) (s.xFb n - k.fb0)) else k.turn
    let k1 := { k with sum := k.sum + d, count := k.count + 1, lo := if first then d else min k.lo d,
                       hi := if first then d else max k.hi d, turn := turn }
    s.modAx n fun a => { a with cal := some k1 }

/-! ## The rows -/

/-- SENSE_LOST. -/
def execSenseLost (n : AxisIx) (s : State) : Host.Outcome State Fault Refusal := liveA s (senseLost n.val)

/-- LOOP_SAT of phase A (0) or B (1). -/
def execLoopSat (n : AxisIx) (phase : Fin 2) (s : State) : Host.Outcome State Fault Refusal :=
  live s (loopSat n.val phase.val)

/-- STANDSTILL_DELAY. -/
def execStandstillDelay (n : AxisIx) (s : State) : Host.Outcome State Fault Refusal := live s (standstillDelay n.val)

/-- GUARD_RELEASE: a write of CURn_GUARD.RELEASE; it takes effect at the next boundary. -/
def execGuardRelease (n : AxisIx) (s : State) : Host.Outcome State Fault Refusal :=
  live s fun s => if n.val < 2 ∧ !s.armed n.val then s.modCur n.val fun c => { c with release := true } else s

/-- STRETCH_PULSE of phase A (0) or B (1). -/
def execStretchPulse (n : AxisIx) (phase : Fin 2) (s : State) : Host.Outcome State Fault Refusal :=
  live s (stretchPulse n.val phase.val)

/-- OPEN_COIL of phase A (0) or B (1). -/
def execOpenCoil (n : AxisIx) (phase : Fin 2) (s : State) : Host.Outcome State Fault Refusal :=
  liveA s (openCoil n.val phase.val)

/-- PHASE_AGE_OUT of phase A (0) or B (1). -/
def execPhaseAgeOut (n : AxisIx) (phase : Fin 2) (s : State) : Host.Outcome State Fault Refusal :=
  live s (phaseAgeOut n.val phase.val)

/-- COMM_OFFSET_WRITE. -/
def execCommOffsetWrite (_p : Path) (n : AxisIx) (w : Word) (s : State) : Host.Outcome State Fault Refusal :=
  live s (commOffsetWrite n.val w)

/-- ENC_CAL_DONE. -/
def execEncCalDone (n : AxisIx) (s : State) : Host.Outcome State Fault Refusal := live s (encCalDone n.val)

end Sys2Proof.Machine
end

