-- ==== Sys2Proof/Machine/Obs.lean ====
section
/-!
DEFINITION. Stall and load observers (chapter 10): the motor model (R253 to R255), the estimates (R256 to R258), validity
(R259, R260), resistance tracking (R261), stall declaration (R262 to R264) and the deviation window (R266 to R271).
-/
namespace Sys2Proof.Machine

/-- Observer `n`. -/
def State.ob (s : State) (n : Nat) : Obs := s.obss.toList.getD n restObs

/-- Change observer `n`. -/
def State.modOb (s : State) (n : Nat) (f : Obs → Obs) : State :=
  { s with obss := s.obss.setIfInBounds n (f (s.ob n)) }

/-- The placed observer task of axis `n` (class 0x5). -/
def State.obsTask (s : State) (n : Nat) : Option Placed := s.frm.tasks.find? fun t => decide (t.cls = 5 ∧ t.axis = n)

/-- k of R253. -/
def State.obsK (s : State) (n : Nat) : Nat := if s.cfg.run.dev.offset.getD n 0 = 0 then 2 else 3

/-! ## The history (R253) -/

/-- What the tasks of axis `n` leave for the observer in this frame. -/
def State.obsRecord (s : State) (n : Nat) : State :=
  let a := s.cur n
  let age := if s.obsK n = 2 then 3 else 4
  let p := s.ph (2 * n)
  let q := s.ph (2 * n + 1)
  let fr : ObsFrame :=
    { i := (s.phaseMean n 0, s.phaseMean n 1),
      ok := decide (0 < (s.phaseWindow n 0).cnt ∧ 0 < (s.phaseWindow n 1).cnt),
      u := (s.getS (F.CURn_UOUT_UA n), s.getS (F.CURn_UOUT_UB n)), vm := s.vm, idx := s.get (F.CURn_ANGLE_IDX n),
      vel := (s.ax n).kin.velQ, aRun := a.aRun, full := decide (a.aRun = s.irun n), coil := s.coil n,
      settle := s.flag (settleFld n 0) || s.flag (settleFld n 1),
      stretch := decide (p.stretchAge = age) || decide (q.stretchAge = age), still := (s.ax n).still }
  s.modOb n fun o => { o with hist := (fr :: o.hist).take 6 }

/-- A frame without anything known. -/
def noFrame : ObsFrame := ⟨(0, 0), false, (0, 0), 0, 0, 0, 0, false, 0, false, false, false⟩

/-- Frame G − j of the history. -/
def State.obsAt (s : State) (n j : Nat) : ObsFrame := (s.ob n).hist.getD j noFrame

/-- The component of a phase. -/
def comp (p : Nat) (x : Int × Int) : Int := if p = 0 then x.1 else x.2

/-- The shunt of a phase in 10 µΩ. -/
def State.shunt (s : State) (n p : Nat) : Nat := s.get (if p = 0 then F.CURn_SHUNT_RSHUNT_A n else F.CURn_SHUNT_RSHUNT_B n)

/-- V_p in mV times 32768 × P (R254). -/
def State.phaseV (s : State) (n p : Nat) : Int :=
  let per : Int := s.pwmP n
  let vm : Int := (s.obsAt n 1).vm
  let i := comp p (s.obsAt n 0).i
  comp p (s.obsAt n (s.obsK n)).u * vm * per - i.sign * vm * 8 * (s.get (F.OBSn_DT_COMP_TIME n) : Int) * 32768

/-- e_p in Q1.15 of 64 V (R255). -/
def State.emf (s : State) (n p : Nat) : Int :=
  let per : Int := s.pwmP n
  let c : Int := s.period
  let r : Int := s.shunt n p
  let res : Int := if s.flag (F.OBSn_CFG_R_TRACK n) then s.get (F.OBSn_R_EST_R n) else s.get (F.OBSn_MOTOR_R_VALUE n)
  let i := comp p (s.obsAt n 0).i
  let d := i - comp p (s.obsAt n 1).i
  let num := s.phaseV n p * (8388608 * r * c) - res * i * 20000 * (32768 * per * c) -
    (s.get (F.OBSn_MOTOR_L_VALUE n) : Int) * d * 8000000000 * (32768 * per)
  satS 16 (convDiv (num * 32768) (64000 * (32768 * per * (8388608 * r * c))).toNat)

/-! ## Validity (R259, R260) -/

/-- The divisor of the observer's task as a power of two (R260). -/
def State.obsDiv (s : State) (n : Nat) : Nat := ((s.obsTask n).map (·.div)).getD 1

/-- log2 of the divisor. -/
def State.obsDivCode (s : State) (n : Nat) : Nat := if s.obsDiv n = 2 then 1 else if s.obsDiv n = 4 then 2 else 0

/-- ceil(N / d). -/
def State.obsCount (s : State) (n k : Nat) : Nat := (k + s.obsDiv n - 1) / s.obsDiv n

/-- The first condition of Table 10.1 that holds, but for SETTLING. -/
def State.obsWhy (s : State) (n : Nat) : Nat :=
  let k := s.obsK n
  let a := s.obsAt n k
  let b := s.obsAt n (k + 1)
  let slow := fun (f : ObsFrame) => decide (f.vel.natAbs < s.get (F.OBSn_VMIN_SPEED n) * 256)
  if !s.flag (F.OBSn_CFG_EN n) ∨ a.coil ≠ 1 ∨ b.coil ≠ 1 ∨ s.shunt n 0 = 0 ∨ s.shunt n 1 = 0 then 1
  else if !a.full ∨ !b.full then 2
  else if slow a ∨ slow b then 3
  else if a.settle ∨ b.settle then 4
  else if !(s.obsAt n 0).ok ∨ !(s.obsAt n 1).ok ∨ (s.obsAt n 0).stretch ∨ (s.obsAt n 1).stretch then 5
  else 0

/-! ## The estimates (R256 to R258) -/

/-- The estimates of one update: load angle in µst, ratio with 24 fraction bits. -/
def State.obsEstimate (s : State) (n : Nat) (e : Int × Int) : Int × Int :=
  let f := s.obsAt n (s.obsK n)
  let sg : Int := if s.flag (F.CURn_CFG_DIR_INV n) then -f.vel.sign else f.vel.sign
  let mag := rsqrt (e.1 * e.1 + e.2 * e.2).toNat
  let th : Int := atan2Parts 16384 (-(sg * e.2)) (sg * e.1)
  let dlt := sg * ((f.idx - th + 8192) % 16384 - 8192)
  let den := 32768 * s.get (F.OBSn_MOTOR_KE_VALUE n) * f.vel.natAbs
  let rho := if den = 0 then 0 else convDiv ((mag : Int) * 64000000 * 256000 * (2 ^ 24 : Nat)) den
  (dlt, rho)

/-- Publish LOAD, MARGIN and the feedforward of a valid update (R257, R258). -/
def State.obsPublish (s : State) (n : Nat) (e : Int × Int) : State :=
  let o := s.ob n
  let k := s.obsK n
  let f := s.obsAt n k
  let ang := (o.dlt % (16384 * 65536)).toNat
  let load := satS 16 (convDiv (f.aRun * sinTurn (16384 * 65536) ang) (ampOne * one64))
  let margin := convDiv ((s.get (F.OBSn_STALL_CFG_DELTA_STALL n) : Int) * 65536 - o.dlt) 65536
  let turn := (((s.obsAt n 0).idx : Int) - f.idx) % 16384
  let cs := cosTurn 16384 turn.toNat
  let sn := sinTurn 16384 turn.toNat
  let fa := satS 16 (convDiv (e.1 * cs + e.2 * sn) one64)
  let fb := satS 16 (convDiv (e.2 * cs - e.1 * sn) one64)
  let s1 := (s.putS (F.OBSn_LOAD_LOAD_ANGLE n) (satS 16 (convDiv o.dlt 65536))).putS (F.OBSn_LOAD_LOAD n) load
  let s2 := (s1.put (F.OBSn_MARGIN_EMF_RATIO n) (satU 16 (convDiv o.rho 65536).toNat)).putS
    (F.OBSn_MARGIN_STALL_MARGIN n) (satS 16 margin)
  s2.modOb n fun o => { o with ff := (fa, fb) }

/-- The filters (R257). -/
def State.obsFilter (s : State) (n : Nat) (est : Int × Int) : State :=
  s.modOb n fun o =>
    if o.valid then
      let k := s.get (F.OBSn_CFG_FILT n) - s.obsDivCode n
      { o with dlt := o.dlt + convDiv (est.1 * 65536 - o.dlt) (2 ^ k), rho := o.rho + convDiv (est.2 - o.rho) (2 ^ k) }
    else { o with dlt := est.1 * 65536, rho := est.2 }

/-- The stall criteria and their run (R262, R263). -/
def State.obsStall (s : State) (n : Nat) : State :=
  let o := s.ob n
  let loss := s.get (F.OBSn_STALL_CFG_EMF_LOSS n)
  let low := decide (o.rho * 256 < (loss * 2 ^ 24 : Nat))
  let emf := s.flag (F.OBSn_CFG_EMF_EN n) && low
  let angle := s.flag (F.OBSn_CFG_ANGLE_EN n) && !low && !s.flag (F.CURn_STATUS_CL_ACTIVE n) &&
    decide (((s.get (F.OBSn_STALL_CFG_DELTA_STALL n) * 65536 : Nat) : Int) ≤ o.dlt)
  let run := s.get (F.OBSn_STATUS_STALL_RUN n)
  let run1 := if emf || angle then satU 8 (run + 1) else 0
  let s1 := ((s.putB (F.OBSn_STATUS_EMF_CRIT n) emf).putB (F.OBSn_STATUS_ANGLE_CRIT n) angle).put
    (F.OBSn_STATUS_STALL_RUN n) run1
  if run < run1 ∧ run1 = s.obsCount n (s.get (F.OBSn_CFG_STALL_CNT n)) then
    s1.modOb n fun o => { o with stallNow := true }
  else s1

/-! ## Resistance tracking (R261) -/

/-- The tracked resistance. -/
def State.obsTrack (s : State) (n : Nat) : State :=
  let k := s.obsK n
  let fs := (List.range (k + 1)).map (s.obsAt n)
  let bad := !(s.obsAt n 0).ok || !(s.obsAt n 1).ok || (s.obsAt n 0).stretch || (s.obsAt n 1).stretch
  let i := (s.obsAt n 0).i
  let p := if i.2.natAbs ≤ i.1.natAbs then 0 else 1
  let ip := comp p i
  let big := decide (2048 * 256 ≤ ip.natAbs * 2 ^ (2 - (s.cur n).range))
  let r := s.shunt n p
  if s.flag (F.OBSn_CFG_R_TRACK n) ∧ fs.all (fun f => f.still && decide (f.coil = 1 ∨ f.coil = 2)) ∧ !bad ∧ big ∧ r ≠ 0 then
    let num := s.phaseV n p * (8388608 * r * 256 : Nat) * ip.sign
    let meas := convDiv num (32768 * s.pwmP n * 20000 * ip.natAbs)
    let old : Int := (s.ob n).rEst
    let new := old + convDiv (meas - old) 256
    let m : Int := s.get (F.OBSn_MOTOR_R_VALUE n)
    let lo := m * 128
    let hi := m * 512
    let v := (clampI lo hi new).toNat
    let s1 := (s.modOb n fun o => { o with rEst := v }).put (F.OBSn_R_EST_R n) (satU 16 (convDiv v 256).toNat)
    if new ≤ lo ∨ hi ≤ new then (s1.put (F.OBSn_STATUS_R_LIMIT n) 1).raise (evObs n 5)
    else s1.put (F.OBSn_STATUS_R_LIMIT n) 0
  else s

/-! ## The deviation window (R266 to R271) -/

/-- DEV_REF = x − x_fb, valid (R267). -/
def State.devRefSet (s : State) (n : Nat) : State :=
  (s.putWideS 48 (R.OBSn_DEV_REF n) (s.pos n - s.xFb n)).put (F.OBSn_STATUS_DEV_REF_VALID n) 1

/-- DEV_REF_VALID clears (R267). -/
def State.devRefDrop (s : State) (n : Nat) : State := s.put (F.OBSn_STATUS_DEV_REF_VALID n) 0

/-- REF as the latch sees it: its fall clears DEV_REF_VALID, and with the check in use the position is uncertain (R267,
R268). -/
def State.devLatch (s : State) (n : Nat) : State :=
  let ref := s.flag (F.FBKn_STATUS_REF n)
  let s1 := s.modOb n fun o => { o with refSeen := ref }
  if (s.ob n).refSeen ∧ !ref ∧ s.flag (F.OBSn_STATUS_DEV_REF_VALID n) then
    let s2 := s1.devRefDrop n
    if s.flag (F.OBSn_DEV_CFG_DEV_EN n) then (s2.put (F.MOTn_STATUS_POS_UNCERTAIN n) 1).raise (evObs n 4) else s2
  else s1

/-- dev of this frame (R266). -/
def State.deviation (s : State) (n : Nat) : Int :=
  reduceErr (s.modulo n) (s.wideS 48 (R.MOTn_POS n) - s.xFb n - s.wideS 48 (R.OBSn_DEV_REF n))

/-- The adoption of the encoder position (R271): the MOTn_POS write with x_fb + DEV_REF, DEV_REF unchanged. -/
def State.devAdopt (s : State) (n : Nat) : State :=
  let r := posWrite n (s.xFb n + s.wideS 48 (R.OBSn_DEV_REF n)) s
  if r.1 then (r.2.modOb n fun o => { o with adopt := false }).raise (evObs n 3) else s

/-- A declaration (R269, R270). -/
def State.devDeclare (s : State) (n : Nat) : State :=
  let s1 := (s.put (F.MOTn_STATUS_POS_UNCERTAIN n) 1).modOb n fun o => { o with devHeld := true }
  let adopt := s.flag (F.OBSn_DEV_CFG_ADOPT n)
  if s.armed n then
    let s2 := (s1.bump (F.OBSn_DECL_CNT_DEV_DECL n) 1).raise (evObs n 1)
    if s.flag (F.OBSn_DEV_CFG_DEV_STOP n) then (s2.cause n 3 2).modOb n fun o => { o with adopt := adopt } else s2
  else
    let s2 := s1.raise (evObs n 2)
    if adopt then s2.devAdopt n else s2

/-- The deviation check of an update (R266 to R271). -/
def State.devCheck (s : State) (n : Nat) : State :=
  let act := s.flag (F.OBSn_DEV_CFG_DEV_EN n) && s.flag (F.OBSn_STATUS_DEV_REF_VALID n) &&
    s.flag (F.FBKn_STATUS_POS_VALID n) && s.flag (F.FBKn_STATUS_REF n) &&
    (s.armed n || s.flag (F.OBSn_DEV_CFG_WATCH_DISARMED n))
  let s0 := s.putB (F.OBSn_STATUS_DEV_ACTIVE n) act
  if !act then
    let s1 := s0.put (F.OBSn_STATUS_DEV_OUT n) 0
    if (s.ob n).devHeld then s1 else s1.put (F.OBSn_STATUS_DEV_RUN n) 0
  else
    let d := s.deviation n
    let out := decide (s.get (F.OBSn_DEV_WIN_WIN n) < d.natAbs)
    let lim : Int := (2 ^ 31 - 1 : Nat)
    let s1 := ((s0.putS (F.OBSn_DEV_DEV n) (clampI (-lim) lim d)).put (F.OBSn_DEV_MAX_MAX n)
      (Nat.max (s.get (F.OBSn_DEV_MAX_MAX n)) (satU 32 d.natAbs))).putB (F.OBSn_STATUS_DEV_OUT n) out
    let s2 := if (s1.ob n).adopt ∧ s1.flag (F.MOTn_STATUS_STANDSTILL n) then s1.devAdopt n else s1
    if !out then (s2.modOb n fun o => { o with devHeld := false }).put (F.OBSn_STATUS_DEV_RUN n) 0
    else if (s.ob n).devHeld then s2
    else
      let run := satU 8 (s.get (F.OBSn_STATUS_DEV_RUN n) + 1)
      let s3 := s2.put (F.OBSn_STATUS_DEV_RUN n) run
      if s.obsCount n (s.get (F.OBSn_DEV_CFG_DEV_CNT n)) ≤ run then s3.devDeclare n else s3

/-! ## The update -/

/-- The observer update of a frame that runs the task. -/
def State.obsUpdate (s : State) (n : Nat) : State :=
  let bad := s.obsWhy n
  let since := if bad ≠ 0 then 0 else satU 16 ((s.ob n).since + s.obsDiv n)
  let why := if bad ≠ 0 then bad else if since < s.get (F.OBSn_CFG_SETTLE n) then 6 else 0
  let e := if s.shunt n 0 = 0 ∨ s.shunt n 1 = 0 then (0, 0) else (s.emf n 0, s.emf n 1)
  let s1 := (((s.modOb n fun o => { o with since := since }).put (F.OBSn_STATUS_WHY n) why).putB (F.OBSn_STATUS_VALID n)
    (decide (why = 0))).put (F.OBSn_STATUS_DIV n) (s.obsDivCode n)
  let s2 := (s1.putS (F.OBSn_EMF_EA n) e.1).putS (F.OBSn_EMF_EB n) e.2
  let s3 :=
    if why = 0 then ((s2.obsFilter n (s2.obsEstimate n e)).obsStall n).obsPublish n e
    else (((s2.put (F.OBSn_STATUS_STALL_RUN n) 0).put (F.OBSn_STATUS_EMF_CRIT n) 0).put (F.OBSn_STATUS_ANGLE_CRIT n)
      0).modOb n fun o => { o with ff := (0, 0) }
  ((s3.modOb n fun o => { o with valid := decide (why = 0) }).obsTrack n).devCheck n

/-- The observer of axis `n` in a frame: the history in every frame, the update where its task runs (R253, R260). -/
def State.obsFrame (s : State) (n : Nat) (runs : Bool) : State :=
  let s1 := s.obsRecord n
  if runs then s1.obsUpdate n else s1

/-- STALL at the latch (R263, R264): the first latch that sees it acts, standstill or a disarmed axis ends it. -/
def State.stallLatch (s : State) (n : Nat) : State :=
  if !s.flag (F.OBSn_STATUS_STALL n) then s
  else if !(s.ob n).seen then
    let s1 := s.modOb n fun o => { o with seen := true }
    if (s.ax n).home.isSome ∧ s.get (F.MOTn_HOME_CFG_METHOD n) = 4 then s1.modAx n fun a => { a with stall := true }
    else if s.armed n ∧ s.flag (F.OBSn_CFG_STALL_STOP n) then s1.cause n 3 1
    else s1
  else if s.flag (F.MOTn_STATUS_STANDSTILL n) ∨ !s.armed n then
    (((s.put (F.OBSn_STATUS_STALL n) 0).put (F.OBSn_STATUS_STALL_RUN n) 0).modOb n fun o => { o with seen := false }).modAx
      n fun a => { a with stall := false }
  else s

/-- A declaration is published at the output stage (R263). -/
def State.stallPublish (s : State) (n : Nat) : State :=
  if (s.ob n).stallNow then
    (((s.modOb n fun o => { o with stallNow := false, seen := false }).put (F.OBSn_STATUS_STALL n) 1).bump
      (F.OBSn_DECL_CNT_STALL_DECL n) 1).raise (evObs n 0)
  else s

/-! ## Register writes -/

/-- Does partition `n` hold an observer task (R265)? -/
def State.hasObserver (s : State) (n : Nat) : Bool :=
  (((s.cfg.run.parts[n]?).map (·.tasks)).getD []).any fun t => decide (t.cls = 5)

/-- A write of OBSn_CFG (R265). -/
def obsCfgWrite (p : Path) (n : Nat) (w : Word) (s : State) : Bool × State :=
  let w1 := w &&& BitVec.ofNat 32 0xECFFFF0F
  if bitsOf w 16 8 = 0 ∨ 10 < bitsOf w 0 4 ∨ (bitsOf w 31 1 = 1 ∧ !s.hasObserver n) ∨
      s.lockedChange p n (R.OBSn_CFG n) w1 then (false, s)
  else (true, s.wr (R.OBSn_CFG n) w1)

/-- A write of OBSn_MOTOR_R also sets R_EST (R261). -/
def motorRWrite (n : Nat) (w : Word) (s : State) : Bool × State :=
  let v := bitsOf w 0 16
  if v = 0 then (false, s)
  else (true, ((s.put (F.OBSn_MOTOR_R_VALUE n) v).put (F.OBSn_R_EST_R n) v).modOb n fun o => { o with rEst := v * 256 })

/-- A write of OBSn_DEV_CFG; SYNC captures DEV_REF while the axis is disarmed or at standstill (R267). -/
def devCfgWrite (p : Path) (n : Nat) (w : Word) (s : State) : Bool × State :=
  let w1 := w &&& BitVec.ofNat 32 0xF00000FF
  let sync := decide (bitsOf w 27 1 = 1)
  if bitsOf w 0 8 = 0 ∨ (sync ∧ !s.atRest n) ∨ s.lockedChange p n (R.OBSn_DEV_CFG n) w1 then (false, s)
  else
    let s1 := s.wr (R.OBSn_DEV_CFG n) w1
    (true, if sync then s1.devRefSet n else s1)

/-- A write of CURn_ENC_NUM or CURn_ENC_DEN with what it does to DEV_REF (R139, R267). -/
def encScaleFull (p : Path) (n : Nat) (den : Bool) (w : Word) (s : State) : Bool × State :=
  let r := encScaleWrite p n den w s
  let a := if den then R.CURn_ENC_DEN n else R.CURn_ENC_NUM n
  (r.1, if r.1 ∧ w ≠ s.rd a then r.2.devRefDrop n else r.2)

/-- A write of FBKn_CFG with what it does to DEV_REF (R243, R267). -/
def fbCfgFull (p : Path) (n : Nat) (w : Word) (s : State) : Bool × State :=
  let r := fbCfgWrite p n w s
  (r.1, if r.1 then r.2.devRefDrop n else r.2)

/-- A write of FBKn_POS with what it does to DEV_REF (R243, R267). -/
def fbPosFull (n : Nat) (v : Int) (s : State) : Bool × State :=
  let r := fbPosWrite n v s
  (r.1, if r.1 then r.2.devRefSet n else r.2)

/-- A write of MOTn_POS with what it does to DEV_REF (R97, R267). -/
def posFull (n : Nat) (v : Int) (s : State) : Bool × State :=
  let r := posWrite n v s
  (r.1, if r.1 then r.2.devRefSet n else r.2)

/-! ## The rows -/

/-- ENC_SCALE_WRITE: a write of CURn_ENC_NUM (0), CURn_ENC_DEN (1) or CURn_CFG (2). -/
def execEncScaleWrite (p : Path) (n : AxisIx) (reg : Fin 3) (w : Word) (s : State) : Host.Outcome State Fault Refusal :=
  live s fun s => if reg = 2 then (curCfgWrite p n.val w s).2 else (encScaleFull p n.val (decide (reg = 1)) w s).2

/-- FBK_MODE_WRITE: a write of FBKn_CFG. -/
def execFbkModeWrite (p : Path) (n : AxisIx) (w : Word) (s : State) : Host.Outcome State Fault Refusal :=
  live s fun s => (fbCfgFull p n.val w s).2

/-- FBK_POS_WRITE. -/
def execFbkPosWrite (_p : Path) (n : AxisIx) (v : BitVec 48) (s : State) : Host.Outcome State Fault Refusal :=
  live s fun s => (fbPosFull n.val v.toInt s).2

/-- DEV_SYNC: a write of OBSn_DEV_CFG. -/
def execDevSync (p : Path) (n : AxisIx) (w : Word) (s : State) : Host.Outcome State Fault Refusal :=
  live s fun s => (devCfgWrite p n.val w s).2

/-- MOTOR_R_WRITE. -/
def execMotorRWrite (_p : Path) (n : AxisIx) (w : Word) (s : State) : Host.Outcome State Fault Refusal :=
  live s fun s => (motorRWrite n.val w s).2

end Sys2Proof.Machine
end

