-- ==== Sys2Proof/Machine/Cmp.lean ====
section
/-!
DEFINITION. Comparators and window monitors (chapter 12): thresholds and settings (R305, R308), range changes (R306, R307),
the self-test (R309), release of the outputs (R311).
-/
namespace Sys2Proof.Machine

/-- A comparator event: kind 1 THR_CLIP, 2 SELFTEST_FAIL, 3 RB_FAIL (R312), in CMPcc_STATUS. -/
def evCmp (c kind : Nat) : Ev :=
  ⟨R.CMPc_STATUS c, if kind = 1 then 11 else if kind = 2 then 12 else 10, 0x40 + c, R.CMP_EVT_ENABLE, kind, .always⟩

/-- The sense channel that comparator `c` watches (R299). -/
def State.cmpChan (s : State) (c : Nat) : Option Nat := if c < 32 then some (c / 2) else s.sinkChan (0x120 + (c - 32))

/-- Does the arbiter hold CMP(c) for an activity? -/
def State.cmpClaimed (s : State) (c : Nat) : Bool := s.runs 2 c || s.runs 3 c

/-- A comparator decides: its deglitched level rises (R300, R301). A disabled comparator reads 0. -/
def cmpTrip (c cyc : Nat) (s : State) : State :=
  if s.flag (F.CMPc_CFG_EN c) then (s.at cyc).put (F.CMPc_STATUS_RAW c) 1 else s.at cyc

/-- The comparator releases (R300). -/
def cmpRelease (c cyc : Nat) (s : State) : State := (s.at cyc).put (F.CMPc_STATUS_RAW c) 0

/-- A write of CMPcc_DAC (R305). -/
def cmpDacWrite (c : Nat) (w : Word) (s : State) : Bool × State :=
  if s.cmpClaimed c then (false, s) else (true, s.put (F.CMPc_DAC_CODE c) (bitsOf w 0 10))

/-- The axis state that protects the RWL fields of comparator `c`. -/
def State.cmpLocked (s : State) (c : Nat) : Bool := if c < 32 then s.armed (c / 4) else s.anyArmed

/-- A write of CMPcc_CFG (R305, R308). -/
def cmpCfgWrite (p : Path) (c : Nat) (w : Word) (s : State) : Bool × State :=
  let test := bitsOf w 13 3
  let en := bitsOf w 0 1
  let pol := if c < 32 then s.get (F.CMPc_CFG_POL c) else bitsOf w 1 1
  let rwl := decide (en ≠ s.get (F.CMPc_CFG_EN c) ∨ pol ≠ s.get (F.CMPc_CFG_POL c))
  if s.cmpClaimed c ∨ 4 < test ∨ (c < 32 ∧ test ≠ 0 ∧ s.armed (c / 4)) ∨ (rwl ∧ s.cmpLocked c ∧ p ≠ .image) then (false, s)
  else
    let s1 := ((s.put (F.CMPc_CFG_TEST c) test).put (F.CMPc_CFG_DEG c) (bitsOf w 8 2)).put (F.CMPc_CFG_HYST c)
      (bitsOf w 4 2)
    let s2 := (s1.put (F.CMPc_CFG_POL c) pol).put (F.CMPc_CFG_EN c) en
    (true, if en = 0 then s2.put (F.CMPc_STATUS_RAW c) 0 else s2)

/-! ## Range changes (R306, R307) -/

/-- A code in the new range: convergent, held at its bounds; the flag says whether it was held. -/
def rescaleCode (code old new : Nat) : Nat × Bool :=
  let y := 512 + convDiv (((code : Int) - 512) * (2 ^ old : Nat)) (2 ^ new)
  if y < 0 then (0, true) else if 1023 < y then (1023, true) else (y.toNat, false)

/-- Rescale comparator `c` for a change of range code from `old` to `new`; while a self-test runs the saved code. -/
def State.cmpRescale (s : State) (c old new : Nat) : State :=
  let s1 := { s with cmp := { s.cmp with hold := c :: s.cmp.hold } }
  match s.cmp.saved.find? fun e => decide (e.1 = c) with
  | some e =>
    let r := rescaleCode e.2.1 old new
    let saved := s.cmp.saved.map fun x => if x.1 = c then (c, r.1, e.2.2) else x
    ({ s1 with cmp := { s1.cmp with saved := saved } }).raiseIf r.2 (evCmp c 1)
  | none =>
    let r := rescaleCode (s.get (F.CMPc_DAC_CODE c)) old new
    let started := match s.findAct 3 c with
      | some i => s.frm.slotStart.toList.getD i 0 + 40000
      | none => 0
    let bad := s.runs 3 c && decide (started ≤ s.now)
    let s2 := { s1 with cmp := { s1.cmp with rbBad := s1.cmp.rbBad || bad } }
    (s2.put (F.CMPc_DAC_CODE c) r.1).raiseIf r.2 (evCmp c 1)

/-- Rescale every comparator whose channel changed its range between `s0` and `s` (R306). -/
def State.cmpFollow (s0 s : State) : State :=
  (List.range 40).foldl (fun s c =>
    match s.cmpChan c with
    | none => s
    | some ch =>
      let old := s0.rangeNow ch
      let new := s.rangeNow ch
      if old = new then s else s.cmpRescale c old new) s

/-! ## Self-test (R309) -/

/-- The switch and the code of a step (Table 12.3). -/
def selfTestStep (k : Nat) : Nat × Nat :=
  match k with
  | 1 => (3, 752)
  | 2 => (3, 784)
  | 3 => (4, 272)
  | 4 => (4, 240)
  | _ => (3, 752)

/-- The settings of step `k`. -/
def State.applySelfTest (s : State) (c k : Nat) : State :=
  ((s.put (F.CMPc_CFG_TEST c) (selfTestStep k).1).put (F.CMPc_DAC_CODE c) (selfTestStep k).2).put (F.CMPc_CFG_HYST c) 0

/-- A granted CMP_SELFTEST starts: CODE and HYST are saved and step 1 applied. -/
def State.startSelfTest (s : State) (c : Nat) : State :=
  let e := (c, s.get (F.CMPc_DAC_CODE c), s.get (F.CMPc_CFG_HYST c))
  ({ s with cmp := { s.cmp with saved := e :: s.cmp.saved } }).applySelfTest c 1

/-- The steps of running tests, 60 µs each, as a frame start sees them. -/
def State.selfTestFrame (s : State) : State :=
  s.cmp.saved.foldl (fun s e =>
    let t0 := match s.findAct 2 e.1 with
      | some i => s.frm.slotStart.toList.getD i 0
      | none => s.now
    s.applySelfTest e.1 (Nat.min 5 (1 + (s.now - t0) / 24000))) s

/-- The saved settings return and the output joins the fabric again: the level of the tie no longer counts, and the input
decides by its own events (DEDUCED, log entry 33). -/
def State.endSelfTest (s : State) (c : Nat) : State :=
  match s.cmp.saved.find? fun e => decide (e.1 = c) with
  | none => s
  | some e =>
    let s0 := (s.put (F.CMPc_STATUS_RAW c) 0).put (F.CMPc_DAC_CODE c) e.2.1
    let s1 := (s0.put (F.CMPc_CFG_HYST c) e.2.2).put (F.CMPc_CFG_TEST c) 0
    { s1 with cmp := { s1.cmp with saved := s1.cmp.saved.filter fun x => decide (x.1 ≠ c) } }

/-- The test ends: the failing step, 0 for a pass. -/
def selfTestDone (c fail : Nat) (s : State) : State :=
  if s.runs 2 c then
    let s1 := (s.put (F.CMPc_STATUS_ST_RESULT c) (if fail = 0 then 1 else 2)).put (F.CMPc_STATUS_ST_STEP c) fail
    ((s1.raiseIf (decide (fail ≠ 0)) (evCmp c 2)).endSelfTest c).endAct 2 c
  else s

/-- The trip outputs are released 10 µs after ANA_OK (R311). -/
def cmpEnable (s : State) : State := if s.anaOk then { s with cmp := { s.cmp with ready := true } } else s

/-! ## The rows -/

/-- CMP_TRIP at core cycle `cyc` of the frame. -/
def execCmpTrip (c : CmpIx) (cyc : Nat) (s : State) : Host.Outcome State Fault Refusal := liveA s (cmpTrip c.val cyc)

/-- CMP_RELEASE at core cycle `cyc` of the frame. -/
def execCmpRelease (c : CmpIx) (cyc : Nat) (s : State) : Host.Outcome State Fault Refusal := liveA s (cmpRelease c.val cyc)

/-- CMP_DAC_WRITE. -/
def execCmpDacWrite (_p : Path) (c : CmpIx) (w : Word) (s : State) : Host.Outcome State Fault Refusal :=
  live s fun s => (cmpDacWrite c.val w s).2

/-- CMP_TEST_WRITE: a write of CMPcc_CFG. -/
def execCmpTestWrite (p : Path) (c : CmpIx) (w : Word) (s : State) : Host.Outcome State Fault Refusal :=
  liveA s fun s => (cmpCfgWrite p c.val w s).2

/-- CMP_SELFTEST_DONE with the first failing step, 0 for none. -/
def execCmpSelftestDone (c : CmpIx) (fail : Fin 6) (s : State) : Host.Outcome State Fault Refusal :=
  liveA s (selfTestDone c.val fail.val)

/-- CMP_OUTPUTS_ENABLED. -/
def execCmpOutputsEnabled (s : State) : Host.Outcome State Fault Refusal := liveA s cmpEnable

end Sys2Proof.Machine
end

