-- ==== Sys2Proof/Machine/Pmc.lean ====
section
/-!
DEFINITION. The precision converter (chapter 11): scans, urgent scans and interleaving (R278 to R281, R285, R286), median,
correction and limits (R282, R283), open-wire detection (R284), the reference buffer and its cross-check (R287 to R294),
and the readback of a comparator's DAC on converter B (R310).
-/
namespace Sys2Proof.Machine

/-! ## Events (R298) -/

/-- An event of PMC_IRQ_STATUS: SCAN_DONE and REF_READY are never logged, SCAN_MISS and URG_DROP on a rising bit. -/
def evPmc (bit : Nat) : Ev :=
  let mode : LogMode := if bit = 0 ∨ bit = 3 then .never else if bit = 1 ∨ bit = 2 then .edge else .always
  ⟨R.PMC_IRQ_STATUS, bit, 0, R.PMC_IRQ_ENABLE, bit, mode⟩

/-- LIMIT of entry `e` (R283). -/
def evPmcLimit (e : Nat) : Ev := ⟨R.PMC_EVT_LIMIT, e, 0x70 + e, R.PMC_EVT_ENABLE, 0, .always⟩

/-- OPEN_WIRE of entry `e` (R284). -/
def evPmcOpen (e : Nat) : Ev := ⟨R.PMC_EVT_OPEN, e, 0x70 + e, R.PMC_EVT_ENABLE, 1, .always⟩

/-! ## The converters -/

/-- Time in core cycles. -/
def State.time (s : State) : Nat := s.now + s.sub

/-- Is converter B claimed for maintenance (PMCB, Table 1.7)? -/
def State.pmcbClaimed (s : State) : Bool := s.runsAny 3 || s.runsAny 4

/-- Is interleaving running? -/
def State.interleaving (s : State) : Bool := s.flag F.PMC_STATUS_RUN && decide (s.get F.PMC_SCAN_CFG_MODE = 3)

/-- PMC_STATUS follows the converters (R279, R286). -/
def State.pmcShow (s : State) : State :=
  let urgent := match s.pmc.a with
    | some c => (match c.kind with
      | .urgent _ => true
      | _ => false)
    | none => false
  let s1 := ((s.putB F.PMC_STATUS_BUSY_A s.pmc.a.isSome).putB F.PMC_STATUS_URGENT urgent).putB F.PMC_STATUS_BUSY_B
    (s.pmc.b.isSome || s.pmcbClaimed)
  let s2 := match s.pmc.a with
    | some c => s1.put F.PMC_STATUS_ENTRY_A c.entry
    | none => s1
  let s3 := match s.pmc.b with
    | some c => s2.put F.PMC_STATUS_ENTRY_B c.entry
    | none => s2
  s3.putB F.PMC_STATUS_INTLV_PAUSED (s.interleaving && s.pmcbClaimed)

/-- A conversion starts: its number, and the mark and count of an early one (R287). -/
def State.newConv (s : State) (k : ConvKind) (e : Nat) : Conv × State :=
  let early := !s.flag F.PMC_STATUS_REF_READY
  let c : Conv := { kind := k, entry := e, cfg := s.rd (R.PMC_CFGe e), seq := s.pmc.seq + 1, suspect := early }
  let s1 := { s with pmc := { s.pmc with seq := s.pmc.seq + 1 } }
  (c, if early then s1.bump F.PMC_REF_EARLY_COUNT 1 else s1)

/-- Converter A starts a conversion. -/
def State.startA (s : State) (k : ConvKind) (e : Nat) : State :=
  let r := s.newConv k e
  { r.2 with pmc := { r.2.pmc with a := some r.1 } }

/-- Converter B starts the interleaved entry. -/
def State.startB (s : State) : State :=
  let r := s.newConv .interleave (s.get F.PMC_SCAN_CFG_ENTRY)
  { r.2 with pmc := { r.2.pmc with b := some r.1 } }

/-- The entries of a mask in ascending order. -/
def maskEntries (w : Word) : List Nat := (List.range 32).filter fun e => w.getLsbD e

/-- A scan starts on converter A; an empty one ends at once (R278). -/
def State.startScan (s : State) (urgent : Bool) : State :=
  match maskEntries (s.rd (if urgent then R.PMC_URG_MASK else R.PMC_SCAN_MASK)) with
  | [] => s.raise (evPmc 0)
  | e :: rest => s.startA (if urgent then .urgent rest else .scan rest) e

/-- Converter A is idle: a pending start comes first, then what RUN asks for without a trigger (R278, R279). -/
def State.aIdle (s : State) : State :=
  if s.pmc.a.isSome ∨ !s.anaOk then s
  else if s.flag F.PMC_STATUS_PEND then (s.put F.PMC_STATUS_PEND 0).startScan false
  else if s.flag F.PMC_STATUS_RUN ∧ s.get F.PMC_SCAN_CFG_MODE = 1 ∧ s.rd R.PMC_SCAN_MASK ≠ 0 then s.startScan false
  else if s.interleaving then s.startA .interleave (s.get F.PMC_SCAN_CFG_ENTRY)
  else s

/-- A scan start: at once, pending, or missed (R279). -/
def State.scanStart (s : State) : State :=
  if s.pmc.a.isNone then s.startScan false
  else if s.flag F.PMC_STATUS_PEND then (s.bump F.PMC_SCAN_MISS_COUNT 1).raise (evPmc 1)
  else s.put F.PMC_STATUS_PEND 1

/-- A scan trigger (Table 11.3). -/
def scanTrigger (s : State) : State :=
  let m := s.get F.PMC_SCAN_CFG_MODE
  (if m = 0 ∨ m = 2 then s.scanStart else (s.bump F.PMC_SCAN_MISS_COUNT 1).raise (evPmc 1)).pmcShow

/-- An urgent request (R280). -/
def urgentRequest (s : State) : State :=
  (if s.pmc.a.isNone then s.startScan true else (s.bump F.PMC_URG_DROP_COUNT 1).raise (evPmc 2)).pmcShow

/-- START (Table 11.3); without effect while RUN = 1 (R281). A periodic scan waits for its frame start. -/
def pmcStart (s : State) : State :=
  if s.flag F.PMC_STATUS_RUN then s
  else
    let m := s.get F.PMC_SCAN_CFG_MODE
    if m = 0 then s.scanStart.pmcShow
    else
      let s1 := s.put F.PMC_STATUS_RUN 1
      (if m = 2 ∨ s1.pmc.a.isSome then s1
       else if m = 1 then s1.startScan false
       else s1.startA .interleave (s1.get F.PMC_SCAN_CFG_ENTRY)).pmcShow

/-! ## Results (R282 to R284) -/

/-- Write the result word of an entry; its TAG advances. -/
def State.pmcResult (s : State) (c : Conv) (data : Int) (valid clip : Bool) : State :=
  let e := c.entry
  let tag := bitsOf (s.rd (R.PMC_RESe e)) 4 4 + 1
  let suspect := c.suspect || decide (s.get F.PMC_REF_STATUS_STATE = 2)
  let s1 := s.wr (R.PMC_RESe e) (resultWord data tag valid false clip suspect)
  let s2 := { s1 with pmc := { s1.pmc with resSeq := s1.pmc.resSeq.setIfInBounds e c.seq } }
  if clip then s2.bump (F.PMC_STATe_CLIP_CNT e) 1 else s2

/-- A conversion that ends at once: an invalid result (R281, R297). -/
def State.pmcInvalid (s : State) (c : Conv) : State :=
  let s1 := s.pmcResult c 0 false false
  let h := none :: s1.pmc.hist.toList.getD c.entry []
  { s1 with pmc := { s1.pmc with hist := s1.pmc.hist.setIfInBounds c.entry (h.take 5) } }

/-- The limit flag of an entry for the valid result `y` (R283). -/
def State.pmcLimit (s : State) (e : Nat) (y : Int) : State :=
  let lo := s.getS (F.PMC_LIM_LOe_LIMIT e)
  let hi := s.getS (F.PMC_LIM_HIe_LIMIT e)
  let f := decide (lo ≤ hi) && (decide (hi < y) || decide (y < lo))
  let was := s.flag ⟨R.PMC_LIMIT_FLAGS, e, 1⟩
  let s1 := ((s.putB (F.PMC_STATe_ABOVE e) (decide (hi < y))).putB (F.PMC_STATe_BELOW e) (decide (y < lo))).putB
    ⟨R.PMC_LIMIT_FLAGS, e, 1⟩ f
  s1.raiseIf (f && !was) (evPmcLimit e)

/-- Does a raw result declare its entry open (R284)? -/
def openDeclared (ow thr : Nat) (raw : Int) (clip : Bool) (prev : Option (Int × Bool)) : Bool :=
  if ow = 0 then false
  else if ow < 3 then clip
  else match prev with
    | some (r, k) => clip || k || decide ((thr : Int) < ((raw - r).natAbs : Int))
    | none => clip

/-- The median of order `w` over the valid results of a history, newest first (R282). -/
def pmcMedian (w : Nat) (h : List (Option Int)) : Int := medianOf ((h.take w).filterMap id)

/-- The stages of a raw result of a conversion under its own settings: median, correction, result word, limits, open
wire. -/
def State.pmcValid (s : State) (c : Conv) (x : Int) : State :=
  let e := c.entry
  let raw := satS 24 x
  let clip := decide (raw ≠ x)
  let med := bitsOf c.cfg 12 2
  let ow := bitsOf c.cfg 16 2
  let hist := ((some raw :: s.pmc.hist.toList.getD e []).take 5)
  let m := if med = 0 then raw else pmcMedian (2 * med + 1) hist
  let y := correct m (s.getS (F.PMC_OFFSETe_VALUE e)) (s.get (F.PMC_GAINe_VALUE e))
  let opened := openDeclared ow (s.get F.PMC_OW_THR_THR) raw clip (s.pmc.prev.toList.getD e none)
  let was := s.flag (F.PMC_STATe_OPEN e)
  let s1 := { s with pmc := { s.pmc with hist := s.pmc.hist.setIfInBounds e hist,
                                         prev := s.pmc.prev.setIfInBounds e (some (raw, clip)) } }
  let s2 := ((s1.pmcResult c y true clip).pmcLimit e y).putB (F.PMC_STATe_OPEN e) opened
  s2.raiseIf (opened && !was) (evPmcOpen e)

/-- A conversion ends with the converter's value `x`; without its rail the result is invalid (R297). -/
def State.pmcFinish (s : State) (c : Conv) (x : Int) : State := if s.anaOk then s.pmcValid c x else s.pmcInvalid c

/-- What converter A does after a conversion of kind `k` (R278, R279, R285). -/
def State.aNext (s : State) (k : ConvKind) : State :=
  let s1 := { s with pmc := { s.pmc with a := none } }
  match k with
  | .scan (e :: rest) => s1.startA (.scan rest) e
  | .urgent (e :: rest) => s1.startA (.urgent rest) e
  | .interleave => s1.aIdle
  | _ => (s1.raise (evPmc 0)).aIdle

/-- A conversion of converter A, or of B, ends (R276, R285). -/
def conversionDone (onB : Bool) (x : Int) (s : State) : State :=
  if onB then
    match s.pmc.b with
    | none => s
    | some c =>
      let s1 := s.pmcFinish c x
      (({ s1 with pmc := { s1.pmc with b := none } }).startB).pmcShow
  else
    match s.pmc.a with
    | none => s
    | some c => ((s.pmcFinish c x).aNext c.kind).pmcShow

/-- Converter B starts half a conversion after A (R285). -/
def interleaveB (s : State) : State :=
  if s.interleaving ∧ s.pmc.a.isSome ∧ s.pmc.b.isNone ∧ !s.pmcbClaimed then s.startB.pmcShow else s

/-- The conversions in progress end: the one on A with an invalid result, the interleaved one on B with none. -/
def State.pmcAbort (s : State) : State :=
  let s1 := match s.pmc.a with
    | some c => s.pmcInvalid c
    | none => s
  { s1 with pmc := { s1.pmc with a := none, b := none } }

/-- STOP (R281). -/
def pmcStop (s : State) : State := (((s.put F.PMC_STATUS_RUN 0).put F.PMC_STATUS_PEND 0).pmcAbort).pmcShow

/-- PMCB is granted: converter B abandons its interleaved conversion (R286). -/
def State.pmcbGrant (s : State) : State := ({ s with pmc := { s.pmc with b := none } }).pmcShow

/-- The periodic scan of a frame start, and the restart of a run whose rail came back (R278, R297). -/
def State.pmcFrame (s : State) : State :=
  let period := s.get F.PMC_SCAN_CFG_PERIOD
  let due := s.flag F.PMC_STATUS_RUN && decide (s.get F.PMC_SCAN_CFG_MODE = 2) && decide (s.frame % period = 0)
  let s1 := if due then s.scanStart else s
  let empty := s1.flag F.PMC_STATUS_RUN && decide (s1.get F.PMC_SCAN_CFG_MODE = 1) &&
    decide (s1.rd R.PMC_SCAN_MASK = 0) && s1.pmc.a.isNone
  (if empty then s1.raise (evPmc 0) else s1.aIdle).pmcShow

/-! ## Writes (R277, R278, R281, R283, R287, R288) -/

/-- A write of PMC_CTRL: START with STOP is refused; an urgent request goes before a start (R280, R281). -/
def pmcCtrlWrite (w : Word) (s : State) : Bool × State :=
  let b := fun i => decide (bitsOf w i 1 = 1)
  if b 0 ∧ b 1 then (false, s)
  else
    let s1 := if b 1 then pmcStop s else s
    let s2 := if b 2 then urgentRequest s1 else s1
    (true, if b 0 then pmcStart s2 else s2)

/-- A write of PMC_SCAN_CFG (R278). -/
def pmcScanCfgWrite (w : Word) (s : State) : Bool × State :=
  if s.flag F.PMC_STATUS_RUN ∨ (bitsOf w 0 2 = 2 ∧ bitsOf w 16 16 = 0) then (false, s)
  else (true, s.wr R.PMC_SCAN_CFG (w &&& 0xFFFF1F07))

/-- A write of PMC_CFGee (R277). -/
def pmcCfgWrite (e : Nat) (w : Word) (s : State) : Bool × State :=
  let w1 := w &&& 0xF3717
  let ow := bitsOf w 16 2
  let med := bitsOf w 12 2
  if bitsOf w 18 2 = 3 ∨ med = 3 ∨ (16 ≤ e ∧ (bitsOf w 0 3 ≠ 0 ∨ bitsOf w 4 1 = 1 ∨ ow ≠ 0)) ∨
      (e % 2 = 1 ∧ bitsOf w 4 1 = 1) ∨ (med ≠ 0 ∧ ow = 3) then (false, s)
  else
    let s1 := s.wr (R.PMC_CFGe e) w1
    (true, if w1 = s.rd (R.PMC_CFGe e) then s1
      else { s1 with pmc := { s1.pmc with hist := s1.pmc.hist.setIfInBounds e [],
                                          prev := s1.pmc.prev.setIfInBounds e none } })

/-- A write of PMC_LIM_LOee or PMC_LIM_HIee; crossed limits clear the flag (R283). -/
def pmcLimWrite (e : Nat) (high : Bool) (w : Word) (s : State) : State :=
  let s1 := s.put (if high then F.PMC_LIM_HIe_LIMIT e else F.PMC_LIM_LOe_LIMIT e) (bitsOf w 0 24)
  if s1.getS (F.PMC_LIM_HIe_LIMIT e) < s1.getS (F.PMC_LIM_LOe_LIMIT e) then s1.put ⟨R.PMC_LIMIT_FLAGS, e, 1⟩ 0 else s1

/-- REF_READY clears (R287). -/
def State.refUnready (s : State) : State :=
  if s.flag F.PMC_STATUS_REF_READY then
    let s1 := s.put F.PMC_STATUS_REF_READY 0
    { s1 with pmc := { s1.pmc with clearedAt := s1.time } }
  else s

/-- The selected reference changes (R287, R295). -/
def State.refChanged (s : State) : State :=
  let s1 := s.refUnready
  { s1 with pmc := { s1.pmc with selChange := true } }

/-- A write of PMC_REF_CFG (R287, R288): a reserved or FAILED reference and a change of EXT with an axis armed are
refused. -/
def pmcRefWrite (p : Path) (w : Word) (s : State) : Bool × State :=
  let sel := bitsOf w 4 2
  let ext := bitsOf w 8 1
  let en := bitsOf w 0 1
  let extNew := decide (ext ≠ s.get F.PMC_REF_CFG_EXT)
  if sel = 3 ∨ bitsOf (s.rd R.PMC_REF_STATUS) (8 + sel) 1 = 1 ∨ (extNew ∧ s.anyArmed ∧ p ≠ .image) then (false, s)
  else
    let changed := decide (sel ≠ s.get F.PMC_REF_CFG_SEL) || (extNew && decide (sel = 0))
    let s1 := s.wr R.PMC_REF_CFG (w &&& 0x131)
    let s2 := if changed then s1.refChanged else s1
    (true, if en = 0 then s2.refUnready else s2)

/-- The buffer has settled (R287). -/
def refReady (s : State) : State :=
  if s.flag F.PMC_REF_CFG_BUF_EN ∧ !s.flag F.PMC_STATUS_REF_READY then
    let s1 := s.put F.PMC_STATUS_REF_READY 1
    ({ s1 with pmc := { s1.pmc with selChange := false, readyAt := s1.time } }).raise (evPmc 3)
  else s

/-- Was REF_READY set at time `t`? -/
def State.readyThen (s : State) (t : Nat) : Bool :=
  decide (s.pmc.readyAt ≤ t) && (s.flag F.PMC_STATUS_REF_READY || decide (t < s.pmc.clearedAt))

/-! ## The reference cross-check (R289 to R294) -/

/-- A granted REF_XCHECK starts. -/
def State.startXcheck (s : State) : State :=
  let n := s.pmc.seq + 1
  ({ s with pmc := { s.pmc with seq := n, checkSeq := n, checkFrame := s.frame } }).pmcbGrant

/-- The marking of R292: results of conversions started after the last good check, shown or in progress; every median
history clears. -/
def State.markSuspect (s : State) : State :=
  let good := s.pmc.goodSeq
  let mark := fun (c : Conv) => if good < c.seq then { c with suspect := true } else c
  let s1 := (List.range 32).foldl (fun s e =>
    if good < s.pmc.resSeq.toList.getD e 0 then s.put ⟨R.PMC_RESe e, 0, 1⟩ 1 else s) s
  { s1 with pmc := { s1.pmc with a := s1.pmc.a.map mark, b := s1.pmc.b.map mark, hist := Vector.replicate 32 [] } }

/-- Entry or stay in NO_MAJORITY (R291 to R293). -/
def State.noMajority (s : State) : State :=
  let s1 := if s.get F.PMC_REF_STATUS_STATE = 2 then s else (s.put F.PMC_REF_STATUS_STATE 2).markSuspect
  s1.raise (evPmc 7)

/-- One pair's run of deviations above 0.10 % (R290); deviations in units of 10⁻⁹. -/
def State.refWarn (s : State) (i d : Nat) : State :=
  if 1000000 < d then
    let n := Nat.min 17 (s.pmc.warn.toList.getD i 0 + 1)
    let s1 := { s with pmc := { s.pmc with warn := s.pmc.warn.setIfInBounds i n } }
    if n = 16 then (s1.put ⟨R.PMC_REF_STATUS, 4 + i, 1⟩ 1).raise (evPmc 4) else s1
  else
    ({ s with pmc := { s.pmc with warn := s.pmc.warn.setIfInBounds i 0 } }).put ⟨R.PMC_REF_STATUS, 4 + i, 1⟩ 0

/-- Mark a reference FAILED. -/
def State.refFail (s : State) (m : Nat) : State := (s.put ⟨R.PMC_REF_STATUS, 8 + m, 1⟩ 1).raise (evPmc 6)

/-- Two pairs disagree with odd member `m` (Table 11.4). -/
def State.oddMember (s : State) (m : Nat) : State :=
  if m ≠ s.get F.PMC_REF_CFG_SEL then (s.put F.PMC_REF_STATUS_STATE 0).refFail m
  else
    match (List.range 3).find? fun i => decide (i ≠ m) && decide (bitsOf (s.rd R.PMC_REF_STATUS) (8 + i) 1 = 0) with
    | none => s.noMajority
    | some i =>
      let s1 := ((s.put F.PMC_REF_STATUS_STATE 0).refFail m).put F.PMC_REF_CFG_SEL i
      (s1.refChanged.raise (evPmc 8)).markSuspect

/-- A comparison by Table 11.4, from which pairs disagree. -/
def State.refOutcome (s : State) (ab ac bc : Bool) : State :=
  match ab, ac, bc with
  | false, false, false =>
    let s1 := (s.put F.PMC_REF_STATUS_STATE 0).put F.PMC_REF_GOOD_FRAME s.pmc.checkFrame
    { s1 with pmc := { s1.pmc with goodSeq := s1.pmc.checkSeq } }
  | true, true, true => s.noMajority
  | true, true, false => s.oddMember 0
  | true, false, true => s.oddMember 1
  | false, true, true => s.oddMember 2
  | _, _, _ => (s.put F.PMC_REF_STATUS_STATE 1).raise (evPmc 5)

/-- A deviation as PMC_REF_DEV shows it: units of 0.001 %, at most 1,023. -/
def devUnits (d : Nat) : Nat := satU 10 (convDiv d 10000).toNat

/-- A cross-check ends with the deviations of AB, AC and BC in units of 10⁻⁹. -/
def refXcheckDone (ab ac bc : Nat) (s : State) : State :=
  if s.runs 4 0 then
    let bad := fun d => decide (2500000 < d)
    let s1 := ((s.put F.PMC_REF_DEV_DEV_AB (devUnits ab)).put F.PMC_REF_DEV_DEV_AC (devUnits ac)).put
      F.PMC_REF_DEV_DEV_BC (devUnits bc)
    let s2 := ((s1.refWarn 0 ab).refWarn 1 ac).refWarn 2 bc
    let s3 := { s2 with pmc := { s2.pmc with pairs := #v[bad ab, bad ac, bad bc] } }
    (((s3.refOutcome (bad ab) (bad ac) (bad bc)).endAct 4 0)).pmcShow
  else s

/-- The pairs that a reference belongs to. -/
def refPairs (m : Nat) : List Nat := if m = 0 then [0, 1] else if m = 1 then [0, 2] else [1, 2]

/-- A write of 1 to FAILED bits (R294). -/
def refFailedClear (w : Word) (s : State) : State :=
  (List.range 3).foldl (fun s m =>
    if bitsOf w (8 + m) 1 = 1 ∧ (refPairs m).all (fun i => !s.pmc.pairs.toList.getD i false) then
      s.put ⟨R.PMC_REF_STATUS, 8 + m, 1⟩ 0
    else s) s

/-! ## The DAC readback (R310) -/

/-- A readback ends with the converter's value `x`. -/
def dacReadbackDone (c : Nat) (x : Int) (s : State) : State :=
  match s.findAct 3 c with
  | none => s
  | some i =>
    let t := s.frm.slotStart.toList.getD i 0 + 40000
    let early := !s.readyThen t
    let valid := s.anaOk && !s.cmp.rbBad
    let suspect := early || decide (s.get F.PMC_REF_STATUS_STATE = 2)
    let y := satS 24 x
    let tag := bitsOf (s.rd (R.CMPc_DAC_RB c)) 4 4 + 1
    let s1 := s.wr (R.CMPc_DAC_RB c) (resultWord y tag valid false (decide (y ≠ x)) suspect)
    let s2 := if early then s1.bump F.PMC_REF_EARLY_COUNT 1 else s1
    let want := convDiv (((s.get (F.CMPc_DAC_CODE c) : Int) - 512) * 65536) 10
    let ok := decide ((y - want).natAbs ≤ 13107)
    let res := if valid && !suspect then (if ok then 1 else 2) else 3
    let s3 := (s2.put (F.CMPc_STATUS_RB_RESULT c) res).raiseIf (decide (res = 2)) (evCmp c 3)
    ((({ s3 with cmp := { s3.cmp with rbBad := false } }).endAct 3 c)).pmcShow

/-- The analogue rail: the sensing outputs, the comparators' release (R311), and the conversion in progress (R297). -/
def anaOkChange (ok : Bool) (s : State) : State :=
  let s1 := anaChange ok s
  if ok then s1
  else (({ s1 with cmp := { s1.cmp with ready := false } }).pmcAbort).pmcShow

/-! ## The rows -/

/-- PMC_START: a write of START to PMC_CTRL. -/
def execPmcStart (_p : Path) (s : State) : Host.Outcome State Fault Refusal := liveA s fun s => (pmcCtrlWrite 1 s).2

/-- PMC_STOP. -/
def execPmcStop (_p : Path) (s : State) : Host.Outcome State Fault Refusal := liveA s fun s => (pmcCtrlWrite 2 s).2

/-- PMC_URGENT. -/
def execPmcUrgent (_p : Path) (s : State) : Host.Outcome State Fault Refusal := liveA s fun s => (pmcCtrlWrite 4 s).2

/-- SCAN_TRIGGER. -/
def execScanTrigger (s : State) : Host.Outcome State Fault Refusal := liveA s scanTrigger

/-- URGENT_TRIGGER. -/
def execUrgentTrigger (s : State) : Host.Outcome State Fault Refusal := liveA s urgentRequest

/-- CONVERSION_DONE at core cycle `cyc` of the frame, on converter A or B, with the converted value before saturation. -/
def execConversionDone (onB : Bool) (x : Int) (cyc : Nat) (s : State) : Host.Outcome State Fault Refusal :=
  liveA s fun s => conversionDone onB x (s.at cyc)

/-- INTERLEAVE_B_START. -/
def execInterleaveBStart (s : State) : Host.Outcome State Fault Refusal := live s interleaveB

/-- PMC_CFG_WRITE. -/
def execPmcCfgWrite (_p : Path) (e : EntryIx) (w : Word) (s : State) : Host.Outcome State Fault Refusal :=
  live s fun s => (pmcCfgWrite e.val w s).2

/-- REF_READY at core cycle `cyc` of the frame. -/
def execRefReady (cyc : Nat) (s : State) : Host.Outcome State Fault Refusal := live s fun s => refReady (s.at cyc)

/-- REF_SELECT: a write of PMC_REF_CFG. -/
def execRefSelect (p : Path) (w : Word) (s : State) : Host.Outcome State Fault Refusal :=
  live s fun s => (pmcRefWrite p w s).2

/-- REF_XCHECK_DONE with the deviations of AB, AC and BC in units of 10⁻⁹. -/
def execRefXcheckDone (ab ac bc : Nat) (s : State) : Host.Outcome State Fault Refusal :=
  liveA s (refXcheckDone ab ac bc)

/-- REF_FAILED_CLEAR: a write of PMC_REF_STATUS. -/
def execRefFailedClear (_p : Path) (w : Word) (s : State) : Host.Outcome State Fault Refusal := live s (refFailedClear w)

/-- DAC_READBACK_DONE with the converted value before saturation. -/
def execDacReadbackDone (c : CmpIx) (x : Int) (s : State) : Host.Outcome State Fault Refusal :=
  live s (dacReadbackDone c.val x)

/-- ANA_OK_CHANGE. -/
def execAnaOkChange (ok : Bool) (s : State) : Host.Outcome State Fault Refusal := liveA s (anaOkChange ok)

end Sys2Proof.Machine
end

