-- ==== Sys2Proof/Machine/MaintCmd.lean ====
section
/-!
DEFINITION. The commands of the maintenance arbiter: a request, an abort, a timeout, a scheduled start, and what each
activity does when it is granted and when it is aborted (R35 to R43).
-/
namespace Sys2Proof.Machine

/-- What a granted activity starts: LINK_PRBS (R338), CMP_SELFTEST (R309), DAC_READBACK (R310), REF_XCHECK (R289),
OFFSET_CAL (R226), ENC_CAL (R140). The others wait for their own events. -/
def State.startAct (s : State) (act t : Nat) : State :=
  match act with
  | 1 => s.startPrbs t
  | 2 => s.startSelfTest t
  | 3 => { s.pmcbGrant with cmp := { s.pmcbGrant.cmp with rbBad := false } }
  | 4 => s.startXcheck
  | 9 => s.startOffCal t
  | 10 =>
    s.modAx t fun a =>
      { a with cal := some { start := a.kin.x, ran := 0, sum := 0, count := 0, lo := 0, hi := 0, fb0 := s.xFb t,
                             turn := none } }
  | _ => s

/-- A granted request and the result word of the arbiter. -/
def State.request (s : State) (act t : Nat) (r : Requester) : Word × Bool × State :=
  let c := s.claim act t r
  (c.1, c.2.1.isSome, if c.2.1.isSome then c.2.2.startAct act t else c.2.2)

/-- What an aborted activity restores before its claims end (R42). An aborted ENC_CAL stops its axis at the next input
latch, with cause POWER where R43 aborts it and HOST otherwise; the detail 256 marks the stop as immediate (R140). -/
def State.undoAct (s : State) (act t : Nat) (power : Bool) : State :=
  match act with
  | 1 => s.endPrbs t
  | 2 => s.endSelfTest t
  | 6 => if s.cfg.port.isSome ∧ s.get F.CFG_STATUS_PART_AXIS = t then s.abortSession else s
  | 9 => s.endOffCal t
  | 10 => (s.modAx t fun a => { a with cal := none }).cause t (if power then 5 else 1) 256
  | _ => s

/-- Abort the activity in slot `i` (R42, R43). -/
def State.abortSlot (s : State) (i : Nat) (power : Bool) : State :=
  if s.slotBusy i then (((s.undoAct (s.slotAct i) (s.slotTarget i) power).endSlot i true).pmcShow) else s

/-- Abort every activity (R43). -/
def State.abortAll (s : State) (power : Bool) : State :=
  (List.range 16).foldl (fun s i => s.abortSlot i power) s

/-- A write of FRM_MAINT_REQ (R35, R40). -/
def maintRequest (p : Path) (w : Word) (s : State) : State :=
  let r := s.request (bitsOf w 0 8) (bitsOf w 8 8) (requesterOf p s)
  r.2.2.keepResult p r.1

/-- A write of FRM_MAINT_ABORT (R42). -/
def maintAbort (w : Word) (s : State) : State := s.abortSlot (bitsOf w 0 4) false

/-- The time bound of an activity in core cycles (Table 1.7, R76). -/
def State.actBound (s : State) (act : Nat) : Nat :=
  400000 * (match act with
    | 1 => 3600000
    | 2 => 5
    | 3 => 2
    | 4 => 3
    | 5 => 1200000
    | 6 => 1000 * s.get F.CFG_SWAP_TIMEOUT_SECONDS + 10000
    | 7 => 60000
    | 8 => 50
    | 9 => 10
    | _ => 30000)

/-- The activity in slot `i` exceeds its bound: the arbiter logs it and aborts it (R42). -/
def maintTimeout (i : Nat) (s : State) : State :=
  if s.slotBusy i ∧ s.dueBy (s.frm.slotStart.toList.getD i 0 + s.actBound (s.slotAct i)) then
    (s.logEntry 3 0 0 (BitVec.ofNat 32 (s.slotAct i + i * 256))).abortSlot i false
  else s

/-- The activity code of a scheduled start. -/
def schedCode (a : SchedAct) : Nat :=
  match a with
  | .refXcheck => 4
  | .mramScrub => 5
  | .replicaRefresh => 7
  | .choldMeasure => 8

/-- The scheduler asks (R41): a refused activity is skipped and counted, but for MRAM_SCRUB, which tries again. Without
the replica feature no refresh is scheduled (R381). -/
def scheduledStart (a : SchedAct) (s : State) : State :=
  if a = .replicaRefresh ∧ !s.replicaOn then s
  else
    let r := s.request (schedCode a) 0 reqDevice
    if r.2.1 ∨ a = .mramScrub then r.2.2 else r.2.2.bump F.FRM_MAINT_SKIP_CNT_COUNT 1

/-- The start-up CHOLD_MEASURE (R43, R396). -/
def State.startupMeasure (s : State) : State :=
  if s.frm.claimStart ∧ !s.runsAny 8 ∧ !s.powerFail then (s.request 8 0 reqDevice).2.2 else s

/-! ## The rows -/

/-- MAINT_REQUEST: a write of FRM_MAINT_REQ. -/
def execMaintRequest (p : Path) (w : Word) (s : State) : Host.Outcome State Fault Refusal := liveNA s (maintRequest p w)

/-- MAINT_ABORT: a write of FRM_MAINT_ABORT. -/
def execMaintAbort (_p : Path) (w : Word) (s : State) : Host.Outcome State Fault Refusal := liveNA s (maintAbort w)

/-- MAINT_TIMEOUT. -/
def execMaintTimeout (slot : Fin 16) (s : State) : Host.Outcome State Fault Refusal := liveNA s (maintTimeout slot.val)

/-- SCHEDULED_MAINT_START. -/
def execScheduledMaintStart (a : SchedAct) (s : State) : Host.Outcome State Fault Refusal := liveNA s (scheduledStart a)

end Sys2Proof.Machine
end

