-- ==== Sys2Proof/Machine/AxisCmd.lean ====
section
/-!
DEFINITION. The axis commands as an input latch takes them (R89 to R106, R442): ARM and DISARM with what every block does
at them, the motion commands, and the inputs of chapter 3.
-/
namespace Sys2Proof.Machine

/-- The supplies allow arming (R397). -/
def State.supplyGood (s : State) : Bool :=
  decide (s.get F.SUP_STATUS_STATE = 2) && s.flag F.SUP_STATUS_VM_GOOD && !s.flag F.SUP_STATUS_VM_OV &&
    s.flag F.SUP_STATUS_VDRV_OK && !s.flag F.SUP_STATUS_TSD

/-- Does a record condition hold axis `n` back: its safety record diverged, restored or lost, or an unconsumed store (R367,
R374)? -/
def State.recordHeld (s : State) (n : Nat) : Bool :=
  s.flag (divFld (8 + n)) || s.flag (lostFld (8 + n)) || s.flag F.NVS_STATUS_PLS_PENDING

/-- The first condition of R94 that fails, as a MOTn_RESULT code; 0 when ARM is accepted. -/
def State.armCode (s : State) (n : Nat) : Nat :=
  if !s.configured n then 9
  else if !s.flag F.GDR_STATUS_DRV_EN then 6
  else if !s.supplyGood then 0xA
  else if s.latched n || s.flag F.FRM_STATUS_OVR_FAULT || s.flag (F.MOTn_STATUS_FAULT_LATCH n) then 5
  else if s.recordHeld n then 7
  else if (s.armBlocker n).isSome then 8
  else 0

/-- Each enabled limit whose input is active latches at ARM (R94). -/
def State.armLimits (s : State) (n : Nat) : State :=
  let s1 := if s.flag (F.MOTn_LIMIT_CFG_P_EN n) ∧ s.flag (F.MOTn_STATUS_LIM_P_IN n) then
      s.put (F.MOTn_STATUS_LIM_P_LATCH n) 1 else s
  if s1.flag (F.MOTn_LIMIT_CFG_N_EN n) ∧ s1.flag (F.MOTn_STATUS_LIM_N_IN n) then s1.put (F.MOTn_STATUS_LIM_N_LATCH n) 1
  else s1

/-- What an accepted ARM ends for its four bridges and comparators: forces (R170), test switches (R308), the drive of the
test mode (R425). -/
def State.armGroup (s : State) (n : Nat) : State :=
  let s1 := (List.range 4).foldl (fun s j =>
    (s.put (F.PWMk_FORCE_LEVEL (4 * n + j)) 0).put (F.CMPc_CFG_TEST (4 * n + j)) 0) s
  s1.put ⟨F.TEST_CTRL_AXES.addr, F.TEST_CTRL_AXES.lo + n, 1⟩ 0

/-- ARM (R94): an accepted one sets TARGET to x and leaves x. A refusal by the arbiter is logged as one of activity 0 on
target n (R37). -/
def armCmd (p : Path) (n : Nat) (s : State) : State :=
  if s.armed n then s.motResult n 1 0
  else
    let code := s.armCode n
    if code = 0 then
      let s1 := s.modAx n fun a =>
        { a with armed := true, kin := { a.kin with v := 0, decel := false, seg := 0 }, xOut := a.kin.x, run := false,
                 still := false, stopOpen := false, ramping := false, imm := false, softAim := none, causes := [],
                 bridgeOff := false }
      ((((s1.setTarget n (s.pos n)).armLimits n).curArm n).armGroup n).motResult n 1 0
    else
      (if code = 8 then s.maintRefused 1 0 n ((s.armBlocker n).getD 0xFF) (requesterOf p s).source else s).motResult n 1
        code

/-- A running ENC_CAL of the axis ends as aborted: the axis leaves its run by a stop or a disarm (R42). -/
def State.endCal (s : State) (n : Nat) : State :=
  if (s.ax n).cal.isSome then
    let s1 := s.modAx n fun a => { a with cal := none }
    match s1.findAct 10 n with
    | some i => s1.endSlot i true
    | none => s1
  else s

/-- DISARM (R95, R152): a moving axis stops first, with cause HOST. -/
def disarmCmd (n : Nat) (s : State) : State :=
  if !s.armed n then s.motResult n 2 0
  else
    let a := s.ax n
    let fast := decide (s.spd (R.MOTn_VSTOP n) < a.kin.v)
    let s0 := s.endCal n
    let s1 := if a.kin.v ≠ 0 ∨ a.home.isSome then s0.disarmStop n 1 0 fast else s0
    (((s1.disarmMotion n).curDisarm n (s.disarmCoil n)).autoSave n).motResult n 2 0

/-- A command code of MOTn_CMD as the latch takes it. -/
def axisCommand (p : Path) (n code : Nat) (s : State) : State :=
  match code with
  | 1 => armCmd p n s
  | 2 => disarmCmd n s
  | 3 => stopCmd p n s
  | 4 => startCmd n (s.masterRouted n) s
  | 5 => homeCmd n s
  | 6 => clearLimit n s
  | 7 => clearFault n s
  | 8 => clearUncertain n s
  | _ => s

/-! ## The rows -/

/-- ARM. -/
def execArm (p : Path) (n : AxisIx) (s : State) : Host.Outcome State Fault Refusal := liveA s (armCmd p n.val)

/-- DISARM. -/
def execDisarm (_p : Path) (n : AxisIx) (s : State) : Host.Outcome State Fault Refusal := liveA s (disarmCmd n.val)

/-- STOP. -/
def execStop (p : Path) (n : AxisIx) (s : State) : Host.Outcome State Fault Refusal := live s (stopCmd p n.val)

/-- START. -/
def execStart (_p : Path) (n : AxisIx) (s : State) : Host.Outcome State Fault Refusal :=
  live s fun s => startCmd n.val (s.masterRouted n.val) s

/-- HOME. -/
def execHome (_p : Path) (n : AxisIx) (s : State) : Host.Outcome State Fault Refusal := live s (homeCmd n.val)

/-- CLEAR_LIMIT. -/
def execClearLimit (_p : Path) (n : AxisIx) (s : State) : Host.Outcome State Fault Refusal := live s (clearLimit n.val)

/-- CLEAR_FAULT. -/
def execClearFault (_p : Path) (n : AxisIx) (s : State) : Host.Outcome State Fault Refusal := live s (clearFault n.val)

/-- CLEAR_UNCERTAIN. -/
def execClearUncertain (_p : Path) (n : AxisIx) (s : State) : Host.Outcome State Fault Refusal :=
  live s (clearUncertain n.val)

/-- TARGET_WRITE. -/
def execTargetWrite (_p : Path) (n : AxisIx) (v : BitVec 48) (s : State) : Host.Outcome State Fault Refusal :=
  live s (targetWrite n.val v.toInt)

/-- VTARGET_WRITE. -/
def execVtargetWrite (_p : Path) (n : AxisIx) (v : BitVec 40) (s : State) : Host.Outcome State Fault Refusal :=
  live s (vtargetWrite n.val v.toInt)

/-- POS_WRITE. -/
def execPosWrite (_p : Path) (n : AxisIx) (v : BitVec 48) (s : State) : Host.Outcome State Fault Refusal :=
  live s fun s => (posFull n.val v.toInt s).2

/-- MODE_WRITE: the judgement of its port and of the latch. -/
def execModeWrite (_p : Path) (n : AxisIx) (w : Word) (s : State) : Host.Outcome State Fault Refusal :=
  live s fun s => (modeWrite n.val w s).2

/-- STEP_EDGE: a STEP edge with the level of DIR. -/
def execStepEdge (n : AxisIx) (rising dirHigh : Bool) (s : State) : Host.Outcome State Fault Refusal :=
  liveIn s (stepEdge n.val rising dirHigh)

/-- LIMIT_DEBOUNCED: the debounced level of an input changes at core cycle `cyc` of the frame; with DEBOUNCE = 0 the first
sample of a new level is taken then. -/
def execLimitDebounced (n : AxisIx) (inp : LimitInput) (level : Bool) (cyc : Nat) (s : State) :
    Host.Outcome State Fault Refusal :=
  liveIn s fun s => limitDebounced n.val inp level cyc (s.at cyc)

end Sys2Proof.Machine
end

