-- ==== Sys2Proof/Machine/Access.lean ====
section
/-!
DEFINITION. The write of a register by the access types of its fields (R10 to R12, R439).
-/
namespace Sys2Proof.Machine

/-- Is the owner of the register at offset `a` not disarmed: its axis, or any axis for a device-wide register (Table 0.8)? -/
def State.ownerArmed (s : State) (a : Nat) : Bool :=
  if ownerOf a = 8 then s.anyArmed else s.armed (ownerOf a)

/-- Would the word change an RWL field whose owner is not disarmed (R12, R439)? A REG entry of an image is not held back. -/
def State.rwlRefused (s : State) (p : Path) (a : Nat) (w : Word) : Bool :=
  match findRow a with
  | some r =>
    decide (p ≠ .image) && s.ownerArmed a && decide ((w ^^^ s.rd a) &&& BitVec.ofNat 32 r.rwl ≠ 0)
  | none => false

/-- The word a register takes from a write, by its access types: RW and RWL bits take it, W1C bits clear, W1S bits set. -/
def RegRow.written (r : RegRow) (old w : Word) : Word :=
  let m1 := mergeMask old w (r.rw ||| r.rwl)
  (m1 &&& ~~~ (w &&& BitVec.ofNat 32 r.w1c)) ||| (w &&& BitVec.ofNat 32 r.w1s)

/-- A write judged by R10 to R12 and R439 alone: whether it is accepted, and the state after it. -/
def plainWrite (p : Path) (a : Nat) (w : Word) (s : State) : Bool × State :=
  match findRow a with
  | none => (true, s)
  | some r =>
    if !codesOk a w || s.rwlRefused p a w then (false, s)
    else (true, s.wr a (r.written (s.rd a) w))

end Sys2Proof.Machine
end

