-- ==== Sys2Proof/Machine/Gdr.lean ====
section
/-!
DEFINITION. Gate drivers and power-stage protection (chapter 7): turn-on and handshake (R184 to R186), bootstrap
undervoltage (R188), VDS monitors (R190, R191), DRV_EN and FAULT_N (R193, R194), trips (R192) and the release of a guard
short (R198).
-/
namespace Sys2Proof.Machine

/-- A demand edge of channel `k` at step `t` of its period (R163, R164). -/
def demandEdge (k t : Nat) (s : State) : State :=
  if s.chanState k = 4 then
    let h := inside (s.runHigh k) t
    s.modBr k fun b => { b with h := h, l := !h }
  else s

/-- The minimum dead time before a turn-on, in units of 5 ns (R184). -/
def State.deadUnits (s : State) (k : Nat) (high : Bool) : Nat :=
  4 * s.get (if high then F.GDRk_CFG_DEAD_H k else F.GDRk_CFG_DEAD_L k)

/-- The FET that waits turns on, `dt` units of 5 ns after the complementary turn-off command (R184, R186). -/
def gateTurnOn (k dt : Nat) (s : State) : State :=
  let b := s.br k
  match b.wait with
  | some true =>
    if b.lsLow ∧ !b.lsOn ∧ s.deadUnits k true ≤ dt then
      (s.modBr k fun b => { b with hsOn := true, hsLow := false, wait := none }).put (F.GDRk_STATUS_DT_H k) (satU 8 dt)
    else s
  | some false =>
    if b.hsLow ∧ !b.hsOn ∧ s.deadUnits k false ≤ dt then
      (s.modBr k fun b => { b with lsOn := true, lsLow := false, wait := none }).put (F.GDRk_STATUS_DT_L k) (satU 8 dt)
    else s
  | none => s

/-- The gate of a FET commanded off falls below 1.5 V (R183). -/
def gateOffReached (k : Nat) (high : Bool) (s : State) : State :=
  s.modBr k fun b =>
    if high then (if b.hsOn then b else { b with hsLow := true }) else if b.lsOn then b else { b with lsLow := true }

/-- HS_TIMEOUT has passed with the complementary gate above 1.5 V (R185). -/
def handshakeTimeout (k : Nat) (s : State) : State :=
  let b := s.br k
  let late := match b.wait with
    | some true => !b.lsLow
    | some false => !b.hsLow
    | none => false
  if late then
    (((s.modBr k fun b => { b with wait := none }).put ⟨R.GDR_HS_FAIL, k, 1⟩ 1)).raise (evGdr (16 + k / 4) (k / 4 + 1))
  else s

/-- The bootstrap monitor of bridge `k` is active at or after a high-side turn-on (R188). -/
def bstUvEvent (k : Nat) (s : State) : State :=
  let s0 := s.put (F.GDRk_STATUS_BST_UV k) 1
  let b := s.br k
  if b.h ∧ !b.uv then
    let run := if b.uvSeen then b.uvRun else b.uvRun + 1
    let s1 := (s0.modBr k fun b => { b with uv := true, uvSeen := true, uvRun := run }).bump
      (F.GDRk_STATUS_BST_UV_CNT k) 1
    if 8 ≤ run then (s1.put ⟨R.GDR_BST_UV, k, 1⟩ 1).raise (evGdr (8 + k / 4) (k / 4 + 1)) else s1
  else s0

/-- A monitor of bridge `k` asserts (R190, R191); on a low side of a guard axis it releases a latched short (R198). -/
def vdsTrip (k : Nat) (high : Bool) (s : State) : State :=
  let n := k / 4
  let b := s.br k
  let ok := if high then b.hsOn && !s.sinkLevel (0x240 + 2 * k) && decide (s.get (F.GDRk_VDS_TH_H k) ≠ 0)
    else b.lsOn && !s.sinkLevel (0x241 + 2 * k) && decide (s.get (F.GDRk_VDS_TH_L k) ≠ 0)
  if !ok then s
  else
    let s1 := if high then (s.put (F.GDRk_STATUS_VDS_H k) 1).put ⟨R.GDR_VDS_H, k, 1⟩ 1
      else (s.put (F.GDRk_STATUS_VDS_L k) 1).put ⟨R.GDR_VDS_L, k, 1⟩ 1
    let s2 := s1.raise (evGdr (24 + n) (n + 1))
    if !high ∧ s.shortLatched n then s2.guardRelease n (F.GDR_GUARDn_VDS_RELEASED n) else s2

/-- A monitor of a low side that holds a short asserts while the control die is in reset: the guard domain releases the
short (R198). -/
def vdsTripHeld (k : Nat) (high : Bool) (s : State) : State :=
  if !high ∧ s.shortLatched (k / 4) ∧ (s.br k).lsOn ∧ s.get (F.GDRk_VDS_TH_L k) ≠ 0 then
    s.put (F.CURn_GUARD_SHORT_LATCHED (k / 4)) 0
  else s

/-- A monitor releases or becomes unqualified (R190). -/
def vdsRelease (k : Nat) (high : Bool) (s : State) : State :=
  s.put (if high then F.GDRk_STATUS_VDS_H k else F.GDRk_STATUS_VDS_L k) 0

/-- The filtered DRV_EN falls (R193, R198). -/
def drvEnLow (s : State) : State :=
  if !s.flag F.GDR_STATUS_DRV_EN then s
  else
    let s1 := (s.put F.GDR_STATUS_DRV_EN 0).raise (evGdr 1 0xA1)
    let s2 := axesAll.foldl (fun s n => s.modAx n.val fun a => { a with bridgeOff := a.bridgeOff || a.armed }) s1
    (List.range 2).foldl (fun s n =>
      if s.shortLatched n ∧ s.drvenRel n then
        s.guardRelease n (F.GDR_GUARDn_DRVEN_RELEASED n)
      else s) s2

/-- The filtered DRV_EN falls while the control die is in reset: the level, and the release in the guard domain. -/
def drvEnLowHeld (s : State) : State :=
  (List.range 2).foldl (fun s n =>
    if s.drvenRel n then s.put (F.CURn_GUARD_SHORT_LATCHED n) 0 else s)
    (s.put F.GDR_STATUS_DRV_EN 0)

/-- The filtered DRV_EN rises (R193). -/
def drvEnHigh (s : State) : State :=
  if s.flag F.GDR_STATUS_DRV_EN then s else (s.put F.GDR_STATUS_DRV_EN 1).raise (evGdr 2 0xA1)

/-- The filtered FAULT_N falls (R194). -/
def faultNLow (s : State) : State :=
  if s.flag F.GDR_STATUS_FAULT_N then (s.put F.GDR_STATUS_FAULT_N 0).raise (evGdr 3 0xA0) else s

/-- A write of 1 to bits of GDR_BST_UV (R192): the monitor must have released. -/
def bstUvClear (w : Word) (s : State) : State :=
  (List.range 32).foldl (fun s k =>
    if w.getLsbD k ∧ !s.flag (F.GDRk_STATUS_BST_UV k) then s.put ⟨R.GDR_BST_UV, k, 1⟩ 0 else s) s

/-- A write of 1 to bits of GDR_HS_FAIL (R192): every gate of the bridge that is commanded off must be below 1.5 V. -/
def hsFailClear (w : Word) (s : State) : State :=
  (List.range 32).foldl (fun s k =>
    let b := s.br k
    if w.getLsbD k ∧ (b.hsOn ∨ b.hsLow) ∧ (b.lsOn ∨ b.lsLow) then s.put ⟨R.GDR_HS_FAIL, k, 1⟩ 0 else s) s

/-- A write of 1 to GDR_STATUS.VDRV_TRIP (R192): VDRV must be good. -/
def vdrvTripClear (w : Word) (s : State) : State :=
  if w.getLsbD 1 ∧ s.flag F.GDR_STATUS_VDRV_OK then s.put F.GDR_STATUS_VDRV_TRIP 0 else s

/-- VDRV falls below its undervoltage threshold: the trip of all groups (R192). -/
def State.vdrvTrip (s : State) : State := (s.put F.GDR_STATUS_VDRV_TRIP 1).raise (evGdr 0 0)

/-! ## The rows -/

/-- DEMAND_EDGE of channel `k` at step `t` of its period. -/
def execDemandEdge (k : BridgeIx) (t : Nat) (s : State) : Host.Outcome State Fault Refusal := liveA s (demandEdge k.val t)

/-- GATE_TURN_ON: also for a guard low side while the control die is in reset (R196). -/
def execGateTurnOn (k : BridgeIx) (dt : Nat) (s : State) : Host.Outcome State Fault Refusal :=
  alwaysA s (gateTurnOn k.val dt) (gateTurnOn k.val dt)

/-- GATE_OFF_REACHED of the high or the low side. -/
def execGateOffReached (k : BridgeIx) (high : Bool) (s : State) : Host.Outcome State Fault Refusal :=
  always s (gateOffReached k.val high)

/-- HANDSHAKE_TIMEOUT. -/
def execHandshakeTimeout (k : BridgeIx) (s : State) : Host.Outcome State Fault Refusal := liveA s (handshakeTimeout k.val)

/-- BST_UV_EVENT. -/
def execBstUvEvent (k : BridgeIx) (s : State) : Host.Outcome State Fault Refusal := liveA s (bstUvEvent k.val)

/-- BST_UV_RELEASE. -/
def execBstUvRelease (k : BridgeIx) (s : State) : Host.Outcome State Fault Refusal :=
  live s fun s => s.put (F.GDRk_STATUS_BST_UV k.val) 0

/-- VDS_TRIP of the high or the low side; in reset only the guard domain acts on it. -/
def execVdsTrip (k : BridgeIx) (high : Bool) (s : State) : Host.Outcome State Fault Refusal :=
  alwaysA s (vdsTripHeld k.val high) (vdsTrip k.val high)

/-- VDS_RELEASE of the high or the low side. -/
def execVdsRelease (k : BridgeIx) (high : Bool) (s : State) : Host.Outcome State Fault Refusal :=
  liveA s (vdsRelease k.val high)

/-- DRV_EN_LOW: in reset only the level changes and a short may be released. -/
def execDrvEnLow (s : State) : Host.Outcome State Fault Refusal :=
  alwaysA s drvEnLowHeld drvEnLow

/-- DRV_EN_HIGH: in reset only the level changes. -/
def execDrvEnHigh (s : State) : Host.Outcome State Fault Refusal :=
  alwaysA s (fun s => s.put F.GDR_STATUS_DRV_EN 1) drvEnHigh

/-- FAULT_N_LOW: in reset only the level changes. -/
def execFaultNLow (s : State) : Host.Outcome State Fault Refusal :=
  alwaysA s (fun s => s.put F.GDR_STATUS_FAULT_N 0) faultNLow

/-- FAULT_N_HIGH: no event; the level source deasserts. -/
def execFaultNHigh (s : State) : Host.Outcome State Fault Refusal :=
  alwaysA s (fun s => s.put F.GDR_STATUS_FAULT_N 1) (fun s => s.put F.GDR_STATUS_FAULT_N 1)

/-- GDR_TRIP_CLEAR: a write of GDR_BST_UV (0), GDR_HS_FAIL (1) or GDR_STATUS (2). -/
def execGdrTripClear (_p : Path) (reg : Fin 3) (w : Word) (s : State) : Host.Outcome State Fault Refusal :=
  liveA s fun s =>
    if reg = 0 then bstUvClear w s else if reg = 1 then hsFailClear w s else vdrvTripClear w s

end Sys2Proof.Machine
end

