-- ==== Sys2Proof/Machine/Sup.lean ====
section
/-!
DEFINITION. Supervision (chapter 16): the resets of the control die and what outlives them (R391 to R394), the supply and
thermal monitors (R387 to R390), power loss and shedding (R398 to R401), the guard domain (R403), the calendar in the
backup domain (R404 to R409).
-/
namespace Sys2Proof.Machine

/-! ## What a reset of the control die leaves (R391) -/

/-- A commit that a reset interrupts: a free number of its three copies is complete, and the next one is either untouched
or not intact (R360, R363). -/
def State.cutCommit (s : State) : State :=
  match s.nvs.running with
  | none => s
  | some c =>
    let (i, s1) := s.fresh
    let v := Config.interruptedBlock i
    let x := s1.commitCopy c
    let old := s1.copies c.id
    s1.setCopies c.id ((List.range 3).map fun j =>
      if j < v % 4 then some x
      else if j = v % 4 ∧ v / 4 % 2 = 1 then some { x with bad := true }
      else old.getD j none)

/-- The slot that a power-loss store is written to (R371). -/
def State.plsSlot (s : State) : Nat :=
  match s.plsLatest with
  | some (i, _) => 1 - i
  | none => 0

/-- A reset while the power-loss store is being written: `late` resets wait for it (R392); otherwise the slot is free to
hold its old store, none or the new one. -/
def State.cutStore (s : State) (late : Bool) : State :=
  match s.nvs.plsPhase, s.nvs.snapshot with
  | .writing, some x =>
    let (i, s1) := s.fresh
    let v := if late then 2 else Config.interruptedBlock i % 3
    let old := (s.nvs.pls.toList.getD s.plsSlot none)
    let y := if v = 0 then old else if v = 1 then none else some x
    { s1 with nvs := { s1.nvs with pls := s1.nvs.pls.setIfInBounds s.plsSlot y } }
  | _, _ => s

/-- The registers that a reset of the control die leaves: those of the backup and guard domains, of the MRAM and the
fuses, the monitors and the pins (R391, R410, R53, R46). -/
def State.keptRegs (s : State) (cause : Nat) : SMap Word :=
  let keep := fun (m : SMap Word) (p : Nat × Nat) => SMap.set resetWord m p.1 (mergeMask (resetWord p.1) (s.rd p.1) p.2)
  let m := ([(R.CFG_STATUS, 0xE), (R.CFG_KEY_STATUS, 0xFF80), (R.NVS_SPARE, 0xFFFFFFFF), (R.CAL_SEC_LO, 0xFFFFFFFF),
    (R.CAL_SEC_HI, 0xFFFF), (R.CAL_SUBSEC, 0xFFFFFFFF), (R.CAL_DATE, 0xFFFFFFFF), (R.CAL_TIME, 0xFFFFFFFF),
    (R.CAL_CFG, 0xFF), (R.CAL_STATUS, 0xF), (R.SUP_STATUS, 0x184), (R.GDR_STATUS, 0x1C), (R.CURn_GUARD 0, 0x8),
    (R.CURn_GUARD 1, 0x8), (R.DBG_STATUS, 0x10)] : List (Nat × Nat)).foldl keep []
  let m1 := SMap.set resetWord m R.CFG_STATUS
    (setBits (SMap.get resetWord m R.CFG_STATUS) 0 1 (s.get F.CFG_STATUS_BOOT_BANK))
  SMap.set resetWord m1 R.SUP_RST_CAUSE (BitVec.ofNat 32 cause)

/-- The gates in reset (Table 7.4): all off but the low sides that a latched short holds. -/
def State.resetGates (s : State) : Vector Bridge 32 :=
  Vector.ofFn fun (k : Fin 32) =>
    let short := decide (k.val < 8) && s.shortLatched (k.val / 4)
    let b := (s.br k.val).off true
    let b1 := if short then b else b.off false
    { restBridge with lsOn := b1.lsOn, lsLow := b1.lsLow, hsLow := b1.hsLow, wait := if short then b1.wait else none }

/-- The control die resets with a cause of Table 16.3 (R391): what the guard and backup domains, the MRAM and the fuses
hold stays, everything else takes its reset value, and the die is held until its release. `power`: the converters keep
running. -/
def State.controlReset (s : State) (cause : Nat) (power : Bool) : State :=
  let s1 := otpInterrupted ((s.cutStore (decide (4 ≤ cause ∧ cause ≤ 6))).cutCommit)
  let nvs := { resetNvs with
               recs := s1.nvs.recs, pls := s1.nvs.pls, mramRest := s1.nvs.mramRest, heldReps := s1.nvs.heldReps,
               repVersion := s1.nvs.repVersion }
  let log := { resetLog with
               area := s1.log.area, badSeqs := s1.log.badSeqs,
               seq := ((s1.log.area.getLast?.map fun e => e.seq + 1).getD 0) % 2 ^ 32 }
  let t :=
    { State.reset with
      pending := s1.pending, free := s1.free, held := true, now := s1.now + s1.sub, regs := s1.keptRegs cause,
      cfg := { resetCfg with banks := s1.cfg.banks, keys := s1.cfg.keys },
      log := log, nvs := nvs, backup := s1.backup, guard := s1.guard,
      sup := { State.reset.sup with power := power }, balls := s1.balls, bridges := s1.resetGates }
  t.logShow.plsShow

/-- The release of the control die (R391, R395): the RESET entry is logged. -/
def resetRelease (s : State) : State :=
  if s.held ∧ s.sup.power then
    ({ s with held := false }).logEntry 5 0 0 (BitVec.ofNat 32 (s.get F.SUP_RST_CAUSE_CAUSE))
  else s

/-- Without main power and without its crystal the calendar stops, and its time is not valid (R408). -/
def State.calStops (s : State) : State :=
  if s.backup.stopped ∧ !s.sup.power then (s.put F.CAL_STATUS_TIME_VALID 0).put F.CAL_STATUS_SRC 0 else s

/-- A reset by the falling supply after VM_FAIL (R153): where the copy of PF_SHORT is set, the guard domain enters SHORT by
itself, unless DRV_EN low prevents it (R198) or the domain is held in its reset (R403). -/
def State.resetShort (s : State) (n : Nat) : State :=
  if s.flag F.SUP_STATUS_VM_FAIL ∧ s.guard.pfShort.testBit n ∧ s.flag F.GDR_STATUS_VGRD_OK ∧
      !(!s.flag F.GDR_STATUS_DRV_EN ∧ s.drvenRel n) then
    s.put (F.CURn_GUARD_SHORT_LATCHED n) 1
  else s

/-- A rail falls below its threshold (Table 16.3): the converters stop, too. -/
def supplyReset (s : State) : State :=
  if s.sup.power then (((s.resetShort 0).resetShort 1).controlReset 2 false).calStops else s

/-- VSUP passes UVLO (R395); a shed device waits for its restart (R401). -/
def powerUp (s : State) : State :=
  if !s.sup.power ∧ s.guard.shed = none then
    let s1 := { s with sup := { s.sup with power := true } }
    s1.putB F.CAL_STATUS_SRC s1.backup.stopped
  else s

/-- The watchdog timeout has passed since the start or the last kick (R393). -/
def watchdogExpire (s : State) : State :=
  if s.flag F.SUP_WDT_CFG_EN ∧ s.dueBy (s.sup.wdtAt + s.get F.SUP_WDT_CFG_TIMEOUT * 400000) then s.controlReset 5 true
  else s

/-- A write of SUP_RST_CMD (R394). -/
def rstCmd (w : Word) (s : State) : Bool × State :=
  if bitsOf w 24 8 = 0x96 ∧ bitsOf w 0 8 = 1 ∧ !s.anyArmed then (true, s.controlReset 6 true) else (false, s)

/-- A write of SUP_WDT_CFG (R393). -/
def wdtCfgWrite (w : Word) (s : State) : Bool × State :=
  let t := bitsOf w 0 16
  if s.flag F.SUP_WDT_CFG_EN then (decide (t = s.get F.SUP_WDT_CFG_TIMEOUT), s)
  else if t = 0 then (false, s)
  else
    let s1 := (s.put F.SUP_WDT_CFG_TIMEOUT t).put F.SUP_WDT_CFG_EN (bitsOf w 31 1)
    (true, { s1 with sup := { s1.sup with wdtAt := s1.time } })

/-- A write of SUP_WDT_KICK (R393). -/
def wdtKick (w : Word) (s : State) : Bool × State :=
  if w = 0x5AC3 then (true, { s with sup := { s.sup with wdtAt := s.time } }) else (false, s)

/-! ## The motor bus -/

/-- The hysteresis of a SUP_VM_CFG word in mV. -/
def vmHyst (w : Word) : Nat := 250 * 2 ^ bitsOf w 16 2

/-- A write of SUP_VM_CFG (R387): FAIL may not be changed to a value above the present frame mean less HYST. -/
def vmCfgWrite (p : Path) (w : Word) (s : State) : Bool × State :=
  let f := bitsOf w 0 9
  if f ≠ s.get F.SUP_VM_CFG_FAIL ∧ s.get F.SUP_VM_VM_NOW < 100 * f + vmHyst w then (false, s)
  else plainWrite p R.SUP_VM_CFG w s

/-- Start-up has reached a state of SUP_STATUS.STATE; a power failure hides it (R400). -/
def State.reach (s : State) (v : Nat) : State :=
  let s1 := { s with sup := { s.sup with reached := v } }
  if s1.get F.SUP_STATUS_STATE ≤ 2 then s1.put F.SUP_STATUS_STATE v else s1

/-- The record manager drops what has not started, and reports the host's dropped commit with NV_POWER_FAIL (R398). -/
def State.dropCommits (s : State) : State :=
  let host := s.nvs.queue.any (·.host)
  let s1 := ({ s with nvs := { s.nvs with queue := [], retry := [] } }).nvsShow
  if host then s1.nvResult 2 9 else s1

/-- TABLE_WRITE ends: table memory is to be rewritten before the sequencer runs again (R426). -/
def State.endTableWrite (s : State) : State :=
  if s.get F.TEST_CTRL_MODE = 1 then (s.put F.TEST_CTRL_MODE 0).put F.DBG_STATUS_TABLE_RELOAD 1 else s

/-- A debug halt ends at the first frame start from `delay` core cycles on (R420). -/
def State.endHalt (s : State) (delay : Nat) : State :=
  if s.dbg.halt then ({ s with dbg := { s.dbg with resumeAt := some (s.time + delay) } }).endTableWrite else s

/-- VM has stayed below FAIL for 1 µs (R387, R398). It ends a debug halt at once (R420). While STATE = BOOT no store is taken. -/
def vmFail (s : State) : State :=
  if !s.flag F.SUP_STATUS_VM_GOOD then s
  else
    let boot := decide (s.get F.SUP_STATUS_STATE = 0)
    let s1 := ((s.put F.SUP_STATUS_VM_GOOD 0).put F.SUP_STATUS_VM_FAIL 1).put F.SUP_STATUS_STATE 3
    let s2 := if boot then { s1 with nvs := { s1.nvs with plsPhase := .done } } else s1
    ((((s2.raise (evSup 0)).abortAll true).dropCommits).endHalt 0)

/-- VM has stayed above FAIL + HYST for 10 ms (R387, R400). -/
def vmGood (s : State) : State :=
  if s.flag F.SUP_STATUS_VM_GOOD then s
  else
    let s1 := (s.put F.SUP_STATUS_VM_GOOD 1).put F.SUP_STATUS_VM_FAIL 0
    let s2 := if 3 ≤ s1.get F.SUP_STATUS_STATE then s1.put F.SUP_STATUS_STATE s1.sup.reached else s1
    let s3 := if s2.nvs.plsPhase = .armed ∨ s2.nvs.plsPhase = .done then
      { s2 with nvs := { s2.nvs with plsPhase := .idle } } else s2
    s3.raise (evSup 1)

/-- A monitor level changes: its bit, and its event where it comes to hold on a running device. -/
def State.monitor (s : State) (f : Fld) (v : Bool) (ev : Nat) : State :=
  let s1 := s.putB f v
  if v ∧ !s.flag f ∧ !s.held then s1.raise (evSup ev) else s1

/-- Shedding begins (R401): every converter stops, and the guard domain latches FAIL + HYST. -/
def shed (s : State) : State :=
  if s.flag F.SUP_PF_CFG_SHED ∧ s.get F.SUP_STATUS_STATE = 4 ∧ !s.flag F.SUP_STATUS_VM_GOOD then
    let mv := 100 * s.get F.SUP_VM_CFG_FAIL + vmHyst (s.rd R.SUP_VM_CFG)
    let s1 := { s with guard := { s.guard with shed := some mv } }
    (((s1.resetShort 0).resetShort 1).controlReset 3 false).calStops
  else s

/-- VM has stayed above the latched level for 10 ms (R401). -/
def shedRestart (s : State) : State :=
  if s.guard.shed.isSome then powerUp { s with guard := { s.guard with shed := none } } else s

/-! ## VDRV and the temperatures -/

/-- VDRV_OK in both places that show it. -/
def State.setVdrv (s : State) (v : Bool) : State := (s.putB F.SUP_STATUS_VDRV_OK v).putB F.GDR_STATUS_VDRV_OK v

/-- VDRV_OK falls (R389): VDRV_FAIL, and the trip of R192. In reset nothing is reported. -/
def State.vdrvFall (s : State) : State :=
  if !s.flag F.SUP_STATUS_VDRV_OK then s
  else if s.held then s.setVdrv false
  else ((s.setVdrv false).raise (evSup 3)).vdrvTrip

/-- VDRV leaves its thresholds; above 14.5 V the converter also stops for 1 ms (Table 16.2). -/
def vdrvFail (high : Bool) (s : State) : State :=
  let s1 := s.vdrvFall
  if high then { s1 with sup := { s1.sup with ovStop := true } } else s1

/-- The soft-started converter brings VDRV past its rising threshold (R443): it must be enabled and running. -/
def vdrvReady (s : State) : State :=
  if s.flag F.SUP_VDRV_CFG_EN ∧ s.sup.power ∧ !s.flag F.SUP_STATUS_TSD ∧ !s.sup.ovStop then s.setVdrv true else s

/-- The overvoltage stop of 1 ms is over (Table 16.2, R443). -/
def vdrvRestart (s : State) : State := { s with sup := { s.sup with ovStop := false } }

/-- A write of SUP_VDRV_CFG (R385, R443): EN = 0 stops the converter. -/
def vdrvCfgWrite (p : Path) (w : Word) (s : State) : Bool × State :=
  let r := plainWrite p R.SUP_VDRV_CFG w s
  (r.1, if r.2.flag F.SUP_VDRV_CFG_EN then r.2 else r.2.vdrvFall)

/-- A die reaches 150 °C (R390). -/
def tsd (s : State) : State := (s.monitor F.SUP_STATUS_TSD true 6).vdrvFall

/-- The hold-up capacitor is charged (R396); the start-up measurement may start. -/
def huReady (s : State) : State := (s.monitor F.SUP_STATUS_HU_READY true 4).startupMeasure

/-! ## The guard domain -/

/-- VHOLD falls below the release threshold (R403): the latches and the copies clear. -/
def guardDomainReset (s : State) : State :=
  let s1 := (List.range 2).foldl (fun s n => if s.shortLatched n then s.guardEnd n else s) s
  { s1.put F.GDR_STATUS_VGRD_OK 0 with guard := { pfShort := 0, drvenRel := 0, shed := none } }

/-! ## The calendar -/

/-- Days of the year 2000 + `y`. -/
def yearDays (y : Nat) : Nat := if y % 4 = 0 ∧ (y % 100 ≠ 0 ∨ y % 400 = 0) then 366 else 365

/-- Days of month `m` (1 to 12) of the year 2000 + `y`. -/
def monthDays (y m : Nat) : Nat :=
  if m = 2 then yearDays y - 337 else if m = 4 ∨ m = 6 ∨ m = 9 ∨ m = 11 then 30 else 31

/-- The year and the day in it. -/
def findYear : Nat → Nat → Nat → Nat × Nat
  | 0, y, d => (y, d)
  | k + 1, y, d => if d < yearDays y then (y, d) else findYear k (y + 1) (d - yearDays y)

/-- The month and the day in it, from 0. -/
def findMonth : Nat → Nat → Nat → Nat → Nat × Nat
  | 0, _, m, d => (m, d)
  | k + 1, y, m, d => if d < monthDays y m then (m, d) else findMonth k y (m + 1) (d - monthDays y m)

/-- The word of CAL_DATE (R407). -/
def calDate (sec : Nat) : Nat :=
  if 6311433600 ≤ sec then 2 ^ 31
  else
    let days := sec / 86400
    let y := findYear 200 0 days
    let m := findMonth 12 y.1 1 y.2
    y.1 * 4096 + m.1 * 256 + (m.2 + 1) * 8 + ((days + 5) % 7 + 1)

/-- The word of CAL_TIME (R407). -/
def calClock (sec : Nat) : Nat :=
  if 6311433600 ≤ sec then 0 else sec / 3600 % 24 * 4096 + sec / 60 % 60 * 64 + sec % 60

/-- A read of CAL_SEC_LO latches the snapshot (R405). -/
def calSnapshot (s : State) : State :=
  let t := s.backup.sec
  ((((s.wr R.CAL_SEC_LO (BitVec.ofNat 32 t)).wr R.CAL_SEC_HI (BitVec.ofNat 32 (t / 2 ^ 32 % 65536))).wr R.CAL_SUBSEC
    (BitVec.ofNat 32 s.calTicks)).wr R.CAL_DATE (BitVec.ofNat 32 (calDate t))).wr R.CAL_TIME (BitVec.ofNat 32 (calClock t))

/-- Does the calendar follow network time now (R409)? -/
def State.calFollows (s : State) : Bool := s.flag F.CAL_CFG_NET_SYNC && s.locked

/-- A write of CAL_SET_LO (R406): the value is staged; refused while the calendar follows network time (R409). -/
def calSet (w : Word) (s : State) : Bool × State :=
  if s.calFollows then (false, s)
  else
    let s1 := (s.wr R.CAL_SET_LO w).put F.CAL_STATUS_PENDING 1
    let v := w.toNat + 2 ^ 32 * bitsOf (s.rd R.CAL_SET_HI) 0 16
    (true, { s1 with backup := { s1.backup with staged := some v, stagedAt := s1.time } })

/-- The seconds from a boundary on. -/
def State.newSecond (s : State) (v : Nat) : State :=
  { s with backup := { s.backup with sec := v % 2 ^ 48, secAt := s.time } }

/-- A second boundary (R404, R406, R409): network time, a staged value whose two ticks have passed, or the next second. -/
def calSecond (s : State) : State :=
  let b := s.backup
  if b.stopped ∧ !s.sup.power then s
  else if b.sync ∧ s.calFollows then
    let s1 := (s.newSecond ((s.net.timeH / 2 + 500000000) / 1000000000)).put F.CAL_STATUS_TIME_VALID 1
    ({ s1 with backup := { s1.backup with sync := false } }).raise (evSup 10)
  else
    match b.staged with
    | some v =>
      if s.held ∨ b.stagedAt + 24415 ≤ s.time then
        let s1 := ((s.newSecond v).put F.CAL_STATUS_PENDING 0).put F.CAL_STATUS_TIME_VALID 1
        let s2 := { s1 with backup := { s1.backup with staged := none } }
        if s.held then s2 else s2.raise (evSup 9)
      else s.newSecond (b.sec + 1)
    | none => s.newSecond (b.sec + 1)

/-- The comparison with network time (R409): more than 64 ticks apart, the next network second sets the calendar. -/
def calNetSync (s : State) : State :=
  let d : Int := (s.calTime : Int) - (s.netTime : Int)
  if s.calFollows ∧ 1953125 < d.natAbs then { s with backup := { s.backup with sync := true } } else s

/-- The crystal shows no edge for 2 ms (R408). -/
def oscStop (s : State) : State :=
  let s1 := ({ s with backup := { s.backup with stopped := true } }).put F.CAL_STATUS_OSC_STOP 1
  let s2 := if s1.sup.power then s1.put F.CAL_STATUS_SRC 1 else s1.calStops
  if s.held then s2 else s2.raise (evSup 8)

/-- 1,024 good cycles of the crystal (R408). -/
def oscResume (s : State) : State :=
  ({ s with backup := { s.backup with stopped := false } }).put F.CAL_STATUS_SRC 0

/-- A write of 1 to CAL_STATUS.OSC_STOP: no effect while the crystal stands still. -/
def calStatusClear (w : Word) (s : State) : State :=
  if w.getLsbD 0 ∧ !s.backup.stopped then s.put F.CAL_STATUS_OSC_STOP 0 else s

/-- Main power and VBAT are both lost (R404): the backup domain resets, and the next reset reports BACKUP_POR. -/
def backupPor (s : State) : State :=
  let s0 := if s.held then s else s.controlReset 1 false
  let s1 := s0.wr R.CAL_STATUS 0
  let s2 := (s1.put F.CAL_CFG_TRIM 0).put F.SUP_RST_CAUSE_CAUSE 1
  { s2 with
    sup := { s2.sup with power := false },
    backup := { sec := 0, secAt := s2.time, staged := none, stagedAt := 0, sync := false, stopped := s2.backup.stopped } }

/-! ## The rows -/

/-- POWER_UP. -/
def execPowerUp (s : State) : Host.Outcome State Fault Refusal := always s powerUp

/-- SUPPLY_RESET. -/
def execSupplyReset (s : State) : Host.Outcome State Fault Refusal := alwaysA s supplyReset supplyReset

/-- RST_N_RESET (R392). -/
def execRstNReset (s : State) : Host.Outcome State Fault Refusal := live s fun s => s.controlReset 4 true

/-- WATCHDOG_EXPIRE. -/
def execWatchdogExpire (s : State) : Host.Outcome State Fault Refusal := live s watchdogExpire

/-- SOFTWARE_RESET: a write of SUP_RST_CMD. -/
def execSoftwareReset (_p : Path) (w : Word) (s : State) : Host.Outcome State Fault Refusal := live s fun s => (rstCmd w s).2

/-- RESET_RELEASE. -/
def execResetRelease (s : State) : Host.Outcome State Fault Refusal :=
  always s fun s => State.settle s (resetRelease s)

/-- WATCHDOG_START: a write of SUP_WDT_CFG. -/
def execWatchdogStart (_p : Path) (w : Word) (s : State) : Host.Outcome State Fault Refusal :=
  live s fun s => (wdtCfgWrite w s).2

/-- WATCHDOG_KICK: a write of SUP_WDT_KICK. -/
def execWatchdogKick (_p : Path) (w : Word) (s : State) : Host.Outcome State Fault Refusal := live s fun s => (wdtKick w s).2

/-- VM_FAIL. -/
def execVmFail (s : State) : Host.Outcome State Fault Refusal := liveNA s vmFail

/-- VM_GOOD. -/
def execVmGood (s : State) : Host.Outcome State Fault Refusal := live s vmGood

/-- VM_OV: the level of the monitor, which also works in reset (R410). -/
def execVmOv (high : Bool) (s : State) : Host.Outcome State Fault Refusal :=
  always s fun s => s.monitor F.SUP_STATUS_VM_OV high 2

/-- VDRV_FAIL; `over`: above 14.5 V. -/
def execVdrvFail (high : Bool) (s : State) : Host.Outcome State Fault Refusal := alwaysA s (vdrvFail high) (vdrvFail high)

/-- VDRV_READY. -/
def execVdrvReady (s : State) : Host.Outcome State Fault Refusal := alwaysA s vdrvReady vdrvReady

/-- VDRV_OV_RESTART. -/
def execVdrvOvRestart (s : State) : Host.Outcome State Fault Refusal := always s vdrvRestart

/-- VDRV_EN_WRITE: a write of SUP_VDRV_CFG. -/
def execVdrvEnWrite (p : Path) (w : Word) (s : State) : Host.Outcome State Fault Refusal :=
  liveA s fun s => (vdrvCfgWrite p w s).2

/-- TSD. -/
def execTsd (s : State) : Host.Outcome State Fault Refusal := alwaysA s tsd tsd

/-- TSD_CLEAR: the converter restarts; VDRV_READY follows (R443). -/
def execTsdClear (s : State) : Host.Outcome State Fault Refusal :=
  always s fun s => s.put F.SUP_STATUS_TSD 0

/-- TEMP_WARN. -/
def execTempWarn (warn : Bool) (s : State) : Host.Outcome State Fault Refusal :=
  live s fun s => s.monitor F.SUP_STATUS_TEMP_WARN warn 5

/-- HU_READY. -/
def execHuReady (s : State) : Host.Outcome State Fault Refusal := live s huReady

/-- HU_READY_CLEAR. -/
def execHuReadyClear (s : State) : Host.Outcome State Fault Refusal := live s fun s => s.put F.SUP_STATUS_HU_READY 0

/-- CHOLD_START_TIMEOUT. -/
def execCholdStartTimeout (s : State) : Host.Outcome State Fault Refusal := live s fun s => s.startupMeasure

/-- SHED. -/
def execShed (s : State) : Host.Outcome State Fault Refusal := live s shed

/-- SHED_RESTART. -/
def execShedRestart (s : State) : Host.Outcome State Fault Refusal := always s shedRestart

/-- GUARD_DOMAIN_RESET. -/
def execGuardDomainReset (s : State) : Host.Outcome State Fault Refusal := alwaysA s guardDomainReset guardDomainReset

/-- VGRD_OK: VHOLD is above 5.5 V (R403). -/
def execVgrdOk (s : State) : Host.Outcome State Fault Refusal :=
  alwaysA s (fun s => s.put F.GDR_STATUS_VGRD_OK 1) (fun s => s.put F.GDR_STATUS_VGRD_OK 1)

/-- VBAT_LOW. -/
def execVbatLow (low : Bool) (s : State) : Host.Outcome State Fault Refusal :=
  always s fun s => s.monitor F.SUP_STATUS_VBAT_LOW low 7

/-- VIO_CHANGE: no event (R410). -/
def execVioChange (ok : Bool) (s : State) : Host.Outcome State Fault Refusal :=
  always s fun s => s.putB F.SUP_STATUS_VIO_OK ok

/-- BACKUP_POR. -/
def execBackupPor (s : State) : Host.Outcome State Fault Refusal := alwaysA s backupPor backupPor

/-- CAL_SECOND. -/
def execCalSecond (cyc : Nat) (s : State) : Host.Outcome State Fault Refusal := always s fun s => calSecond (s.at cyc)

/-- CAL_SET: a write of CAL_SET_LO. -/
def execCalSet (_p : Path) (w : Word) (s : State) : Host.Outcome State Fault Refusal := live s fun s => (calSet w s).2

/-- CAL_SNAPSHOT: a read of CAL_SEC_LO. -/
def execCalSnapshot (_p : Path) (s : State) : Host.Outcome State Fault Refusal := live s calSnapshot

/-- CAL_NET_SYNC. -/
def execCalNetSync (s : State) : Host.Outcome State Fault Refusal := live s calNetSync

/-- OSC_STOP. -/
def execOscStop (s : State) : Host.Outcome State Fault Refusal := always s oscStop

/-- OSC_RESUME. -/
def execOscResume (s : State) : Host.Outcome State Fault Refusal := always s oscResume

end Sys2Proof.Machine
end

