-- ==== Sys2Proof/Machine/Table.lean ====
section
/-!
DEFINITION. Table memory: the placed steps as the builder writes them, four to a row, one per lane (R61, Table 2.11). Word
`4 · (4 r + l) + j` is word `j` of the step of lane `l` in row `r`.
-/
namespace Sys2Proof.Machine

/-- The words of a step with the address of the first one. -/
def stepWords (a : Nat) (m : MStep) : List (Nat × Word) := [(a, m.g), (a + 1, m.e0), (a + 2, m.e1), (a + 3, m.e2)]

/-- The words of a task body from row `r` of lane `l`. -/
def bodyWords (l : Nat) : Nat → List MStep → List (Nat × Word)
  | _, [] => []
  | r, m :: b => stepWords (4 * (4 * r + l)) m ++ bodyWords l (r + 1) b

/-- Table memory for a configuration and its placement: the placed tasks stand in the order of the image's task list. -/
def tableOf (c : Config) (tasks : List Placed) : SMap Word :=
  SMap.setMany (fun _ => 0) []
    (((tasks.zip (c.parts.flatMap (·.tasks))).flatMap fun p => bodyWords p.1.lane p.1.row p.2.body).reverse)

/-- A word of table memory. -/
def State.tableWord (s : State) (a : Nat) : Word := SMap.get (fun _ => (0 : Word)) s.frm.table a

/-- Store a word of table memory. -/
def State.setTableWord (s : State) (a : Nat) (w : Word) : State :=
  { s with frm := { s.frm with table := SMap.set (fun _ => (0 : Word)) s.frm.table a w } }

/-- The step of lane `l` in row `r`. -/
def State.stepAt (s : State) (l r : Nat) : MStep :=
  let a := 4 * (4 * r + l)
  ⟨s.tableWord a, s.tableWord (a + 1), s.tableWord (a + 2), s.tableWord (a + 3)⟩

/-- Table memory is rewritten from the active bank and the placement reproduced (R426). -/
def State.reloadTable (s : State) : State :=
  { s with frm := { s.frm with table := tableOf s.cfg.run s.frm.tasks } }

end Sys2Proof.Machine
end

