-- ==== Sys2Proof/Machine/Dbg.lean ====
section
/-!
DEFINITION. Debug halt, test modes and the test access port (R420 to R426).
-/
namespace Sys2Proof.Machine

/-- Is the debug-lock fuse blown (R422)? -/
def State.dbgLocked (s : State) : Bool := s.flag F.DBG_STATUS_LOCKED

/-- Is the sequencer halted? -/
def State.halted (s : State) : Bool := s.flag F.DBG_STATUS_HALTED

/-- The test mode of TEST_CTRL. -/
def State.testMode (s : State) : Nat := s.get F.TEST_CTRL_MODE

/-! ## DBG_CTRL (R420, R421) -/

/-- HALT: the sequencer stops at the end of the current frame; with SAFE every channel goes to its safe level at once. -/
def State.haltCmd (s : State) (safe : Bool) : State :=
  let s1 := { s with dbg := { s.dbg with halt := true, resumeAt := none } }
  if safe then pwmFaultForce 0xFF s1 else s1

/-- A write of DBG_CTRL: its key, one command or HALT with SAFE, and the conditions of each command. A write without a
command bit does nothing. -/
def dbgCtrl (w : Word) (s : State) : Bool × State :=
  if bitsOf w 24 8 ≠ 0x3C then (false, s)
  else
    match bitsOf w 0 5 with
    | 0 => (true, s)
    | 1 => if s.dbgLocked then (false, s) else (true, s.haltCmd false)
    | 3 => if s.dbgLocked then (false, s) else (true, s.haltCmd true)
    | 4 => (true, s.endHalt 400)
    | 8 =>
      if s.dbgLocked ∨ !s.halted ∨ s.anyArmed then (false, s)
      else (true, { s with dbg := { s.dbg with step := true } })
    | 16 => if s.dbgLocked ∨ s.anyArmed then (false, s) else (true, s.controlReset 7 true)
    | _ => (false, s)

/-- A write of DBG_LOCK (R422). -/
def dbgLock (w : Word) (s : State) : Bool × State :=
  if bitsOf w 24 8 ≠ 0xA5 then (false, s)
  else if bitsOf w 0 1 = 0 then (true, s)
  else if s.anyArmed ∨ !s.flag F.SUP_STATUS_VM_GOOD then (false, s)
  else (true, s.put F.DBG_STATUS_LOCKED 1)

/-! ## TEST_CTRL (R425, R426) -/

/-- May the mode be entered with these axes (Table 17.4)? -/
def State.testEntry (s : State) (mode axes : Nat) : Bool :=
  match mode with
  | 1 => s.halted && s.allDisarmed
  | 2 => s.flag F.GDR_STATUS_DRV_EN && (List.range 8).all fun n => !axes.testBit n || (!s.armed n && !s.latched n)
  | 3 => s.allDisarmed
  | _ => true

/-- A write of TEST_CTRL: from NONE to a mode whose entry conditions hold, within a mode under the same conditions, or to
NONE. -/
def testCtrl (w : Word) (s : State) : Bool × State :=
  let m := bitsOf w 0 2
  let axes := bitsOf w 16 8
  if bitsOf w 24 8 ≠ 0xC3 then (false, s)
  else if m ≠ 0 ∧ (s.dbgLocked ∨ (s.testMode ≠ 0 ∧ s.testMode ≠ m) ∨ !s.testEntry m axes) then (false, s)
  else
    let s1 := if m = 0 then s.endTableWrite else s
    (true, (s1.put F.TEST_CTRL_MODE m).put F.TEST_CTRL_AXES axes)

/-- Table memory has been rewritten (R426). -/
def tableReloadDone (s : State) : State :=
  if s.flag F.DBG_STATUS_TABLE_RELOAD then (s.reloadTable).put F.DBG_STATUS_TABLE_RELOAD 0 else s

/-! ## The MRAM window (R425, Table 15.1) -/

/-- The 64 bits of a number. -/
def le64 (n : Nat) : List Byte := leBytes 8 (n % 2 ^ 64)

/-- A record copy as the MRAM holds it (Table 15.3). -/
def RecCopy.bytes (c : RecCopy) : List Byte :=
  let h := leBytes 2 0x4352 ++ leBytes 1 c.id ++ leBytes 1 (b2n c.restored) ++ leBytes 2 c.payload.length ++ leBytes 2 1 ++
    le64 c.gen ++ le64 c.time ++ leBytes 2 c.epoch ++ leBytes 2 0
  h ++ leBytes 4 (crc32 (h ++ c.payload)) ++ c.payload

/-- A power-loss store as the MRAM holds it (Table 15.5). -/
def PlsStore.bytes (x : PlsStore) : List Byte :=
  let h := leBytes 4 0x534C5050 ++ leBytes 4 x.seq ++ le64 x.time ++ leBytes 2 x.epoch ++ leBytes 2 x.node ++
    leBytes 4 x.frame ++ leBytes 1 x.trigger ++ List.replicate 39 0
  let b := padTo 3068 (h ++ x.axes.flatMap AxisBlock.bytes ++
    x.samples.flatMap fun p => leBytes 2 p.1 ++ leBytes 2 p.2)
  b ++ leBytes 4 (crc32 b)

/-- A byte of the MRAM that the spec's layouts give: record copies, log entries, power-loss stores, and the area that
only the test window writes; none where they give none. The management keys of IDENTITY read 0. -/
def State.mramKnown (s : State) (a : Nat) : Option Byte :=
  match copyAt a with
  | some (id, i) =>
    match (s.copies id).getD i none with
    | none => none
    | some c =>
      let shown := if id = 16 then { c with payload := shownPayload 16 c.payload } else c
      let o := a % 0x1000
      if id = 16 ∧ 28 ≤ o ∧ o < 32 then (c.bytes)[o]? else (shown.bytes)[o]?
  | none =>
    if 0x1C00000 ≤ a ∧ a < 0x3C00000 then
      let k := (a - 0x1C00000) / 32
      ((s.log.area.find? fun e => decide (e.seq % 1048576 = k)).map LogEntry.bytes).bind fun b => b[a % 32]?
    else if 0x3D00000 ≤ a ∧ a < 0x3D02000 then
      ((s.nvs.pls.toList.getD ((a - 0x3D00000) / 0x1000) none).map PlsStore.bytes).bind fun b => b[a % 0x1000]?
    else if 0x3D02000 ≤ a ∧ a < 0x3E00000 then some (SMap.get (fun _ => (0 : Byte)) s.nvs.mramRest a)
    else none

/-- The MRAM address of an offset of the window. -/
def State.mramAddr (s : State) (off : Nat) : Nat := s.get F.TEST_MRAM_PAGE_PAGE * 2048 + (off - 0x7800)

/-- A word of the MRAM window. A byte whose layout the spec does not give is a free value. -/
def mramRead (off : Nat) (s : State) : Word × State :=
  if s.testMode ≠ 3 then (0, s)
  else
    let a := s.mramAddr off
    let (i, s1) := s.fresh
    (BitVec.ofNat 32 (ofLe ((List.range 4).map fun j => (s.mramKnown (a + j)).getD (Config.mramByte i (a + j)))), s1)

/-- A write of the MRAM window: one block as an NV commit, only from 0x03D0_2000 to 0x03DF_FFFF. -/
def mramWrite (off : Nat) (w : Word) (s : State) : Bool × State :=
  let a := s.mramAddr off
  if s.testMode ≠ 3 ∨ a < 0x3D02000 ∨ 0x3E00000 ≤ a ∨ s.powerFail then (false, s)
  else
    let r := s.askCommit (blockTime 64) 0
    if r.1 = 0 then
      (true, { r.2 with nvs := { r.2.nvs with
        mramRest := SMap.setMany (fun _ => (0 : Byte)) r.2.nvs.mramRest
          ((List.range 4).map fun j => (a + j, BitVec.ofNat 8 (bitsOf w (8 * j) 8))) } })
    else (false, r.2)

/-! ## The test access port (R422 to R424) -/

/-- The device identification code. -/
def idcode : Nat := 0x1814056F

/-- An instruction is loaded: the data register it selects and what that captures. -/
def State.tapLoad (s : State) (code dr : Nat) : State := { s with dbg := { s.dbg with tap := code, dr := dr } }

/-- BYPASS. -/
def State.tapBypass (s : State) : State := s.tapLoad 0xFF 0

/-- EXTEST, CLAMP or HIGHZ: BYPASS behind the debug lock or with an axis armed; else it takes effect and the device halts
in the safe state. -/
def tapTest (code : Nat) (s : State) : State :=
  if s.dbgLocked then s.tapBypass
  else if s.anyArmed then s.tapBypass.put F.DBG_STATUS_BSCAN_BLOCKED 1
  else (s.haltCmd true).tapLoad code 0

/-- SAMPLE/PRELOAD: the boundary register is loaded; the cells keep what was shifted in for EXTEST and CLAMP. -/
def tapPreload (cells : List Bool) (s : State) : State :=
  let s1 := s.tapLoad 2 0
  { s1 with dbg := { s1.dbg with cells := cells } }

/-! ## The rows -/

/-- DBG_HALT: a write of DBG_CTRL with HALT. -/
def execDbgHalt (_p : Path) (s : State) : Host.Outcome State Fault Refusal := liveA s fun s => (dbgCtrl 0x3C000001 s).2

/-- DBG_HALT_SAFE: a write of DBG_CTRL with HALT and SAFE. -/
def execDbgHaltSafe (_p : Path) (s : State) : Host.Outcome State Fault Refusal := liveA s fun s => (dbgCtrl 0x3C000003 s).2

/-- DBG_RESUME: a write of DBG_CTRL with RESUME. -/
def execDbgResume (_p : Path) (s : State) : Host.Outcome State Fault Refusal := liveA s fun s => (dbgCtrl 0x3C000004 s).2

/-- DBG_STEP: a write of DBG_CTRL with STEP. -/
def execDbgStep (_p : Path) (s : State) : Host.Outcome State Fault Refusal := liveA s fun s => (dbgCtrl 0x3C000008 s).2

/-- DBG_RESET: a write of DBG_CTRL with RESET. -/
def execDbgReset (_p : Path) (s : State) : Host.Outcome State Fault Refusal := live s fun s => (dbgCtrl 0x3C000010 s).2

/-- DBG_LOCK: a write of DBG_LOCK. -/
def execDbgLock (_p : Path) (w : Word) (s : State) : Host.Outcome State Fault Refusal := live s fun s => (dbgLock w s).2

/-- TEST_TABLE_WRITE: a write of TEST_CTRL with MODE = TABLE_WRITE. -/
def execTestTableWrite (_p : Path) (w : Word) (s : State) : Host.Outcome State Fault Refusal :=
  live s fun s => (testCtrl (setBits w 0 2 1) s).2

/-- TEST_PWM_DRIVE: a write of TEST_CTRL with MODE = PWM_DRIVE. -/
def execTestPwmDrive (_p : Path) (w : Word) (s : State) : Host.Outcome State Fault Refusal :=
  liveA s fun s => (testCtrl (setBits w 0 2 2) s).2

/-- TEST_MRAM_ACCESS: a write of TEST_CTRL with MODE = MRAM_ACCESS. -/
def execTestMramAccess (_p : Path) (w : Word) (s : State) : Host.Outcome State Fault Refusal :=
  live s fun s => (testCtrl (setBits w 0 2 3) s).2

/-- TEST_NONE: a write of TEST_CTRL with MODE = NONE. -/
def execTestNone (_p : Path) (w : Word) (s : State) : Host.Outcome State Fault Refusal :=
  liveA s fun s => (testCtrl (setBits w 0 2 0) s).2

/-- TABLE_RELOAD_DONE. -/
def execTableReloadDone (s : State) : Host.Outcome State Fault Refusal := live s tableReloadDone

/-- JTAG_IDCODE. -/
def execJtagIdcode (s : State) : Host.Outcome State Fault Refusal := liveA s fun s => s.tapLoad 1 idcode

/-- JTAG_EXTEST. -/
def execJtagExtest (s : State) : Host.Outcome State Fault Refusal := liveA s (tapTest 0)

/-- JTAG_SAMPLE_PRELOAD with the cells shifted in. -/
def execJtagSamplePreload (cells : List Bool) (s : State) : Host.Outcome State Fault Refusal := liveA s (tapPreload cells)

/-- JTAG_CLAMP. -/
def execJtagClamp (s : State) : Host.Outcome State Fault Refusal := liveA s (tapTest 3)

/-- JTAG_HIGHZ. -/
def execJtagHighz (s : State) : Host.Outcome State Fault Refusal := liveA s (tapTest 4)

/-- JTAG_BYPASS. -/
def execJtagBypass (s : State) : Host.Outcome State Fault Refusal := liveA s fun s => s.tapBypass

/-- TAP_RESET: Test-Logic-Reset, with IDCODE in force (PRESUMED: IEEE 1149.1). -/
def execTapReset (s : State) : Host.Outcome State Fault Refusal := liveA s fun s => s.tapLoad 1 idcode

end Sys2Proof.Machine
end

