-- ==== Sys2Proof/Machine/Ring.lean ====
section
/-!
DEFINITION. The first pass of a cycle through a node (R319 to R323, R326, R328, R330, R333, R336, R341 to R345, R348 to
R353, R356 to R358): slot, records, mailboxes, enumeration, time, supervision.
-/
namespace Sys2Proof.Machine

/-! ## Mailbox slots (Tables 14.2 to 14.5) -/

/-- A mailbox slot from its 64 bytes. -/
def parseMbx (b : List Byte) : Mbx :=
  { kind := rdN b 0 1, flags := rdN b 1 1, src := rdN b 2 2 % 4096, dst := rdN b 4 3, epoch := rdN b 8 2, tag := rdN b 10 2,
    counter := rdN b 12 4, payload := slice b 16 32, mac := slice b 48 16 }

/-- Bytes 0x00 to 0x2F of a slot. -/
def mbxFront (m : Mbx) : List Byte :=
  leBytes 1 m.kind ++ leBytes 1 m.flags ++ leBytes 2 m.src ++ leBytes 3 m.dst ++ leBytes 1 0 ++ leBytes 2 m.epoch ++
    leBytes 2 m.tag ++ leBytes 4 m.counter ++ padTo 32 m.payload

/-- The 64 bytes of a slot. -/
def mbxBytes (m : Mbx) : List Byte := mbxFront m ++ padTo 16 m.mac

/-- A message before its sender completes it. -/
def newMbx (kind dst epoch tag : Nat) (payload : List Byte) : Mbx :=
  { kind := kind, flags := 0, src := 0, dst := dst, epoch := epoch, tag := tag, counter := 0, payload := padTo 32 payload,
    mac := List.replicate 16 0 }

/-- FEATURES.AUTH in force. -/
def State.authOn (s : State) : Bool := decide (bitsOf (s.rd R.NET_RING) 8 1 = 1)

/-- The 16 bytes of management key `k`, word 0 first. -/
def State.keyBytes (s : State) (k : Nat) : List Byte :=
  (List.range 4).flatMap fun j => leBytes 4 (s.rd (R.NET_KEYk (4 * k + j))).toNat

/-- Network time in ms at the present instant, modulo 2^24. -/
def State.netMs (s : State) : Nat := (s.net.timeH + 5 * s.sub) / 2 / 1000000 % 2 ^ 24

/-- A message as it leaves (R356): SRC, and under FEATURES.AUTH the counter and the tag; none while 256 messages have
gone in this millisecond. -/
def State.seal (s : State) (m0 : Mbx) : Option (Mbx × State) :=
  let m := { m0 with src := s.node }
  if !s.authOn then some (m, s)
  else
    let ms := s.netMs
    let n := if s.net.sentCtr.1 = ms then s.net.sentCtr.2 + 1 else 0
    if 256 ≤ n then none
    else
      let k := s.get F.NET_AUTH_CFG_TX_KEY
      let m1 := { m with flags := m.flags % 32 + 128 + 32 * k, counter := ms * 256 + n }
      some ({ m1 with mac := cmac (s.keyBytes k) (mbxFront m1) }, s.modNet fun x => { x with sentCtr := (ms, n) })

/-- Is the tag of a message right and its COUNTER acceptable? The counter is recorded when both hold. -/
def State.acceptAuth (s : State) (m : Mbx) : Bool × State :=
  let k := m.flags / 32 % 4
  let tagOk := decide (cmac (s.keyBytes k) (mbxFront m) = m.mac)
  let last := (s.net.counters.find? fun e => decide (e.1 = (m.src, k))).map (·.2)
  let newer := match last with
    | some l => let d := (m.counter + 2 ^ 32 - l) % 2 ^ 32; decide (0 < d ∧ d < 2 ^ 31)
    | none => true
  let d := (m.counter / 256 + 2 ^ 24 - s.netMs) % 2 ^ 24
  let fresh := !s.locked || decide (d ≤ 2000 ∨ 2 ^ 24 - 2000 ≤ d)
  if tagOk && newer && fresh then
    (true, s.modNet fun n =>
      { n with counters := ((m.src, k), m.counter) :: n.counters.filter fun e => decide (e.1 ≠ (m.src, k)) })
  else (false, s)

/-- A refusal for authentication is counted and raised (R356). -/
def State.authFail (s : State) : State := (s.bump F.NET_NAK_CNT_AUTH 1).raise (evNet 8)

/-- Queue the response to a message: STATUS, COUNT, ADDR, DATA (Table 14.5). -/
def State.respond (s : State) (m : Mbx) (status count addr : Nat) (data : List Byte) : State :=
  let r := newMbx 2 (nodeAddr m.src) 0 m.tag (leBytes 1 status ++ leBytes 1 count ++ leBytes 2 addr ++ data)
  s.modNet fun n => { n with resp := n.resp ++ [r] }

/-- A refusal that repeats COUNT and ADDR of the request. -/
def State.nak (s : State) (m : Mbx) (status : Nat) (data : List Byte) : State :=
  s.respond m status (rdN m.payload 1 1) (rdN m.payload 2 2) data

/-- The node that events go to (R353). -/
def State.eventDest (s : State) : Option Nat :=
  if s.flag F.NET_MBX_CFG_DEST_ROOT then s.net.root else some (s.get F.NET_MBX_CFG_DEST)

/-- An EVENT message (Table 14.3). -/
def State.eventMbx (s : State) (dst : Nat) (e : EvMsg) : Mbx :=
  let m := newMbx 3 (nodeAddr dst) 0 0
    (leBytes 1 e.endpoint ++ leBytes 1 e.bit ++ leBytes 2 e.reg ++ leBytes 8 e.time ++ leBytes 2 e.seq ++
      leBytes 2 (satU 16 s.log.evLost) ++ leBytes 4 e.frame ++ leBytes 4 e.obj.toNat ++ leBytes 2 e.epoch)
  { m with flags := if s.log.evOvf then 8 else 0 }

/-- The node's next message in the order of R351, replica messages last, complete as it leaves. -/
def State.nextMsg (s : State) : Option (Mbx × State) :=
  match s.net.prio with
  | m :: l => (s.seal { m with flags := m.flags ||| 16 }).map fun r => (r.1, r.2.modNet fun n => { n with prio := l })
  | [] =>
    match s.net.resp with
    | m :: l => (s.seal m).map fun r => (r.1, r.2.modNet fun n => { n with resp := l })
    | [] =>
      match s.log.evq, s.eventDest with
      | e :: l, some d =>
        (s.seal (s.eventMbx d e)).map fun r =>
          (r.1, { r.2 with log := { r.2.log with evq := l, evLost := 0, evOvf := false } })
      | _, _ =>
        match s.net.own with
        | m :: l => (s.seal m).map fun r => (r.1, r.2.modNet fun n => { n with own := l })
        | [] =>
          match s.net.rep with
          | m :: l => (s.seal m).map fun r => (r.1, r.2.modNet fun n => { n with rep := l })
          | [] => none

/-- How a message names this node: 0 not at all, 1 unicast (or the reserved mode at its node number), 2 a herd of the node
or every node (Table 13.12). -/
def State.addressed (s : State) (m : Mbx) : Nat :=
  let mode := m.dst / 2 ^ 22
  if mode = 1 then (if (s.membersOf (m.dst % 256)).isEmpty then 0 else 2)
  else if mode = 2 then 2
  else if m.dst / 256 % 4096 = s.node ∧ s.numbered then 1 else 0

/-- A REPLICA message from a mailbox slot. -/
def repOf (m : Mbx) : RepMsg :=
  let p := m.payload
  { src := m.src, chunk := rdN p 1 1, block := rdN p 2 2, owner := rdN p 4 2 % 4096, version := rdN p 6 2, body := slice p 8 24 }

/-- A REPLICA message by its OP; other codes are ignored (Table 15.8). -/
def replicaMsg (op : Nat) (m : RepMsg) (s : State) : State :=
  match op with
  | 1 => replicaOffer m s
  | 2 => replicaAccepted m s
  | 3 => replicaDecline m s
  | 4 => replicaData m s
  | 5 => replicaBlockAck m s
  | 6 => replicaBlockNak m s
  | 7 => replicaComplete m s
  | 8 => replicaVerify m s
  | 9 => replicaVerifyAck m s
  | 10 => replicaRelease m s
  | 11 => replicaFetch m s
  | _ => s

/-- A REPLICA message arrives: without the feature it is answered with NAK_FEATURE (R357). -/
def State.takeReplica (s : State) (m : Mbx) : State :=
  if bitsOf (s.rd R.NET_RING) 9 1 = 0 then s.nak m 9 []
  else if s.authOn ∧ 128 ≤ m.flags then
    (let r := s.acceptAuth m
     if r.1 then replicaMsg (rdN m.payload 0 1) (repOf m) r.2 else r.2.authFail.nak m 4 [])
  else replicaMsg (rdN m.payload 0 1) (repOf m) s

/-- The root keeps what its own requests brought (Table 14.7): node, address, word of a READ; a stale role epoch under
address 0x10000. -/
def State.takeResponse (s : State) (m : Mbx) : State :=
  let keep := fun (a : Nat) =>
    let e := (m.src, a, BitVec.ofNat 32 (rdN m.payload 4 4))
    s.modNet fun n =>
      { n with rs := { n.rs with words := e :: n.rs.words.filter fun x => decide ((x.1, x.2.1) ≠ (m.src, a)) } }
  if !s.rootHere then s
  else if rdN m.payload 0 1 = 0 ∧ rdN m.payload 1 1 = 1 then keep (rdN m.payload 2 2)
  else if rdN m.payload 0 1 = 1 then keep 0x10000
  else s

/-- A message taken in: requests wait for an input latch (R354), at most 16 of them. -/
def State.receive (s : State) (q : PortIx) (m : Mbx) : State :=
  match m.kind with
  | 1 =>
    if s.net.inQ.length < 16 then s.modNet fun n => { n with inQ := n.inQ ++ [⟨q, m, s.now + s.sub⟩] } else s.nak m 7 []
  | 2 => s.takeResponse m
  | 4 => s.takeReplica m
  | _ => s

/-- The bytes of a free slot. -/
def freeSlot : List Byte := List.replicate 64 0

/-! ## A pass segment by segment -/

/-- A pass in progress: the state, how many slots, mailbox slots and entries went before, credits left, messages to take
in from this segment, whether an ENUM entry has been filled, what the GOOSE said. -/
structure PassWork where
  s : State
  slots : Nat
  mails : Nat
  ents : Nat
  credit : Nat
  inbox : List Mbx
  filled : Bool
  goose : Option (List Byte)

/-- One mailbox slot passes (R351, R352). -/
def mailSlot (h : Hdr) (b : List Byte) (w : PassWork) : PassWork × List Byte :=
  let j := w.mails
  let w1 := { w with mails := j + 1 }
  let m := parseMbx b
  if m.kind = 0 then
    let owner := (h.cycleNo * h.mbx + j) % Nat.max 1 h.nodes
    let mine := decide (owner = w.s.net.slot)
    let prio := !w.s.net.prio.isEmpty
    if prio ∨ mine ∨ (owner < w.s.net.slot ∧ 0 < w.credit) then
      match w.s.nextMsg with
      | some (m', s') => ({ w1 with s := s', credit := if prio ∨ mine then w.credit else w.credit - 1 }, mbxBytes m')
      | none => (w1, b)
    else (w1, b)
  else if 4 < m.kind then (w1, b)
  else
    match w.s.addressed m with
    | 0 => (w1, b)
    | 1 =>
      if m.kind = 1 ∧ 16 ≤ w.s.net.inQ.length + (w.inbox.filter fun x => decide (x.kind = 1)).length then
        let r := newMbx 2 (nodeAddr m.src) 0 m.tag (leBytes 1 7 ++ slice m.payload 1 3)
        (match w.s.seal r with
         | some (r', s') => ({ w1 with s := s' }, mbxBytes r')
         | none => (w1, freeSlot))
      else ({ w1 with inbox := w.inbox ++ [m] }, freeSlot)
    | _ => ({ w1 with inbox := w.inbox ++ [m] }, b)

/-- The mailbox slots of a segment in order. -/
def mailSlots (h : Hdr) : List (List Byte) → PassWork → PassWork × List Byte
  | [], w => (w, [])
  | b :: l, w =>
    let r := mailSlot h b w
    let t := mailSlots h l r.1
    (t.1, r.2 ++ t.2)

/-- SUMMARY (Tables 13.6, 14.1; R349): PRESENT, CYCLE_MISMATCH, MBX_PENDING, PORT_READY and the event groups. -/
def State.summary (s : State) (mism : Bool) : Nat :=
  if mism then 2 ^ 31 + 2 ^ 30
  else
    2 ^ 31 + 2 ^ 29 * b2n (!s.log.evq.isEmpty || !s.net.resp.isEmpty) +
      2 ^ 28 * b2n ((List.range 3).any fun q => decide (s.portState q = 4)) + (s.net.groups ||| s.log.raised) % 65536

/-- The node's slot as it leaves: STATUS of the last output stage and SUMMARY; with a cycle mismatch only SUMMARY. -/
def State.writeSlot (s : State) (mism : Bool) (b : List Byte) : List Byte :=
  let st := if mism then slice b 16 16 else padTo 16 ((s.net.status.take 4).flatMap fun w => leBytes 4 w.toNat)
  b.take 16 ++ st ++ leBytes 4 (s.summary mism)

/-- The RAW record of membership `i` in this cycle (R124): valid while the node is locked and a feedback position holds. -/
def State.rawRecord (s : State) (i : Nat) (h : Hdr) : List Byte :=
  let ch := s.get (F.NET_HERDi_SRC_CH i)
  let fb := decide (s.get (F.NET_HERDi_SRC_KIND i) = 1)
  let pos := if fb then s.fbPos ch else s.pos ch
  let vel := if fb then s.wideS 40 (R.FBKn_SPEED ch) else (s.ax ch).kin.velQ
  let time := if fb then s.netTime else (s.net.timeH + 5 * s.period) / 2
  let valid := s.locked && (!fb || s.flag (F.FBKn_STATUS_POS_VALID ch))
  leBytes 1 (s.get (F.NET_HERDi_CFG_HERD i)) ++ leBytes 1 (64 * b2n valid + h.cycleNo % 16) ++ leBytes 2 0 ++
    leBytes 6 (unsext 48 pos) ++ leBytes 5 (unsext 40 vel) ++ leBytes 1 0 ++ leBytes 8 time

/-- The MASTER record of a hosted membership (R124): the last RAW record unless its SEQ went out before. -/
def State.masterOut (s : State) (i : Nat) (h : Hdr) : List Byte × State :=
  let herd := leBytes 1 (s.get (F.NET_HERDi_CFG_HERD i))
  let epoch := leBytes 2 (s.get (F.NET_HERDi_STATUS_BW_EPOCH i))
  let raw := ((s.herds.toList[i]?).map (·.raw)).getD []
  let last := ((s.herds.toList[i]?).map (·.rawSeq)).getD none
  let seq := rdN raw 1 1 % 16
  if raw = [] ∨ last = some seq then
    (herd ++ leBytes 1 (128 + h.cycleNo % 16) ++ epoch ++ List.replicate 20 0, s)
  else
    (herd ++ leBytes 1 (128 + 64 + h.cycleNo % 16) ++ epoch ++ raw.drop 4, s.modHerd i fun x => { x with rawSeq := some seq })

/-- One record passes: the source node writes RAW, the Bellwether MASTER (R320). -/
def recordOut (h : Hdr) (b : List Byte) (s : State) : List Byte × State :=
  let ms := s.membersOf (rdN b 0 1)
  if rdN b 1 1 < 128 then
    match ms.find? fun i => decide (s.get (F.NET_HERDi_SRC_KIND i) ≠ 0 ∧ s.get (F.NET_HERDi_SRC_NODE i) = s.node) with
    | some i => (s.rawRecord i h, s)
    | none => (b, s)
  else
    match ms.find? s.hosting with
    | some i => s.masterOut i h
    | none => (b, s)

/-- The records of a segment in order. -/
def recordsOut (h : Hdr) : List (List Byte) → State → List Byte × State
  | [], s => ([], s)
  | b :: l, s =>
    let r := recordOut h b s
    let t := recordsOut h l r.2
    (r.1 ++ t.1, t.2)

/-- The ENUM entry of this node (Table 13.10) with arrival port `q`. -/
def State.enumEntry (s : State) (q : Nat) : List Byte :=
  let ports := (List.range 3).foldl (fun m p => m + 2 ^ p * b2n (decide (s.portState p = 4 ∨ s.portState p = 5))) 0
  let hint := if s.numbered then 32768 + s.node else match s.net.hint with
    | some n => 32768 + n
    | none => 0
  leBytes 1 (128 + 16 * q + ports) ++ leBytes 1 (s.get (F.NETp_STATUS_LINK_VER q)) ++ leBytes 2 hint ++ leBytes 8 s.serial ++
    leBytes 1 3 ++ leBytes 1 (s.get F.NET_CFG_PRIO) ++ leBytes 2 0

/-- Fill the first free entry of a segment: its bytes and the index filled. -/
def fillEnum (e : List Byte) : List (List Byte) → Nat → List Byte × Option Nat
  | [], _ => ([], none)
  | b :: l, i =>
    if rdN b 0 1 < 128 then (e ++ l.flatten, some i)
    else
      let t := fillEnum e l (i + 1)
      (b ++ t.1, t.2)

/-- A role epoch advances, from 0xFFFF to 1 (R332). -/
def nextEpoch (e : Nat) : Nat := if e = 65535 then 1 else e + 1

/-- Set the role code of an endpoint; a change advances its epoch. -/
def State.roleSet (s : State) (ep code : Nat) : State :=
  let w := (s.role ep).toNat
  if w / 65536 = code then s else s.setRole ep (BitVec.ofNat 32 (code * 65536 + nextEpoch (w % 65536)))

/-- A number other than the hint (R330): every role is UNASSIGNED and every role epoch advances. -/
def State.renumbered (s : State) : State :=
  let s1 := (List.range 256).foldl (fun s e =>
    if endpointOk e then s.setRole e (BitVec.ofNat 32 (nextEpoch ((s.role e).toNat % 65536))) else s) s
  (s1.queueRecord 17).raise (evNet 5)

/-- The node's entry of an ASSIGN cycle (R328, Table 13.11). -/
def State.takeAssign (s : State) (topo e : Nat) : State :=
  if e < 2 ^ 31 then s.put F.NET_NODE_NUMBERED 0
  else
    let n := e % 4096
    let held := if s.numbered then some s.node else s.net.hint
    let s1 := ((s.put F.NET_NODE_NODE n).put F.NET_NODE_NUMBERED 1).put F.NET_RING_TOPO_EPOCH topo
    let s2 := s1.modNet fun x => { x with slot := e / 4096 % 4096, hint := some n }
    if held = some n then s2 else (s2.renumbered).queueRecord 16

/-- The (slot, node) pairs of ASSIGN entries. -/
def assignPairs (b : List Byte) : List (Nat × Nat) :=
  ((List.range (b.length / 4)).map fun i => rdN b (4 * i) 4).filterMap fun e =>
    if 2 ^ 31 ≤ e then some (e / 4096 % 4096, e % 4096) else none

/-- One segment of a first pass as it leaves the node; `own`: the root sends it. -/
def passSeg (h : Hdr) (proc mism own : Bool) (q : PortIx) (g : Seg) (w : PassWork) : PassWork × Seg :=
  let s := w.s
  match g.typ with
  | 2 =>
    let n := g.body.length / 36
    let i := s.net.slot - w.slots
    let w1 := { w with slots := w.slots + n }
    if proc ∧ w.slots ≤ s.net.slot ∧ i < n then
      let b := slice g.body (36 * i) 36
      let g1 := { g with body := putBytes g.body (36 * i) (s.writeSlot mism b) }
      let s1 := { s with log := { s.log with raised := if mism then s.log.raised else 0 } }
      let s2 := if g.st = .good ∧ !mism then
          s1.modNet fun x =>
            { x with cmd := allWords (b.take 16), cmdCycle := h.cycleNo, cmdAt := s1.now + s1.sub, cmdNew := true }
        else s1
      ({ w1 with s := s2 }, g1)
    else (w1, g)
  | 3 =>
    if proc then
      let r := recordsOut h (piecesOf 24 (g.body.length / 24) g.body) s
      ({ w with s := if g.st = .good then r.2.takeRecords r.1 else r.2 }, { g with body := r.1 })
    else ({ w with s := if g.st = .good then s.takeRecords g.body else s }, g)
  | 4 =>
    if proc then
      let r := mailSlots h (piecesOf 64 (g.body.length / 64) g.body) { w with inbox := [] }
      let s1 := if g.st = .good then r.1.inbox.foldl (fun s m => s.receive q m) r.1.s else r.1.s
      ({ r.1 with s := s1, inbox := [] }, { g with body := r.2 })
    else (w, g)
  | 0x11 =>
    let n := g.body.length / 16
    let w1 := { w with ents := w.ents + n }
    if w.filled then (w1, g)
    else
      match fillEnum (s.enumEntry q.val) (piecesOf 16 n g.body) 0 with
      | (b, some i) =>
        ({ w1 with filled := true, s := s.modNet fun x => { x with enumPos := some (w.ents + i, h.topo) } }, { g with body := b })
      | (_, none) => (w1, g)
  | 0x12 =>
    let n := g.body.length / 4
    let w1 := { w with ents := w.ents + n }
    if g.st ≠ .good then (w1, g)
    else
      let pairs := assignPairs g.body
      let s1 := s.modNet fun x => { x with nodes := (if w.ents = 0 then [] else x.nodes) ++ pairs }
      (match s.net.enumPos with
       | some (p, t) =>
         if t = h.topo ∧ w.ents ≤ p ∧ p < w.ents + n then
           ({ w1 with s := s1.takeAssign h.topo (rdN g.body (4 * (p - w.ents)) 4) }, g)
         else ({ w1 with s := s1 }, g)
       | none => ({ w1 with s := s1 }, g))
  | 5 =>
    if g.body.length ≠ 16 then (w, g)
    else
      let b1 := if proc ∧ !own then putBytes g.body 4 (leBytes 2 (rdN g.body 4 2 + 1)) else g.body
      let b2 := if own then b1 else s.markFaults (s.markWrap q.val b1)
      let b3 := if h.nodes = 0 ∧ !w.filled then putBytes b2 12 (leBytes 2 (rdN b2 12 2 ||| 2)) else b2
      ({ w with goose := if g.st = .good then some g.body else w.goose }, { g with body := b3 })
  | _ => (w, g)

/-! ## Goose supervision (R358) -/

/-- Supervision of a processed pass by the GOOSE body it brought. -/
def State.supervise (s : State) (h : Hdr) (goose : Option (List Byte)) : State :=
  let life := goose.map fun b => rdN b 15 1
  let good := match goose, life with
    | some b, some l =>
      decide (rdN b 0 4 = h.cycleNo) && (match s.net.life with
        | some p => decide (l = (p + 1) % 256)
        | none => true)
    | _, _ => false
  let s1 := s.modNet fun n =>
    if good then { n with life := life, misses := 0, goods := n.goods + 1 }
    else { n with life := life, misses := n.misses + 1, goods := 0 }
  let s2 := if 2 ≤ s1.net.goods then s1.put F.NET_RING_SUP_LOST 0 else s1
  match goose with
  | some b => if rdN b 14 1 / 128 = 1 then s2.supStops else s2
  | none => s2

/-! ## Network time (R344, R345, R348) -/

/-- Shift local network time by `d` half ns. -/
def State.shiftTime (s : State) (d : Int) : State :=
  s.modNet fun n => { n with timeH := ((n.timeH : Int) + d).toNat }

/-- A new time epoch: the local time steps, the timed commands of the old epoch are dropped (R131, R348). -/
def State.takeEpoch (s : State) (epoch : Nat) (d : Int) : State :=
  let s1 := ((s.shiftTime d).put F.NET_TIME_STATUS_EPOCH epoch).modNet fun n => { n with stepped := true }
  ((s1.raise (evNet 2)).logEntry 4 0 2 (BitVec.ofInt 32 (satS 32 (truncDiv d 2000000)))).dropAllSlots

/-- Bring the frame starts onto CYCLE_TIME + j × T before the lock (R345). -/
def State.alignFrames (s : State) (h : Hdr) : State :=
  let t := 5 * s.period
  s.modNet fun n => { n with shift := (((2 * h.time : Int) - n.timeH) % (t : Int)).toNat }

/-- The servo of a processed pass on a port with OFFSET_VALID; `hdrH` half ns from the frame start to the start delimiter
of the HEADER. -/
def State.servo (s : State) (q : Nat) (h : Hdr) (hdrH : Int) : State :=
  let e := (s.net.timeH : Int) + hdrH - 2 * ((h.time : Int) + s.get (F.NETp_OFFSET_OFFSET q))
  let s0 := (s.put F.NET_TIME_STATUS_HOLDOVER 0).putS F.NET_TIME_ERR_ERR (satS 32 (convDiv e 2))
  if h.epoch ≠ s.get F.NET_TIME_STATUS_EPOCH then (s0.takeEpoch h.epoch (-e)).alignFrames h
  else if s.locked then (if 2000 < e.natAbs then s0.loseLock else s0)
  else if !s.net.stepped then
    ((s0.shiftTime (-e)).modNet fun n => { n with stepped := true, lock := 0 }).alignFrames h
  else
    let t := 5 * s.period
    let r := (((s.net.timeH : Int) - 2 * h.time) % (t : Int)).toNat
    let good := decide (e.natAbs ≤ 200 ∧ (r ≤ 200 ∨ t ≤ r + 200))
    let k := if good then s.net.lock + 1 else 0
    let s1 := (s0.alignFrames h).modNet fun n => { n with lock := k }
    if 8 ≤ k then ((s1.put F.NET_TIME_STATUS_LOCKED 1).modNet fun n => { n with shift := 0 }).raise (evNet 0) else s1

/-! ## The first pass -/

/-- FEATURES and RING_VER of a HEADER (R357). -/
def State.takeFeatures (s : State) (h : Hdr) : State :=
  let f := if h.ver = 1 then 0 else h.features
  let s1 := s.put F.NET_RING_RING_VER h.ver
  if f = s.get F.NET_RING_FEATURES then s1 else (s1.put F.NET_RING_FEATURES f).raise (evNet 9)

/-- A membership at the start of a cycle: the cycles before it without a record; `gap` cycles passed unseen. -/
def Herd.newCycle (x : Herd) (gap : Nat) : Herd :=
  { x with missed := Nat.min 255 ((if x.seen then 0 else x.missed + 1) + gap), seen := false }

/-- The HEADER of a new cycle arrives on port `q` (R333, R334, R336, R343). -/
def State.newCycle (s : State) (q : Nat) (h : Hdr) : State :=
  let s1 := match s.net.reopen with
    | some p => if s.portState p = 4 then s.setPort p 5 else s
    | none => s
  let gap := match s1.net.cycle with
    | some c => (h.cycleNo + 2 ^ 32 - c) % 2 ^ 32 - 1
    | none => 0
  let s2 := if s1.net.arrival ≠ none ∧ s1.net.arrival ≠ some q then s1.put (F.NETp_STATUS_OFFSET_VALID q) 0 else s1
  let s3 := (List.range 3).foldl (fun s p => s.modNp p fun x => { x with errPrev := x.errNow, errNow := false }) s2
  let s4 := { s3 with herds := s3.herds.map fun x => Herd.newCycle x gap }
  let reopen := match h.reopen with
    | some (n, p) => if s4.numbered ∧ n = s4.node then some p else none
    | none => none
  let s5 := s4.modNet fun n =>
    { n with cycle := some h.cycleNo, cycleTime := h.time, sentOn := [], arrival := some q, reopen := reopen, root := some h.root,
             rootPrio := h.prio, headerAt := s4.now + s4.sub, errPass := false, loopPass := false,
             life := if gap = 0 then n.life else none }
  ((s5.put F.NET_RING_ISOLATED 0).putB F.NET_RING_WRAPPED (!(s5.wrapPorts q).isEmpty)).takeFeatures h

/-- Does the node process the pass (R326)? -/
def State.processes (s : State) (h : Hdr) : Bool :=
  s.numbered && decide (h.topo = s.get F.NET_RING_TOPO_EPOCH) && decide (s.net.slot < h.nodes)

/-- Is CYCLE_LEN no whole multiple of the frame period (R326)? -/
def State.mismatch (s : State) (h : Hdr) : Bool := decide (2 * h.len % (5 * s.period) ≠ 0)

/-- The STOP of a propagating membership goes to its herd, the member axes of this device included (R123). -/
def State.sendPropagated (s : State) : State :=
  let s1 := (List.range 16).foldl (fun s i =>
    if s.flag (F.NET_HERDi_CFG_ENABLE i) ∧ s.flag (F.NET_HERDi_CFG_PROPAGATE i) ∧
        (s.herdAxes i).any (fun n => (s.ax n).propagate) then
      let herd := s.get (F.NET_HERDi_CFG_HERD i)
      let m := newMbx 1 (2 ^ 22 + herd) ((s.role (0xB0 + i)).toNat % 65536) 0
        (leBytes 1 2 ++ leBytes 1 1 ++ leBytes 2 (R.MOTn_CMD 0) ++ leBytes 4 3)
      (herdStop herd s).modNet fun n => { n with prio := n.prio ++ [m] }
    else s) s
  { s1 with axes := s1.axes.map fun a => { a with propagate := false } }

/-- Remote member axes of the herds of this node that reported READY in the previous cycle (R132): (herd, count). -/
def State.takeReady (s : State) (l : List (Nat × Nat)) : State :=
  (List.range 16).foldl (fun s i =>
    s.modHerd i fun x =>
      { x with ready := ((l.find? fun e => decide (e.1 = s.get (F.NET_HERDi_CFG_HERD i))).map (·.2)).getD 0 }) s

/-- What a processed HEADER brings before the frame's other segments (R326, R344, R348). -/
def State.beginPass (s : State) (q : Nat) (h : Hdr) (hdrH : Int) (ready : List (Nat × Nat)) : State :=
  let same := decide (h.epoch = s.get F.NET_TIME_STATUS_EPOCH)
  let s1 := (s.put F.NET_CYCLE_LEN h.len).modNet fun n => { n with passAt := s.now + s.sub, recOk := same }
  let s2 := if s1.flag (F.NETp_STATUS_OFFSET_VALID q) then s1.servo q h hdrH
    else if !same then (s1.takeEpoch h.epoch (2 * ((h.time : Int) + s1.get (F.NETp_OFFSET_OFFSET q)) - hdrH - s1.net.timeH))
    else s1
  (s2.takeReady ready).sendPropagated

/-- The segments after the HEADER. -/
def passSegs (h : Hdr) (proc mism : Bool) (q : PortIx) : List (List Byte) → PassWork → PassWork
  | [], w => w
  | b :: l, w =>
    let g := parseSeg b
    if !w.s.isOpen q.val then w
    else
      let r := passSeg h proc mism false q g w
      let s1 := r.1.s.forward q.val r.2
      let s2 := if g.typ = 5 then s1.countWraps q.val else s1
      passSegs h proc mism q l { r.1 with s := s2.countSeg q.val g }

/-- A work item at its start. -/
def startWork (s : State) : PassWork :=
  { s := s, slots := 0, mails := 0, ents := 0, credit := s.get F.NET_MBX_CFG_CREDIT, inbox := [], filled := false, goose := none }

/-- A root that hears a better root yields at its next cycle (R337). -/
def State.yieldTo (s : State) (h : Hdr) : State :=
  let prio := s.get F.NET_CFG_PRIO
  if s.rootHere ∧ (h.prio, h.root) ≠ (prio, s.node) ∧ (prio < h.prio ∨ (h.prio = prio ∧ h.root < s.node)) then
    s.modNet fun n => { n with rs := { n.rs with yield := true } }
  else s

/-- A pass of whole segments that the node only forwards. -/
def passAll (q : Nat) (l : List (List Byte)) (s : State) : State := l.foldl (fun s b => segmentReceived q b s) s

/-- RING_PASS: the segments of a frame arrive on port `q`, the HEADER first; its start delimiter passes `hdrH` half ns after
the frame start, and the last FCS is checked in core cycle `cyc`. -/
def ringPass (q : PortIx) (segs : List (List Byte)) (hdrH : Int) (cyc : Nat) (ready : List (Nat × Nat)) (s0 : State) : State :=
  let s := s0.at cyc
  match segs with
  | [] => s
  | b :: l =>
    let g := parseSeg b
    let s1 := s.openOnHeader q.val g
    if !g.isHeader ∨ !s1.isOpen q.val then passAll q.val segs s1
    else
      let h := parseHdr g.body
      if s1.rootHere then passAll q.val segs (s1.yieldTo h)
      else if s1.net.cycle = some h.cycleNo then passAll q.val segs s1
      else
        let s2 := s1.newCycle q.val h
        let proc := s2.processes h && decide (0 < h.nodes)
        let s3 := if proc then s2.beginPass q.val h hdrH ready else s2.modNet fun n => { n with recOk := false }
        let mism := s3.mismatch h
        let w := passSegs h proc mism q l (startWork (s3.forward q.val g))
        if proc then w.s.supervise h w.goose else w.s

/-- RING_PASS. -/
def execRingPass (q : PortIx) (segs : List (List Byte)) (hdrH : Int) (cyc : Nat) (ready : List (Nat × Nat)) (s : State) :
    Host.Outcome State Fault Refusal :=
  liveN s (ringPass q segs hdrH cyc ready)

end Sys2Proof.Machine
end

