-- ==== Sys2Proof/Machine/RootCmd.lean ====
section
/-!
DEFINITION. Herd commands and Bellwethers (R122, R127, R128, R132), root commands (R337, R341, R347, R359) and the writes of
their registers.
-/
namespace Sys2Proof.Machine

/-! ## Bellwethers (R127, R128) -/

/-- A herd event of membership `i`: 0 BW_CHANGED, 1 NO_HOST, 2 SYNC_REFUSED. -/
def evHerd (i bit : Nat) : Ev := ⟨R.NET_HERDi_STATUS i, bit, 0xB0 + i, R.NET_HERD_IRQ_ENABLE, bit, .always⟩

/-- HOSTED follows the memberships that this node hosts. -/
def State.hostShow (s : State) : State :=
  s.put F.NET_HERD_HOST_HOSTED ((List.range 16).filter s.hosting).length

/-- The herd hosted in membership `i` is given up. -/
def State.resignHost (s : State) (i : Nat) : State := (s.put (F.NET_HERDi_STATUS_HOSTING i) 0).hostShow

/-- May this node host the herd of membership `i` (R127, Table 14.7)? -/
def State.mayHost (s : State) (i : Nat) : Bool :=
  s.flag (F.NET_HERDi_CFG_ENABLE i) && s.flag (F.NET_HERDi_CFG_BW_ELIGIBLE i) && s.locked &&
    decide (s.get F.NET_HERD_HOST_HOSTED < s.get F.NET_HERD_HOST_CAP)

/-- A message of this node to the root: its own number where it is the root. -/
def State.rootAddr (s : State) : Nat := nodeAddr (s.net.root.getD s.node)

/-- Queue an own request. -/
def State.sendOwn (s : State) (m : Mbx) : State := s.modNet fun n => { n with own := n.own ++ [m] }

/-- The payload of ELECT_WIN and ELECT_DECLINE (Table 14.5). -/
def electPayload (op herd node epoch : Nat) : List Byte :=
  leBytes 1 op ++ leBytes 1 0 ++ leBytes 2 0 ++ leBytes 4 (herd + node * 65536) ++ leBytes 4 epoch

/-- Membership `i` learns of an election: the new epoch and node, and hosting or a decline where this node has won. Epoch
0 announces that the herd has no Bellwether. -/
def State.elected (s : State) (herd node epoch i : Nat) : State :=
  let s1 := s.resignHost i
  let s2 := (s1.put (F.NET_HERDi_STATUS_BW_EPOCH i) epoch).put (F.NET_HERDi_STATUS_BW_NODE i) node
  if epoch = 0 then s2.raise (evHerd i 1)
  else
    let s3 := (s2.raise (evHerd i 0)).modHerd i fun x => { x with rawSeq := none }
    if s3.numbered ∧ node = s3.node then
      if s3.mayHost i then (s3.put (F.NET_HERDi_STATUS_HOSTING i) 1).hostShow
      else s3.sendOwn (newMbx 1 s3.rootAddr 0 0 (electPayload 6 herd node epoch))
    else s3

/-- ELECT_WIN at every membership of the herd (R128). -/
def electWin (herd node epoch : Nat) (s : State) : State :=
  (s.membersOf herd).foldl (fun s i => s.elected herd node epoch i) s

/-- A write of NET_HERDii_CFG: a herd number used by another enabled membership is refused; clearing ENABLE or BW_ELIGIBLE
resigns (R127). -/
def herdCfgWrite (i : Nat) (w : Word) (s : State) : Bool × State :=
  let herd := bitsOf w 0 8
  if (s.membersOf herd).any (fun j => decide (j ≠ i)) then (false, s)
  else
    let s1 := s.wr (R.NET_HERDi_CFG i) (w &&& 0xE0FF00FF)
    let keeps := decide (bitsOf w 30 2 = 3 ∧ herd = s.get (F.NET_HERDi_CFG_HERD i))
    (true, if s.hosting i ∧ !keeps then s1.resignHost i else s1)

/-- Does the running image hold a herd host task (R127)? -/
def State.hostTask (s : State) : Bool := s.cfg.run.parts.any fun p => p.tasks.any fun t => decide (t.cls = 8 ∧ t.wide)

/-- A write of NET_HERD_HOST: CAP is RWL of the device and needs a herd host task; a CAP below HOSTED resigns every herd
hosted (R127). -/
def herdHostWrite (p : Path) (w : Word) (s : State) : Bool × State :=
  let cap := bitsOf w 0 5
  if 16 < cap ∨ (cap ≠ 0 ∧ !s.hostTask) ∨ (cap ≠ s.get F.NET_HERD_HOST_CAP ∧ p ≠ .image ∧ s.anyArmed) then (false, s)
  else
    let s1 := s.put F.NET_HERD_HOST_CAP cap
    (true, if cap < s.get F.NET_HERD_HOST_HOSTED then
        (List.range 16).foldl (fun s i => if s.hosting i then s.resignHost i else s) s1 else s1)

/-! ## Herd commands (R122, R132) -/

/-- Is the node in a ring that carries messages? -/
def State.inRing (s : State) : Bool := s.numbered && !s.flag F.NET_RING_ISOLATED && s.net.cycle.isSome

/-- A herd-addressed WRITE of `words` from register `a` on, under the role epoch of membership `i`. -/
def State.herdWrite (s : State) (herd a : Nat) (words : List Nat) : State :=
  let epoch := ((s.membersOf herd).head?.map fun i => (s.role (0xB0 + i)).toNat % 65536).getD 0
  s.sendOwn (newMbx 1 (2 ^ 22 + herd) epoch 0
    (leBytes 1 2 ++ leBytes 1 words.length ++ leBytes 2 a ++ words.flatMap (leBytes 4)))

/-- The result of a herd command. -/
def State.herdResult (s : State) (code : Nat) : State := s.wr R.NET_HERD_RESULT (BitVec.ofNat 32 code)

/-- Have all member axes of a hosted herd reported READY in the previous cycle (R132)? -/
def State.allReady (s : State) (i : Nat) : Bool :=
  let here := ((s.herdAxes i).filter s.ready).length
  let there := ((s.herds.toList[i]?).map (·.ready)).getD 0
  decide (here = (s.herdAxes i).length ∧ here + there = s.get (F.NET_HERDi_PARAM_MEMBERS i))

/-- SYNC_START at the Bellwether: a timed START to the herd, the member axes of this device included, or a refusal. -/
def syncStart (p : Path) (herd i : Nat) (s : State) : State :=
  if s.allReady i then
    let t := s.net.cycleTime + s.get (F.NET_HERDi_PARAM_SYNC_LEAD i) * s.get F.NET_CYCLE_LEN
    let epoch := s.get F.NET_TIME_STATUS_EPOCH
    let s1 := s.onHerd herd fun n s => s.tcmdSubmit p n t 0 epoch 4
    (s1.herdWrite herd (R.MOTn_TCMD_TIME 0) [t % 2 ^ 32, t / 2 ^ 32, 0, 0, epoch * 65536 + 4]).herdResult 0
  else (s.raise (evHerd i 2)).herdResult 1

/-- A SYNC_START given to this node (R132): it goes to the Bellwether. -/
def syncCommand (p : Path) (herd : Nat) (s : State) : State :=
  match (s.membersOf herd).head? with
  | none => s.herdResult 2
  | some i =>
    if s.get (F.NET_HERDi_STATUS_BW_EPOCH i) = 0 then s.herdResult 2
    else if s.hosting i then syncStart p herd i s
    else (s.herdWrite herd R.NET_HERD_CMD [0x100 + herd]).herdResult 0

/-- A write of NET_HERD_CMD: SYNC_START, STOP or START; without a ring it has no effect but its result. STOP and START reach
the member axes of this device in the same input latch (R122). -/
def herdCommand (p : Path) (w : Word) (s : State) : Bool × State :=
  let herd := bitsOf w 0 8
  let cmd := bitsOf w 8 8
  if cmd ≠ 1 ∧ cmd ≠ 3 ∧ cmd ≠ 4 then (false, s)
  else if !s.inRing then (true, s.herdResult 3)
  else if cmd = 1 then (true, syncCommand p herd s)
  else
    let s1 := if cmd = 3 then herdStop herd s else herdStart herd s
    (true, (s1.herdWrite herd (R.MOTn_CMD 0) [cmd]).herdResult 0)

/-- A NET_HERD_CMD write that a herd message brings: only its Bellwether takes a SYNC_START. -/
def herdCommandHere (p : Path) (w : Word) (s : State) : State :=
  let herd := bitsOf w 0 8
  match (s.membersOf herd).find? s.hosting with
  | some i => if bitsOf w 8 8 = 1 then syncStart p herd i s else s
  | none => s

/-! ## Root commands (R337, R341, R347) -/

/-- This node becomes root with the network time it has (half ns) and enumerates first. -/
def State.startRoot (s : State) (timeH : Nat) : State :=
  let s1 := ((s.put F.NET_RING_ROOT_HERE 1).put F.NET_RING_ISOLATED 0).modNet fun n =>
    { n with root := some s.node, rootPrio := s.get F.NET_CFG_PRIO, timeH := timeH, headerAt := (s.now + s.sub), passAt := (s.now + s.sub),
             rs := { restRoot with cycleNo := n.cycle.getD 0, nextTime := timeH, want := true, topo := n.rs.topo } }
  let s2 := (s1.put F.NET_TIME_STATUS_HOLDOVER 0).modNet fun n => { n with shift := 0, stepped := true }
  if s.locked then s2 else (s2.put F.NET_TIME_STATUS_LOCKED 1).raise (evNet 0)

/-- A candidate that has stayed ISOLATED becomes root of its segment and keeps its CYCLE_LEN and TIME_EPOCH (R337, R341). -/
def becomeRoot (s : State) : State :=
  if s.flag F.NET_RING_ISOLATED ∧ !s.rootHere ∧ 1 ≤ s.get F.NET_CFG_PRIO then
    let s1 := if s.get F.NET_CYCLE_LEN = 0 then s else s.put F.NET_ROOT_CYCLE_LEN (s.get F.NET_CYCLE_LEN)
    let s2 := if s1.get F.NET_TIME_STATUS_EPOCH = 0 then s1.put F.NET_TIME_STATUS_EPOCH 1 else s1
    s2.startRoot s2.net.timeH
  else s

/-- TIME_SET on the root (R347): slew below STEP_THR, else a step at the next cycle start; a TIME_SET during a slew
replaces what remains of it. -/
def timeSet (fromCal : Bool) (s : State) : Bool × State :=
  if !s.rootHere then (false, s)
  else
    let new := if fromCal then s.calTime else s.wide 64 R.NET_TIME_SET_LO
    let d := 2 * (new : Int) - ((s.net.timeH : Int) + 5 * s.sub)
    let small := decide (d.natAbs < s.get F.NET_TIME_CFG_STEP_THR * 2000000)
    let s1 := s.modNet fun n =>
      { n with rs := { n.rs with slew := if small then d else 0, step := if small then none else some d } }
    (true, s1.putB F.NET_TIME_STATUS_SLEWING (small && decide (d ≠ 0)))

/-- ENUMERATE on the root (R359). -/
def enumerate (s : State) : Bool × State :=
  if s.rootHere then (true, s.modNet fun n => { n with rs := { n.rs with want := true } }) else (false, s)

/-- A write of NET_ROOT_CMD. -/
def rootCmdWrite (w : Word) (s : State) : Bool × State :=
  match bitsOf w 0 8 with
  | 1 => timeSet (w.getLsbD 8) s
  | 2 => enumerate s
  | _ => (false, s)

/-- The bytes of the cycle frame on the wire with `nodes` slots, `recs` records and `mbx` mailbox slots (R319, R327). -/
def frameBytes (nodes recs mbx : Nat) : Nat :=
  60 + 36 * nodes + 28 * ((nodes + 63) / 64) + 24 * recs + 28 * ((recs + 63) / 64) + 64 * mbx + 28 * ((mbx + 15) / 16) + 44

/-- The nodes of the topology in force that have a number. -/
def State.ringNodes (s : State) : Nat := (s.net.rs.topo.filter fun e => e.node.isSome).length

/-- A write of NET_ROOT_CYCLE (R327): within its range, and on the root at least T_min and a whole number of frames. -/
def rootCycleWrite (w : Word) (s : State) : Bool × State :=
  let len := w.toNat
  let least := frameBytes s.ringNodes s.net.rs.records (s.get F.NET_ROOT_CFG_MBX_SLOTS) * 80 + s.net.rs.passNs + 5000
  if len < 250000 ∨ 64000000 < len ∨ (s.rootHere ∧ (len < least ∨ 2 * len % (5 * s.period) ≠ 0)) then (false, s)
  else (true, s.wr R.NET_ROOT_CYCLE w)

/-! ## The rows -/

/-- HERD_SYNC_START: a herd command with CMD = SYNC_START. -/
def execHerdSyncStart (p : Path) (w : Word) (s : State) : Host.Outcome State Fault Refusal :=
  liveN s fun s => (herdCommand p (setBits w 8 8 1) s).2

/-- HERD_STOP: a herd command with CMD = STOP. -/
def execHerdStop (p : Path) (w : Word) (s : State) : Host.Outcome State Fault Refusal :=
  liveN s fun s => (herdCommand p (setBits w 8 8 3) s).2

/-- HERD_START: a herd command with CMD = START. -/
def execHerdStart (p : Path) (w : Word) (s : State) : Host.Outcome State Fault Refusal :=
  liveN s fun s => (herdCommand p (setBits w 8 8 4) s).2

/-- BECOME_ROOT. -/
def execBecomeRoot (s : State) : Host.Outcome State Fault Refusal := liveN s becomeRoot

/-- TIME_SET. -/
def execTimeSet (_p : Path) (fromCal : Bool) (s : State) : Host.Outcome State Fault Refusal :=
  live s fun s => (timeSet fromCal s).2

/-- ENUMERATE. -/
def execEnumerate (_p : Path) (s : State) : Host.Outcome State Fault Refusal := live s fun s => (enumerate s).2

end Sys2Proof.Machine
end

