-- ==== Sys2Proof/Machine/Regs.lean ====
section
/-!
DEFINITION. The register space as an access path sees it (R5, R9 to R13, R439): reads with their snapshots, writes with
their staging, each write handed to the rule of its register; the windows (R66); the interrupt roll-up (R418).
-/
namespace Sys2Proof.Machine

/-! ## Wide values (R4, R5) -/

/-- The width of the wide value whose low word stands at offset `a`, and whether it is signed. -/
def wideAt (a : Nat) : Option (Nat × Bool) :=
  if 0x1000 ≤ a ∧ a < 0x2000 then
    let o := (a - 0x1000) % 0x200
    if [0x10, 0x18, 0x20, 0x28, 0x50, 0x58, 0x84].contains o then some (40, true)
    else if [0x40, 0x48, 0x68, 0x70, 0x90, 0x98, 0x118, 0x128, 0x148].contains o then some (48, true)
    else if o = 0x60 then some (48, false)
    else if o = 0x140 then some (64, false)
    else none
  else if 0x4400 ≤ a ∧ a < 0x4800 then
    let o := (a - 0x4400) % 0x80
    if o = 0x14 ∨ o = 0x28 then some (48, true) else if o = 0x1C then some (40, true) else none
  else if 0x4800 ≤ a ∧ a < 0x4C00 then (if (a - 0x4800) % 0x80 = 0x40 then some (48, true) else none)
  else if a = R.NET_TIME_LO ∨ a = R.NET_TIME_SET_LO ∨ a = R.SYS_SERIAL_LO then some (64, false)
  else if a = R.CAL_SEC_LO ∨ a = R.CAL_SET_LO then some (48, false)
  else none

/-- May the wide value at low offset `a` be written? -/
def wideWritable (a : Nat) : Bool :=
  if 0x1000 ≤ a ∧ a < 0x2000 then !([0x50, 0x98, 0x128].contains ((a - 0x1000) % 0x200))
  else if 0x4400 ≤ a ∧ a < 0x4800 then decide ((a - 0x4400) % 0x80 = 0x14)
  else decide (a = R.NET_TIME_SET_LO ∨ a = R.CAL_SET_LO)

/-- The low offset of the wide value whose upper word stands at offset `a`, with its width and sign. -/
def wideOfHi (a : Nat) : Option (Nat × Nat × Bool) :=
  if 4 ≤ a then (wideAt (a - 4)).map fun x => (a - 4, x.1, x.2) else none

/-- Drop the entry of a path and an offset. -/
def dropEntry (p : Path) (a : Nat) (l : List (Path × Nat × Word)) : List (Path × Nat × Word) :=
  l.filter fun e => !(decide (e.1 = p) && decide (e.2.1 = a))

/-- The entry of a path and an offset. -/
def findEntry (p : Path) (a : Nat) (l : List (Path × Nat × Word)) : Option Word :=
  (l.find? fun e => decide (e.1 = p) && decide (e.2.1 = a)).map (·.2.2)

/-- Stage an upper word on a path. -/
def State.stage (s : State) (p : Path) (a : Nat) (w : Word) : State :=
  { s with staged := (p, a, w) :: dropEntry p a s.staged }

/-- Latch an upper word into a path's snapshot. -/
def State.snap (s : State) (p : Path) (a : Nat) (w : Word) : State :=
  { s with snaps := (p, a, w) :: dropEntry p a s.snaps }

/-- The staging and the snapshots of a path end (R5). -/
def State.endPath (s : State) (p : Path) : State :=
  { s with staged := s.staged.filter fun e => decide (e.1 ≠ p), snaps := s.snaps.filter fun e => decide (e.1 ≠ p) }

/-! ## Interrupt roll-up (R418) -/

/-- Does any flag of a status word stand that its enable word enables? -/
def State.irq (s : State) (st en : Nat) : Bool := decide (s.rd st &&& s.rd en ≠ 0)

/-- The same over instances. -/
def State.irqAny (s : State) (k : Nat) (st en : Nat → Nat) : Bool := (List.range k).any fun n => s.irq (st n) (en n)

/-- Comparator `c` shows an enabled flag in its status register. -/
def State.irqCmp (s : State) (c : Nat) : Bool :=
  (s.flag (F.CMPc_STATUS_THR_CLIP c) && s.flag F.CMP_EVT_ENABLE_THR_CLIP) ||
  (s.flag (F.CMPc_STATUS_SELFTEST_FAIL c) && s.flag F.CMP_EVT_ENABLE_SELFTEST_FAIL) ||
  (s.flag (F.CMPc_STATUS_RB_FAIL c) && s.flag F.CMP_EVT_ENABLE_RB_FAIL)

/-- The roll-up bits in order: FRM, CFG, MOT with gearing, CUR, PWM with timer events, GDR, CSA, FBK, OBS, PMC, CMP, NET
with herds, NVS, SUP. -/
def State.rollBits (s : State) : List Bool :=
  let csa := s.rd R.CSA_EVT_ENABLE
  [s.irq R.FRM_IRQ_STATUS R.FRM_IRQ_ENABLE, s.irq R.CFG_IRQ_STATUS R.CFG_IRQ_ENABLE,
   s.irqAny 8 R.MOTn_IRQ_STATUS R.MOTn_IRQ_ENABLE || s.irqAny 8 R.MOTn_GEAR_IRQ_STATUS R.MOTn_GEAR_IRQ_ENABLE,
   s.irqAny 8 R.CURn_IRQ_STATUS R.CURn_IRQ_ENABLE,
   s.irq R.PWM_IRQ_STATUS R.PWM_IRQ_ENABLE || s.irq R.PWM_EVT_STATUS R.PWM_EVT_ENABLE,
   s.irq R.GDR_IRQ_STATUS R.GDR_IRQ_ENABLE,
   (csa.getLsbD 0 && decide (s.rd R.CSA_EVT_CLIP ≠ 0)) || (csa.getLsbD 4 && decide (s.rd R.CSA_EVT_SETTLED ≠ 0)) ||
     (csa.getLsbD 1 && decide (s.get F.CSA_EVT_MISC_CM_OUT ≠ 0)) ||
     (csa.getLsbD 2 && decide (s.get F.CSA_EVT_MISC_DCB_LIMIT ≠ 0)) ||
     (csa.getLsbD 3 && s.flag F.CSA_EVT_MISC_SYNC_DONE),
   s.irqAny 8 R.FBKn_IRQ_STATUS R.FBKn_IRQ_ENABLE, s.irqAny 8 R.OBSn_IRQ_STATUS R.OBSn_IRQ_ENABLE,
   s.irq R.PMC_IRQ_STATUS R.PMC_IRQ_ENABLE ||
     (s.flag F.PMC_EVT_ENABLE_LIMIT && decide (s.rd R.PMC_EVT_LIMIT ≠ 0)) ||
     (s.flag F.PMC_EVT_ENABLE_OPEN_WIRE && decide (s.rd R.PMC_EVT_OPEN ≠ 0)),
   (s.flag F.CMP_EVT_ENABLE_TRIP && (decide (s.rd R.CMP_TRIP_LO ≠ 0) || decide (s.rd R.CMP_TRIP_HI ≠ 0))) ||
     (List.range 40).any s.irqCmp,
   s.irq R.NET_IRQ_STATUS R.NET_IRQ_ENABLE ||
     s.irqAny 16 R.NET_HERDi_STATUS (fun _ => R.NET_HERD_IRQ_ENABLE),
   s.irq R.NVS_IRQ_STATUS R.NVS_IRQ_ENABLE, s.irq R.SUP_IRQ_STATUS R.SUP_IRQ_ENABLE]

/-- SYS_IRQ_ROLLUP. -/
def State.rollup (s : State) : Nat := (s.rollBits.zip (List.range 14)).foldl (fun w b => w + b2n b.1 * 2 ^ b.2) 0

/-- The level at the INT_N pin: asserted low while INT_EN is 1 and a roll-up bit stands; released in reset and without
VIO (R418). -/
def State.intN (s : State) : Bool :=
  s.held || !s.flag F.SUP_STATUS_VIO_OK || !(s.flag F.HOST_CFG_INT_EN && decide (s.rollup ≠ 0))

/-! ## Reads -/

/-- The counter of axis `n` in core cycles since the start of its present period, at the present instant of the frame. -/
def State.pwmCycle (s : State) (n : Nat) : Nat :=
  (s.sub + s.get F.FRM_PERIOD_CYCLES - s.cfg.run.dev.offset.getD n 0) % Nat.max 1 (s.pwmP n)

/-- The word of PWM_FAULT_SRCn with the sources that are active now. -/
def State.faultSrcWord (s : State) (n : Nat) : Word :=
  setBits (s.rd (R.PWM_FAULT_SRCn n)) 16 5
    (b2n (!s.flag F.GDR_STATUS_FAULT_N) + 2 * b2n (s.sinkLevel (0x200 + n)) + 4 * b2n (s.sinkLevel 0x208) +
      8 * b2n (s.gdrTrip n) + 16 * b2n (s.flag F.FRM_STATUS_OVR_FAULT))

/-- A word of data memory. -/
def State.dmemWord (s : State) (w : Nat) : Word := SMap.get (fun _ => (0 : Word)) s.frm.dmem w

/-- What an offset of a window shows (R66): a word of data memory, or a word of table memory. -/
inductive WinWord where
  | data (w : Nat)
  | table (w : Nat)
deriving DecidableEq, Repr

/-- The window word at an offset from 0x8000 on. -/
def State.winWord (s : State) (a : Nat) : WinWord :=
  let o := a % 0x8000
  if o < 0x4000 then .data (o / 0x800 * 0x600 + o % 0x800 / 4)
  else if o < 0x6000 then .table (s.get F.CFG_TABLE_PAGE_PAGE * 2048 + o % 0x2000 / 4)
  else .data (0x3000 + o % 0x2000 / 4)

/-- Registers whose value is computed when they are read, and fields that a hidden part of the state gives. -/
def State.derived (s : State) (p : Path) (a : Nat) : Word :=
  if a = R.SYS_IRQ_ROLLUP then BitVec.ofNat 32 s.rollup
  else if a = R.FRM_MAINT_RESULT then s.frm.maintResult.get (portOf p)
  else if a = R.NET_TIME_LO then BitVec.ofNat 32 ((s.net.timeH + 5 * s.sub) / 2)
  else if a = R.NET_TIME_HI then BitVec.ofNat 32 ((s.net.timeH + 5 * s.sub) / 2 / 2 ^ 32)
  else if a = R.NET_MBX_STATUS then setBits (s.rd a) 0 9 s.log.evq.length
  else if a = R.NET_ROLE then s.role (s.get F.NET_ROLE_SEL_SEL)
  else if R.NET_KEYk 0 ≤ a ∧ a ≤ R.NET_KEYk 15 then 0
  else if 0x2800 ≤ a ∧ a < 0x2C00 ∧ a % 0x20 = 0x1C then
    let k := (a - 0x2800) / 0x20
    setBits (setBits (setBits (s.rd a) 0 3 (s.chanState k)) 4 1 (b2n (s.br k).pend.isSome)) 5 1 (b2n (s.br k).late.isSome)
  else if 0x2C00 ≤ a ∧ a < 0x2D00 ∧ a % 0x20 = 0x18 then
    let u := (a - 0x2C00) / 0x20
    setBits (setBits (s.rd a) 1 1 (b2n (s.axu u).pend.isSome)) 2 1 (b2n (s.axu u).late.isSome)
  else if R.PWM_AXn_COUNT 0 ≤ a ∧ a ≤ R.PWM_AXn_COUNT 7 then
    let n := (a - R.PWM_AXn_COUNT 0) / 4
    BitVec.ofNat 32 (s.pwmCycle n + (s.pw n).idx * 2 ^ 16)
  else if R.PWM_FAULT_SRCn 0 ≤ a ∧ a ≤ R.PWM_FAULT_SRCn 7 then s.faultSrcWord ((a - R.PWM_FAULT_SRCn 0) / 4)
  else if a = R.PWM_STATUS then BitVec.ofNat 32 (b2n s.halted)
  else if 0x3000 ≤ a ∧ a < 0x3200 ∧ a % 0x10 = 0xC then
    let b := s.br ((a - 0x3000) / 0x10)
    setBits (setBits (setBits (s.rd a) 7 1 (b2n b.hsOn)) 6 1 (b2n b.lsOn)) 2 1 (b2n b.wait.isSome)
  else if a = R.GDR_STATUS then
    setBits (s.rd a) 8 8 ((List.range 8).foldl (fun w n => w + b2n (s.gdrTrip n) * 2 ^ n) 0)
  else if R.NVS_BUF 0 ≤ a ∧ a ≤ R.NVS_BUF 255 then s.nvsBufRead ((a - R.NVS_BUF 0) / 4)
  else s.rd a

/-- The upper word as it reads: the value's bits with its sign (R4). -/
def upperWord (w : Word) (width : Nat) (signed : Bool) : Word :=
  if signed then BitVec.ofNat 32 (unsext 32 (sext (width - 32) w.toNat)) else BitVec.ofNat 32 (w.toNat % 2 ^ (width - 32))

/-- A read clears the RC fields: they return to their reset value. -/
def State.readClear (s : State) (a : Nat) : State :=
  match findRow a with
  | some r => if r.rc = 0 then s else s.wr a (mergeMask (s.rd a) (resetWord a) r.rc)
  | none => s

/-- A read of the register at offset `a` on a path: its word, and the state after what the read does. -/
def readReg (p : Path) (a : Nat) (s : State) : Word × State :=
  if 0x8000 ≤ a then
    (match s.winWord a with
      | .data w => s.dmemWord w
      | .table w => s.tableWord w, s)
  else if 0x7800 ≤ a then mramRead a s
  else
    match wideAt a with
    | some (width, signed) =>
      let s1 := if a = R.CAL_SEC_LO then calSnapshot s else s
      (s1.derived p a, s1.snap p (a + 4) (upperWord (s1.derived p (a + 4)) width signed))
    | none =>
      match wideOfHi a with
      | some (_, width, signed) => ((findEntry p a s.snaps).getD (upperWord (s.derived p a) width signed), s)
      | none => (s.derived p a, s.readClear a)

/-! ## Writes of wide values -/

/-- A write that waits for the latch: a host command is queued for it, a ring message and an image act in it. -/
def State.atLatch (s : State) (p : Path) (c : Instr) (now : State → State) : State :=
  match p with
  | .host | .dbg => { s with latchQ := s.latchQ ++ [.cmd c] }
  | .ring _ _ | .image => now s

/-- MOTn_STATUS.STATE reads MOVING, STOPPING or HOMING (R83). -/
def State.inMotion (s : State) (n : Nat) : Bool :=
  decide (2 ≤ s.get (F.MOTn_STATUS_STATE n) ∧ s.get (F.MOTn_STATUS_STATE n) ≤ 4)

/-- A write of a ramp speed at offset `o` of axis `n` (R83). -/
def speedWrite (n o : Nat) (v : Nat) (s : State) : Bool × State :=
  if sext 40 v < 0 ∨ (o = 0x28 ∧ sext 40 v < 0x100) ∨ (o = 0x18 ∧ v = 0 ∧ s.inMotion n) ∨
      (o = 0x84 ∧ v = 0 ∧ s.get (F.MOTn_STATUS_STATE n) = 4) then (false, s)
  else (true, s.putWide 40 (0x1000 + n * 0x200 + o) v)

/-- A write of MOTn_MODULO (R82). -/
def moduloWrite (p : Path) (n v : Nat) (s : State) : Bool × State :=
  let same := decide (v = s.modulo n)
  if v = 1 ∨ 2 ^ 47 < v ∨ (p ≠ .image ∧ s.armed n ∧ !same) then (false, s)
  else if same then (true, s)
  else (true, (s.putWide 48 (R.MOTn_MODULO n) v).modAx n fun a => { a with modChanged := true })

/-- A write of MOTn_SOFT_MIN (offset 0x68) or MOTn_SOFT_MAX (R107). -/
def softWrite (n o : Nat) (v : Nat) (s : State) : Bool × State :=
  let lo := if o = 0x68 then sext 48 v else s.wideS 48 (R.MOTn_SOFT_MIN n)
  let hi := if o = 0x68 then s.wideS 48 (R.MOTn_SOFT_MAX n) else sext 48 v
  if hi < lo then (false, s) else (true, s.putWide 48 (0x1000 + n * 0x200 + o) v)

/-- A write of a wide value of axis `n` at offset `o` of its block. -/
def writeMotWide (p : Path) (n : AxisIx) (o v : Nat) (s : State) : Bool × State :=
  let k := n.val
  if o = 0x40 then (true, s.atLatch p (.targetWrite p n (BitVec.ofNat 48 v)) (targetWrite k (sext 48 v)))
  else if o = 0x48 then
    match p with
    | .host | .dbg => (true, s.atLatch p (.posWrite p n (BitVec.ofNat 48 v)) id)
    | .ring _ _ | .image => posFull k (sext 48 v) s
  else if o = 0x58 then (true, s.atLatch p (.vtargetWrite p n (BitVec.ofNat 40 v)) (vtargetWrite k (sext 40 v)))
  else if o = 0x60 then moduloWrite p k v s
  else if o = 0x68 ∨ o = 0x70 then softWrite k o v s
  else if o = 0x90 then (true, s.putWide 48 (R.MOTn_HOME_OFFSET k) v)
  else if o = 0x118 then
    (if s.flag (F.MOTn_GEAR_STATUS_CHG_ARMED k) then (false, s) else (true, s.putWide 48 (R.MOTn_GEAR_CHG_POS k) v))
  else if o = 0x140 then (true, s.putWide 64 (R.MOTn_TCMD_TIME k) v)
  else if o = 0x148 then (true, s.putWide 48 (R.MOTn_TCMD_ARG k) v)
  else speedWrite k o v s

/-- A write of the wide value at low offset `a`. -/
def writeWide (p : Path) (a v : Nat) (s : State) : Bool × State :=
  if 0x1000 ≤ a ∧ a < 0x2000 then
    writeMotWide p (Fin.ofNat 8 ((a - 0x1000) / 0x200)) ((a - 0x1000) % 0x200) v s
  else if 0x4400 ≤ a ∧ a < 0x4800 then fbPosFull ((a - 0x4400) / 0x80) (sext 48 v) s
  else if a = R.NET_TIME_SET_LO then (true, s.putWide 64 a v)
  else if a = R.CAL_SET_LO then
    let r := calSet (BitVec.ofNat 32 v) (s.wr R.CAL_SET_HI (BitVec.ofNat 32 (v / 2 ^ 32 % 65536)))
    if r.1 then r else (false, s)
  else (true, s)

/-! ## Writes of one word, block by block -/

/-- FRM_STATUS.STATE: OVR_FAULT while its flag stands, HALTED in a debug halt, NO_TABLE with an empty table, RUNNING
(R32). -/
def State.frmState (s : State) : Nat :=
  if s.flag F.FRM_STATUS_OVR_FAULT then 3 else if s.halted then 2 else if s.frm.tasks.isEmpty then 0 else 1

/-- Show FRM_STATUS.STATE. -/
def State.frmShow (s : State) : State := s.put F.FRM_STATUS_STATE s.frmState

/-- FRM: clearing OVR_FAULT gives STATE back (R32). -/
def writeFrm (p : Path) (a : Nat) (w : Word) (s : State) : Bool × State :=
  if a = R.FRM_STATUS then
    let r := plainWrite p a w s
    (r.1, r.2.frmShow)
  else if a = R.FRM_MAINT_REQ then (true, maintRequest p w s)
  else if a = R.FRM_MAINT_ABORT then (true, maintAbort w s)
  else plainWrite p a w s

/-- CFG. -/
def writeCfg (p : Path) (a : Nat) (w : Word) (s : State) : Bool × State :=
  if a = R.CFG_LOAD_CMD then loadCmd p w s
  else if a = R.CFG_LOAD_ADDR then loadAddr p w s
  else if a = R.CFG_LOAD_DATA then loadData p w s
  else if a = R.CFG_OTP_CMD then otpCmd (bitsOf w 24 8) (bitsOf w 8 2) (bitsOf w 0 8) s
  else if R.CFG_OTP_DATAi 0 ≤ a ∧ a ≤ R.CFG_OTP_DATAi 15 then
    (true, { s with cfg := { s.cfg with
      otpData := s.cfg.otpData.setIfInBounds ((a - R.CFG_OTP_DATAi 0) / 4) w } })
  else plainWrite p a w s

/-- A write of MOTn_MODE on its port (R90): judged there, taken by the latch. -/
def modeOnPort (p : Path) (n : AxisIx) (w : Word) (s : State) : Bool × State :=
  match p with
  | .image => (decide (bitsOf w 0 3 ≤ 3 ∧ bitsOf w 4 2 ≠ 3), modeApply n.val w s)
  | .ring _ _ => modeWrite n.val w s
  | .host | .dbg =>
    if s.modePort n.val w then (true, s.atLatch p (.modeWrite p n w) id) else (false, (modeWrite n.val w s).2)

/-- The command of a MOTn_CMD code. -/
def motCommand (p : Path) (n : AxisIx) (code : Nat) : Option Instr :=
  match code with
  | 1 => some (.arm p n)
  | 2 => some (.disarm p n)
  | 3 => some (.stop p n)
  | 4 => some (.start p n)
  | 5 => some (.home p n)
  | 6 => some (.clearLimit p n)
  | 7 => some (.clearFault p n)
  | 8 => some (.clearUncertain p n)
  | _ => none

/-- Bounds and conditions of the gear registers (R112, R115, R120): may the write stand? -/
def State.gearOk (s : State) (n o : Nat) (w : Word) : Bool :=
  let eng := s.flag (F.MOTn_GEAR_STATUS_ENGAGED n)
  let arm := s.flag (F.MOTn_GEAR_STATUS_CHG_ARMED n)
  if o = 0x100 then !eng && !decide (bitsOf w 0 2 = 1 ∧ bitsOf w 12 3 = n)
  else if o = 0x104 then !eng && decide (w.toNat ≠ 2 ^ 31)
  else if o = 0x108 then !eng && decide (w.toNat ≠ 0 ∧ w.toNat ≤ 2 ^ 31)
  else if o = 0x10C then !arm && decide (w.toNat ≠ 2 ^ 31)
  else if o = 0x110 then !arm && decide (w.toNat ≠ 0 ∧ w.toNat ≤ 2 ^ 31)
  else if o = 0x114 then !arm && decide (w.toNat < 2 ^ 20)
  else true

/-- MOT with gearing. -/
def writeMot (p : Path) (n : AxisIx) (o : Nat) (w : Word) (s : State) : Bool × State :=
  let k := n.val
  if o = 0 then modeOnPort p n w s
  else if o = 4 then
    (match motCommand p n (bitsOf w 0 8) with
      | some c => (true, s.atLatch p c (axisCommand p k (bitsOf w 0 8)))
      | none => (false, s))
  else if o = 0x120 then
    let dir := bitsOf w 1 2
    if dir = 3 then (false, s)
    else
      let canc := w.getLsbD 3
      let c : Instr := if canc then .chgCancel p n else .chgArm p n (Fin.ofNat 4 dir)
      match p with
      | .host | .dbg =>
        if canc ∨ w.getLsbD 0 then (true, (s.put (F.MOTn_GEAR_CTRL_CHG_DIR k) dir).atLatch p c id)
        else (true, s.put (F.MOTn_GEAR_CTRL_CHG_DIR k) dir)
      | .ring _ _ | .image => gearCtrl k dir (w.getLsbD 0) canc s
  else if o = 0x150 then
    match p with
    | .host | .dbg =>
      (true, { s with latchQ := s.latchQ ++
        [.submit p n w (s.wide 64 (R.MOTn_TCMD_TIME k)) (s.wide 48 (R.MOTn_TCMD_ARG k))] })
    | .ring _ _ | .image => (true, tcmdWrite p k w s)
  else if o = 0x168 then (true, s.atLatch p (.tcmdCancel p n w) (tcmdCancel k w))
  else if (o = 0x30 ∨ o = 0x34 ∨ o = 0x38 ∨ o = 0x3C) ∧ w = 0 ∧ s.inMotion k then (false, s)
  else if 0x100 ≤ o ∧ !s.gearOk k o w then (false, s)
  else plainWrite p (0x1000 + k * 0x200 + o) w s

/-- CUR. -/
def writeCur (p : Path) (n o a : Nat) (w : Word) (s : State) : Bool × State :=
  if o = 0 then curCfgWrite p n w s
  else if o = 0x1C then standstillWrite n w s
  else if o = 0x20 then guardWrite n w s
  else if o = 0x24 then (true, commOffsetWrite n w s)
  else if o = 0x2C then encScaleFull p n false w s
  else if o = 0x30 then encScaleFull p n true w s
  else plainWrite p a w s

/-- PWM. -/
def writePwm (p : Path) (a : Nat) (w : Word) (s : State) : Bool × State :=
  if a < 0x2C00 then
    let k := (a - 0x2800) / 0x20
    if a % 0x20 = 8 then (if w.getLsbD 0 then pwmCommit k (s.pwmCycle (k / 4)) s else (!s.armed (k / 4), s))
    else if a % 0x20 = 0x18 then pwmForce k w s
    else plainWrite p a w s
  else if a < 0x2D00 then
    let u := (a - 0x2C00) / 0x20
    if a % 0x20 = 8 then
      (true, if w.getLsbD 0 then auxCommit u (s.pwmCycle (s.get (F.PWM_AUXa_CFG_SYNC_AXIS u))) s else s)
    else if a % 0x20 = 0x14 then auxCfgWrite p u w s
    else plainWrite p a w s
  else if R.PWM_EVTu_CFG 0 ≤ a ∧ a ≤ R.PWM_EVTu_CFG 15 then (true, timerCfgWrite ((a - R.PWM_EVTu_CFG 0) / 4) w s)
  else if a = R.PWM_FAULT_LATCH then (true, faultLatchClear w s)
  else if a = R.PWM_FAULT_FORCE then (true, pwmFaultForce w s)
  else if a = R.PWM_EVT_STATUS then (true, evtStatusClear w s)
  else plainWrite p a w s

/-- GDR. -/
def writeGdr (p : Path) (a : Nat) (w : Word) (s : State) : Bool × State :=
  if a = R.GDR_BST_UV then (true, bstUvClear w s)
  else if a = R.GDR_HS_FAIL then (true, hsFailClear w s)
  else if a = R.GDR_STATUS then (true, vdrvTripClear w s)
  else if R.GDR_GUARDn 0 ≤ a ∧ a ≤ R.GDR_GUARDn 1 then
    let r := plainWrite p a w s
    (r.1, r.2.copyDrven ((a - R.GDR_GUARDn 0) / 4))
  else plainWrite p a w s

/-- CSA. -/
def writeCsa (p : Path) (a : Nat) (w : Word) (s : State) : Bool × State :=
  if a < 0x3800 then
    let c := (a - 0x3400) / 0x20
    if a % 0x20 = 0 then csaCfgWrite p c w s
    else if a % 0x20 = 4 then csaOffsetWrite c w s
    else if a % 0x20 = 0x1C ∧ 16 ≤ c then dcbEstWrite p c w s
    else plainWrite p a w s
  else if a = R.CSA_CTRL then (true, csaSync w s)
  else if R.CSA_DCBn_CFG 0 ≤ a ∧ a ≤ R.CSA_DCBn_CFG 7 then dcbCfgWrite p ((a - R.CSA_DCBn_CFG 0) / 4) w s
  else plainWrite p a w s

/-- PMC. -/
def writePmc (p : Path) (a : Nat) (w : Word) (s : State) : Bool × State :=
  if a = R.PMC_CTRL then pmcCtrlWrite w s
  else if a = R.PMC_SCAN_CFG then pmcScanCfgWrite w s
  else if a = R.PMC_REF_CFG then pmcRefWrite p w s
  else if a = R.PMC_REF_STATUS then (true, refFailedClear w s)
  else if R.PMC_CFGe 0 ≤ a then
    let e := (a - R.PMC_CFGe 0) / 0x18
    let o := (a - R.PMC_CFGe 0) % 0x18
    if o = 0 then pmcCfgWrite e w s
    else if o = 0xC then (true, pmcLimWrite e false w s)
    else if o = 0x10 then (true, pmcLimWrite e true w s)
    else plainWrite p a w s
  else plainWrite p a w s

/-- FBK. -/
def writeFbk (p : Path) (n o a : Nat) (w : Word) (s : State) : Bool × State :=
  if o = 0 then fbCfgFull p n w s
  else if o = 0xC then (true, fbFaultClear n w s)
  else if o = 0x38 then fbChkWrite p n w s
  else if o = 0x3C then fbAmpWrite n w s
  else if o = 0x44 then fbSsiWrite p n false w s
  else if o = 0x48 then fbSsiWrite p n true w s
  else plainWrite p a w s

/-- A management key word: from host port H alone, kept for the identity record (R356). -/
def keyWrite (p : Path) (a : Nat) (w : Word) (s : State) : Bool × State :=
  match p with
  | .host | .dbg => (true, (s.wr a w).queueRecord 16)
  | .ring _ _ | .image => (false, s)

/-- The herd command of a NET_HERD_CMD word. -/
def herdInstr (p : Path) (w : Word) : Option Instr :=
  match bitsOf w 8 8 with
  | 1 => some (.herdSyncStart p w)
  | 3 => some (.herdStop p w)
  | 4 => some (.herdStart p w)
  | _ => none

/-- NET. -/
def writeNet (p : Path) (a : Nat) (w : Word) (s : State) : Bool × State :=
  if a < 0x50C0 then
    let q := (a - 0x5000) / 0x40
    if a % 0x40 = 0 then (true, netCfgWrite q w s)
    else if a % 0x40 = 0x10 then (true, netOffsetWrite q w s)
    else plainWrite p a w s
  else if a = R.NET_ROOT_CMD then rootCmdWrite w s
  else if a = R.NET_ROOT_CYCLE then rootCycleWrite w s
  else if R.NET_KEYk 0 ≤ a ∧ a ≤ R.NET_KEYk 15 then keyWrite p a w s
  else if R.NET_HERDi_CFG 0 ≤ a ∧ a < R.NET_HERD_HOST ∧ a % 0x10 = 0 then herdCfgWrite ((a - R.NET_HERDi_CFG 0) / 0x10) w s
  else if a = R.NET_HERD_HOST then herdHostWrite p w s
  else if a = R.NET_HERD_CMD then
    (match herdInstr p w with
      | some c => (true, s.atLatch p c fun s => (herdCommand p w s).2)
      | none => (false, s))
  else plainWrite p a w s

/-- NVS. -/
def writeNvs (p : Path) (a : Nat) (w : Word) (s : State) : Bool × State :=
  if a = R.NVS_CMD then nvsCmd w s
  else if a = R.NVS_REC_LEN then nvsLenWrite w s
  else if a = R.NVS_LOG_SEL then (true, logSelect w s)
  else if R.NVS_BUF 0 ≤ a ∧ a ≤ R.NVS_BUF 255 then nvsBufWrite ((a - R.NVS_BUF 0) / 4) w s
  else plainWrite p a w s

/-- SUP and the calendar clock. -/
def writeSup (p : Path) (a : Nat) (w : Word) (s : State) : Bool × State :=
  if a = R.SUP_VM_CFG then vmCfgWrite p w s
  else if a = R.SUP_VDRV_CFG then vdrvCfgWrite p w s
  else if a = R.SUP_RST_CMD then rstCmd w s
  else if a = R.SUP_WDT_CFG then wdtCfgWrite w s
  else if a = R.SUP_WDT_KICK then wdtKick w s
  else if a = R.CAL_STATUS then (true, calStatusClear w s)
  else plainWrite p a w s

/-- Host, debug and test. -/
def writeDbg (p : Path) (a : Nat) (w : Word) (s : State) : Bool × State :=
  if a = R.DBG_CTRL then dbgCtrl w s
  else if a = R.DBG_LOCK then dbgLock w s
  else if a = R.TEST_CTRL then testCtrl w s
  else if 0x7800 ≤ a then mramWrite a w s
  else plainWrite p a w s

/-- Is the data-memory word covered by an HOST_W entry, or shown by a version 2 image (R66)? -/
def State.hostWord (s : State) (w : Nat) : Bool :=
  decide (s.cfg.run.format = 2) || s.cfg.run.parts.any fun q => q.params.any fun e =>
    e.dmem && e.hostW && decide (e.addr ≤ w ∧ w < e.addr + e.data.length)

/-- A write into a window (R26, R66): data memory takes it at the next input latch; table memory only in TABLE_WRITE. -/
def writeWindow (a : Nat) (w : Word) (s : State) : Bool × State :=
  match s.winWord a with
  | .data i =>
    if s.hostWord i then (true, { s with frm := { s.frm with winQ := s.frm.winQ ++ [(i, w)] } }) else (false, s)
  | .table i => if s.testMode = 1 then (true, s.setTableWord i w) else (false, s)

/-- One word written to the register at offset `a`, which holds no wide value. -/
def writeWord (p : Path) (a : Nat) (w : Word) (s : State) : Bool × State :=
  if 0x8000 ≤ a then writeWindow a w s
  else if (findRow a).isNone then (true, s)
  else if a < 0x800 then writeFrm p a w s
  else if a < 0x1000 then writeCfg p a w s
  else if a < 0x2000 then writeMot p (Fin.ofNat 8 ((a - 0x1000) / 0x200)) ((a - 0x1000) % 0x200) w s
  else if a < 0x2800 then writeCur p ((a - 0x2000) / 0x100) ((a - 0x2000) % 0x100) a w s
  else if a < 0x3000 then writePwm p a w s
  else if a < 0x3400 then writeGdr p a w s
  else if a < 0x3C00 then writeCsa p a w s
  else if a < 0x4000 then writePmc p a w s
  else if a < 0x4280 then
    (if a % 0x10 = 0 then cmpCfgWrite p ((a - 0x4000) / 0x10) w s
     else if a % 0x10 = 4 then cmpDacWrite ((a - 0x4000) / 0x10) w s
     else plainWrite p a w s)
  else if a < 0x4400 then plainWrite p a w s
  else if a < 0x4800 then writeFbk p ((a - 0x4400) / 0x80) ((a - 0x4400) % 0x80) a w s
  else if a < 0x5000 then
    (if (a - 0x4800) % 0x80 = 0 then obsCfgWrite p ((a - 0x4800) / 0x80) w s
     else if (a - 0x4800) % 0x80 = 4 then motorRWrite ((a - 0x4800) / 0x80) w s
     else if (a - 0x4800) % 0x80 = 0x1C then devCfgWrite p ((a - 0x4800) / 0x80) w s
     else plainWrite p a w s)
  else if a < 0x6000 then writeNet p a w s
  else if a < 0x6800 then writeNvs p a w s
  else if a < 0x7000 then writeSup p a w s
  else writeDbg p a w s

/-- A write of the low word of a wide value: it commits with the staged upper word of its path, or with the upper bits
that the value holds; the staged word is discarded (R5). -/
def writeLow (p : Path) (a width : Nat) (w : Word) (s : State) : Bool × State :=
  let hi := (findEntry p (a + 4) s.staged).getD (s.rd (a + 4))
  let s1 := { s with staged := dropEntry p (a + 4) s.staged }
  if wideWritable a then writeWide p a (w.toNat + 2 ^ 32 * (hi.toNat % 2 ^ (width - 32))) s1 else (true, s1)

/-- A write of the register at offset `a` on a path: whether it is accepted (R11), and the state after it. -/
def writeReg (p : Path) (a : Nat) (w : Word) (s : State) : Bool × State :=
  match wideAt a, wideOfHi a with
  | some (width, _), _ =>
    let r := writeLow p a width w s
    if r.1 then (true, r.2.safetyWritten a) else r
  | none, some (lo, _, _) => (true, if wideWritable lo then s.stage p a w else s)
  | none, none =>
    let r := writeWord p a w s
    if r.1 then (true, r.2.safetyWritten a) else r

/-- Words written to ascending offsets, up to the first that is refused: how many executed, whether one was refused. A low
word that its upper word follows commits the whole value (R354). -/
def writeSeq (p : Path) : Nat → List Word → Nat → State → Nat × Bool × State
  | _, [], k, s => (k, false, s)
  | a, [w], k, s =>
    let r := writeReg p a w s
    (if r.1 then k + 1 else k, !r.1, r.2)
  | a, w :: h :: l, k, s =>
    let s1 := match wideAt a with
      | some _ => if wideWritable a then s.stage p (a + 4) h else s
      | none => s
    let r := writeReg p a w s1
    if r.1 then writeSeq p (a + 4) (h :: l) (k + 1) r.2 else (k, true, r.2)

/-- OVR_FAULT_CLEAR: a write of 1 to FRM_STATUS.OVR_FAULT. -/
def execOvrFaultClear (p : Path) (s : State) : Host.Outcome State Fault Refusal :=
  live s fun s => (writeFrm p R.FRM_STATUS 8 s).2

/-- CHG_ARM: a write of MOTn_GEAR_CTRL with CHG_ARM as the latch takes it. -/
def execChgArm (_p : Path) (n : AxisIx) (dir : Fin 4) (s : State) : Host.Outcome State Fault Refusal :=
  live s fun s => (gearCtrl n.val dir.val true false s).2

/-- CHG_CANCEL: a write of MOTn_GEAR_CTRL with CHG_CANCEL as the latch takes it. -/
def execChgCancel (_p : Path) (n : AxisIx) (s : State) : Host.Outcome State Fault Refusal :=
  live s fun s => (gearCtrl n.val (s.get (F.MOTn_GEAR_CTRL_CHG_DIR n.val)) false true s).2

/-- TCMD_SUBMIT: a write of MOTn_TCMD_SUBMIT as the latch takes it. -/
def execTcmdSubmit (p : Path) (n : AxisIx) (w : Word) (s : State) : Host.Outcome State Fault Refusal :=
  live s (tcmdWrite p n.val w)

/-- TCMD_CANCEL: a write of MOTn_TCMD_CANCEL as the latch takes it. -/
def execTcmdCancel (_p : Path) (n : AxisIx) (w : Word) (s : State) : Host.Outcome State Fault Refusal :=
  live s (tcmdCancel n.val w)

/-- TCMD_EXECUTE: the command of slot `j` is due. -/
def execTcmdExecute (n : AxisIx) (j : Fin 4) (s : State) : Host.Outcome State Fault Refusal :=
  live s fun s => if (s.dueSlots n.val).contains j.val then tcmdExecute n.val j.val s else s

/-! ## The rows of the register space -/

/-- The offset of a word, as the paths carry it: the low two bits are 0 on an aligned access. -/
def aligned (a : BitVec 16) : Bool := decide (a.toNat % 4 = 0)

/-- REGISTER_WRITE: a word written on a path. -/
def execRegisterWrite (p : Path) (a : BitVec 16) (w : Word) (s : State) : Host.Outcome State Fault Refusal :=
  liveNA s fun s => if aligned a then (writeReg p a.toNat w s).2 else s

/-- W1C_WRITE: a word written to a register with W1C or W1S bits. -/
def execW1cWrite (p : Path) (a : BitVec 16) (w : Word) (s : State) : Host.Outcome State Fault Refusal :=
  liveNA s fun s => if aligned a then (writeReg p a.toNat w s).2 else s

/-- RC_READ: a read of a register with RC fields. -/
def execRcRead (p : Path) (a : BitVec 16) (s : State) : Host.Outcome State Fault Refusal :=
  live s fun s => if aligned a then (readReg p a.toNat s).2 else s

/-- WIDE_LOW_READ: a read of the low word of a wide value. -/
def execWideLowRead (p : Path) (a : BitVec 16) (s : State) : Host.Outcome State Fault Refusal :=
  live s fun s => if aligned a then (readReg p a.toNat s).2 else s

/-- WIDE_LOW_WRITE: a write of the low word of a wide value. -/
def execWideLowWrite (p : Path) (a : BitVec 16) (w : Word) (s : State) : Host.Outcome State Fault Refusal :=
  liveNA s fun s => if aligned a then (writeReg p a.toNat w s).2 else s

/-- The 50 bits that the shift of DBG_ACCESS returns. -/
def dbgWord (r : Nat × Word) : Nat := r.1 * 2 ^ 48 + r.2.toNat

/-- A DBG_ACCESS shift: the previous result is captured, and the new access is carried out; behind the debug lock the
instruction acts as BYPASS (R422). -/
def State.dbgShift (s : State) (f : State → (Nat × Word) × State) : State :=
  if s.dbgLocked then s.tapBypass
  else
    let r := f (s.tapLoad 0x10 (dbgWord s.dbg.result))
    { r.2 with dbg := { r.2.dbg with result := r.1 } }

/-- DBG_ACCESS_READ. -/
def execDbgAccessRead (a : BitVec 16) (s : State) : Host.Outcome State Fault Refusal :=
  liveNA s fun s => s.dbgShift fun s =>
    if aligned a then
      let r := readReg .dbg a.toNat s
      ((0, r.1), r.2)
    else ((1, 0), s)

/-- DBG_ACCESS_WRITE. -/
def execDbgAccessWrite (a : BitVec 16) (w : Word) (s : State) : Host.Outcome State Fault Refusal :=
  liveNA s fun s => s.dbgShift fun s =>
    if aligned a then
      let r := writeReg .dbg a.toNat w s
      ((if r.1 then 0 else 1, 0), r.2)
    else ((1, 0), s)

/-- DBG_ACCESS_FETCH: the result of the last access is shifted out and stays. -/
def execDbgAccessFetch (s : State) : Host.Outcome State Fault Refusal :=
  liveNA s fun s => s.dbgShift fun s => (s.dbg.result, s)

end Sys2Proof.Machine
end

