-- ==== Sys2Proof/Machine/Activate.lean ====
section
/-!
DEFINITION. A configuration takes effect at a frame start (R17, R33, R34, R73 to R75), and the boot (R47, R395).
-/
namespace Sys2Proof.Machine

/-- The word of FRM_PLACE_TASKnn. -/
def Placed.word (t : Placed) : Word :=
  let d := if t.div = 4 then 2 else if t.div = 2 then 1 else 0
  BitVec.ofNat 32 (t.cls * 2 ^ 28 + t.axis * 2 ^ 25 + b2n t.wide * 2 ^ 24 + t.lane * 2 ^ 22 + d * 2 ^ 20 +
    t.phase * 2 ^ 18 + t.start)

/-- The registers that report a placement at period `c` (R28, FRM_PLACE_*). -/
def State.showPlace (s : State) (c : Nat) (p : Placement) : State :=
  let s1 := (s.put F.FRM_PLACE_TOTAL_CYCLES p.total).put F.FRM_PLACE_LIMIT_CYCLES (4 * (9 * c / 10))
  let s2 := (List.range 4).foldl (fun s i =>
    (s.put (F.FRM_PLACE_LANEi_BUSY i) (p.busy.getD i 0)).put (F.FRM_PLACE_LANEi_MAKESPAN i) (p.makespan.getD i 0)) s1
  let s3 := (s2.put F.FRM_PLACE_PCT_TASKS p.tasks.length).put F.FRM_PLACE_PCT_LOAD (convDiv (1000 * p.total) (4 * c)).toNat
  let s4 := (List.range 64).foldl (fun s i =>
    s.wr (R.FRM_PLACE_TASKn i) ((p.tasks[i]?.map Placed.word).getD 0)) s3
  s4.putB F.FRM_STATUS_DEMOTED p.demoted

/-- The registers that report the active bank (CFG_STATUS, CFG_ACTIVE_ID, CFG_PART_CRCi). -/
def State.showBank (s : State) : State :=
  let parts := (s.bank s.activeBank).parts
  let c := s.cfg.run
  let s1 := ((s.put F.CFG_STATUS_FORMAT c.format).wr R.CFG_ACTIVE_ID (BitVec.ofNat 32 c.imageId)).putB F.CFG_STATUS_SIGNED
    (parts.all fun q => match q with
      | some st => st.sig.isSome
      | none => true)
  (List.range 9).foldl (fun s i =>
    s.wr (R.CFG_PART_CRCi i) (match parts.getD i none with
      | some st => BitVec.ofNat 32 (crc32 (st.secs.flatMap (·.2)))
      | none => 0)) s1

/-- FRM_PERIOD and FRM_PWM_DIV of a DEVICE section. -/
def State.showDev (s : State) (d : DevCfg) : State :=
  (s.put F.FRM_PERIOD_CYCLES d.cycles).wr R.FRM_PWM_DIV
    (BitVec.ofNat 32 ((List.range 8).foldl (fun w n => w + (d.m.getD n 1 - 1) * 16 ^ n) 0))

/-- The REG entries of partition `i` in image order (R65, R75); results of motion commands stay as they are. -/
def State.applyRegs (s : State) (i : Nat) : State :=
  let keep := (List.range 8).map fun n => (R.MOTn_RESULT n, s.rd (R.MOTn_RESULT n))
  let es := (s.cfg.run.parts.getD i emptyPart).params.filter fun e => !e.dmem
  let t := es.foldl (fun s e => (writeSeq .image e.addr e.data 0 s).2.2) s
  (keep.foldl (fun s k => s.wr k.1 k.2) t).endPath .image

/-- The words of a DMEM entry with their addresses. -/
def ParamEntry.words (e : ParamEntry) : List (Nat × Word) := ((List.range e.data.length).map (e.addr + ·)).zip e.data

/-- Data memory of partition `i` as its image sets it (R75): CARRY words keep their value where `carry` holds, other DMEM
words take the image's, the rest is 0. -/
def State.applyDmem (s : State) (carry : Bool) (i : Nat) : State :=
  let es := (s.cfg.run.parts.getD i emptyPart).params.filter (·.dmem)
  let keep := fun (w : Nat) => es.any fun e => e.carry && decide (e.addr ≤ w ∧ w < e.addr + e.data.length)
  let d0 := s.frm.dmem.filter fun x => decide (dmemOwner x.1 ≠ i) || (carry && keep x.1)
  let sets := (es.filter fun e => !(carry && e.carry)).flatMap ParamEntry.words
  { s with frm := { s.frm with dmem := SMap.setMany (fun _ => (0 : Word)) d0 sets } }

/-- The banks change roles (R73, R74). A boot from the other bank leaves BOOT_BANK. -/
def State.useBank (s : State) (b : Nat) (fallback : Bool) : State :=
  let s1 := s.put F.CFG_STATUS_ACTIVE_BANK b
  if fallback then s1 else s1.put F.CFG_STATUS_BOOT_BANK b

/-- The table of a job. -/
def State.useTable (s : State) (job : Job) : State :=
  let s1 := { s with cfg := { s.cfg with run := job.cfg },
                     frm := { s.frm with tasks := job.place.tasks, table := tableOf job.cfg job.place.tasks } }
  (s1.showPlace job.cfg.dev.cycles job.place).frmShow

/-- The guard domain's copies at the end of a start-up (R403). -/
def State.copyGuards (s : State) : State := (((s.copyPf 0).copyPf 1).copyDrven 0).copyDrven 1

/-- AUTOSTART of an image that sets it acts as START (R278). -/
def State.autoStart (s : State) : State :=
  let sets := (s.cfg.run.parts.getD 8 emptyPart).params.any fun e =>
    !e.dmem && decide (e.addr ≤ R.PMC_SCAN_CFG ∧ R.PMC_SCAN_CFG < e.addr + 4 * e.data.length)
  if sets ∧ s.flag F.PMC_SCAN_CFG_AUTOSTART then pmcStart s else s

/-- A full configuration takes effect (R73, R17, R161, R217): the first one after a reset ends the start-up. -/
def State.applyFull (s : State) (job : Job) : State :=
  let boot := decide (s.sup.reached ≠ 2)
  let s0 := { s with cfg := { s.cfg with act := none } }
  let s1 := (((s0.useBank job.bank job.fallback).useTable job).showDev job.cfg.dev).showBank
  let s2 := { s1 with frm := { s1.frm with flags := 0 } }
  let s3 := (List.range 9).foldl (fun s i => (s.applyRegs i).applyDmem false i) s2
  let s4 := (s3.pwmRestart.put F.CSA_STATUS_SYNC_PENDING 1).autoStart
  let s5 := if boot then s4.copyGuards.reach 2 else s4
  s5.repTouch.raise (evFrm 7)

/-- A partial configuration takes effect at its swap frame start (R34, R75). -/
def State.applySwap (s : State) (job : Job) (n : Nat) : State :=
  let s0 := { s with cfg := { s.cfg with swap := none }, frm := { s.frm with swapCommit := false } }
  let s1 := (((s0.useBank job.bank false).useTable job).showBank).applyRegs n
  let s2 := s1.applyDmem true n
  let s3 := { s2 with frm := { s2.frm with flags := s2.frm.flags &&& ~~~(BitVec.ofNat 320 (0xFFFFFFFF * 2 ^ (32 * n))) } }
  let s4 := ((s3.put F.FRM_STATUS_SWAP_PENDING 0).put F.FRM_STATUS_SWAP_DONE 1).wr R.FRM_SWAP_FRAME (s3.rd R.FRM_COUNT)
  let s5 := (((s4.closeSession).endAct 6 n).raise (evFrm 3)).raise (evFrm 7)
  s5.repTouch

/-- What takes effect at this frame start: a full configuration, or the swap that the guard stage has committed. -/
def State.activateNow (s : State) : State :=
  match s.cfg.act with
  | some job => s.applyFull job
  | none =>
    match s.cfg.swap with
    | some job =>
      (match job.axis with
        | some n => if s.frm.swapCommit then s.applySwap job n else s
        | none => s)
    | none => s

/-! ## Boot (R47, R395, R400) -/

/-- The boot bank is read and checked; positions are restored (R372). When neither bank stands, start-up ends without a
configuration. -/
def bootLoad (s : State) : State :=
  if s.sup.reached ≠ 0 ∨ s.cfg.boot.isSome ∨ s.cfg.act.isSome then s
  else
    let s1 := bootTry (s.get F.CFG_STATUS_BOOT_BANK) s.plsRestore
    if s1.cfg.boot.isNone then s1.reach 1 else s1

/-- The builder has finished at boot; when no bank is left, start-up ends without a configuration. -/
def bootAdmission (s : State) : State :=
  if s.cfg.boot.isNone then s
  else
    let s1 := admissionDone s
    if s1.cfg.boot.isNone ∧ s1.cfg.act.isNone then s1.reach 1 else s1

/-- BOOT_LOAD. -/
def execBootLoad (s : State) : Host.Outcome State Fault Refusal := live s bootLoad

/-- ADMISSION_DONE: the builder ends its work on the configuration that the boot handed to it. -/
def execAdmissionDone (s : State) : Host.Outcome State Fault Refusal := live s bootAdmission

/-- DIGITAL_BALL_CHANGE: the ball of source code `ball` changes level; FAULT_N has events of its own (R440). -/
def execDigitalBallChange (ball : Nat) (level : Bool) (s : State) : Host.Outcome State Fault Refusal :=
  liveA s fun s =>
    if s.scanning ∨ ball < 0x200 ∨ 0x258 ≤ ball ∨ ball = 0x230 then s
    else { s with balls := SMap.set (fun _ => false) s.balls ball level }

end Sys2Proof.Machine
end

