-- ==== Sys2Proof/Machine/MotionStep.lean ====
section
/-!
DEFINITION. The profile step of an axis in a frame (R79 to R93, R96, R98, R99, R107, R108, R116, R140).
-/
namespace Sys2Proof.Machine

/-- Store the motion that a profile step leaves. -/
def State.setKin (s : State) (n : Nat) (k : Kin) : State := s.modAx n fun a => { a with kin := k }

/-- Discarded STEP edges are counted (R93). -/
def State.dropEdges (s : State) (n k : Nat) : State := if k = 0 then s else s.bump (F.MOTn_STEP_DROP_COUNT n) k

/-- An immediate stop in its frame (R98): the position of the frame before with v = 0. -/
def State.stopFrame (s : State) (n : Nat) : State :=
  let k := (s.ax n).kin
  let s1 := s.modAx n fun a => { a with kin := { k with v := 0, decel := false, seg := 0 }, imm := false }
  s1.when (decide (s.spd (R.MOTn_VSTOP n) < k.v)) fun s => s.stopUncertain n

/-- A frame of a ramped stop (R99); a soft limit is its target where it caused the stop (R107). -/
def State.rampFrame (s : State) (n : Nat) : State :=
  let a := s.ax n
  s.setKin n (match a.softAim with
    | some t => (stepPos (s.ramp n) a.kin t).1
    | none => stepStop (s.ramp n) a.kin)

/-- A frame in position mode (R87, R88). -/
def State.posFrame (s : State) (n : Nat) : State :=
  let r := stepPos (s.ramp n) (s.ax n).kin (s.target n * fx)
  (s.setKin n r.1).raiseIf r.2 (evMot n 0)

/-- A frame in velocity mode toward VTARGET (R91), with the soft limit ahead as a target (R107). -/
def State.velFrame (s : State) (n : Nat) : State :=
  let r := s.ramp n
  let k := (s.ax n).kin
  let v := s.wideS 40 (R.MOTn_VTARGET n)
  let k1 := stepVel r k (v.natAbs * 2 ^ 24) (decide (0 ≤ v))
  match s.softLimits n with
  | none => s.setKin n k1
  | some (lo, hi) =>
    let up := k1.fwd
    let lim : Int := (if up then hi else lo) * fx
    let d := if up then lim - k.x else k.x - lim
    let passes := if up then decide (lim < k1.x) else decide (k1.x < lim)
    let c : Nat × Nat := (2, if up then 2 else 3)
    if d < 0 then s.setKin n k1
    else if s.immediateCause n c then
      if passes then
        ((s.setKin n (k1.land lim k1.seg)).stopNow n c.1 c.2 (decide (s.spd (R.MOTn_VSTOP n) < k.v))).raise (evMot n 3)
      else s.setKin n k1
    else if passes ∨ (k.v ≠ 0 ∧ k.fwd = up ∧ r.within k.v 1 d) then
      let k2 := if k.v = 0 then k1.land lim k1.seg else (stepPos r k lim).1
      (((s.stopWith n [c] false).modAx n fun a => { a with softAim := some lim }).setKin n k2).raise (evMot n 3)
    else s.setKin n k1

/-- The counted edges of a frame move x (R92), but for those that would pass a soft limit or lead toward a latched limit
(R93): the position after them and how many were discarded. -/
def State.followEdges (s : State) (n : Nat) (edges : List Bool) (x : Int) : Int × Nat :=
  let step : Int := 2 ^ s.get (F.MOTn_FOLLOW_CFG_SHIFT n) * fx
  edges.foldl (fun (p : Int × Nat) (up : Bool) =>
    let x1 := if up then p.1 + step else p.1 - step
    let soft := match s.softLimits n with
      | some (lo, hi) => if up then decide (hi * fx < x1) else decide (x1 < lo * fx)
      | none => false
    let lim := s.flag (if up then F.MOTn_STATUS_LIM_P_LATCH n else F.MOTn_STATUS_LIM_N_LATCH n)
    if soft || lim then (p.1, p.2 + 1) else (x1, p.2)) (x, 0)

/-- A frame in follow mode; after a stop every edge is discarded until START (R93). -/
def State.followFrame (s : State) (n : Nat) : State :=
  let a := s.ax n
  if a.followOff then (s.dropEdges n a.edges.length).setKin n (stepStop (s.ramp n) a.kin)
  else
    let r := s.followEdges n a.edges a.kin.x
    (s.dropEdges n r.2).applyIncrement n r.1

/-- A frame of a homing run (R108): the motion of its phase, the distance searched, the trajectory. -/
def State.homeFrame (s : State) (n : Nat) (h : Homing) : State :=
  let r := s.ramp n
  let k := (s.ax n).kin
  let w := s.spd (R.MOTn_HOME_VEL n)
  let up := s.flag (F.MOTn_HOME_CFG_DIR n)
  let k1 := match h.phase with
    | .away => stepVel r k w (!up)
    | .search => stepVel r k w up
    | .indexWait => stepVel r k w up
    | .stopping => stepStop r k
    | .backoff => (stepPos r k h.aim).1
  let dx := if r.len = 0 then (k1.x - k.x).natAbs else (if k1.fwd then r.ahead k.x k1.x else r.ahead k1.x k.x).toNat
  let search := decide (h.phase = .search ∨ h.phase = .indexWait)
  let t : Int := ((s.now + s.period + s.cfg.run.dev.offset.getD n 0 : Nat) : Int)
  s.modAx n fun a =>
    { a with kin := k1, home := some { h with travel := if search then h.travel + dx else h.travel },
             hist := (a.hist ++ [(t, k1.x)]).drop (a.hist.length - 255) }

/-- The position of an ENC_CAL run (R140) `t` core cycles after its start, from its starting x: 16,384 µst out and back at
4,096 µst/s. -/
def calOffset (t : Nat) : Int :=
  let h := encCalHalf
  let k := if t ≤ h then t else 2 * h - t
  convDiv (4096 * fx * k : Nat) hzCore

/-- A frame of an ENC_CAL run. -/
def State.calFrame (s : State) (n : Nat) (c : EncCal) : State :=
  let t := Nat.min (c.ran + s.period) (2 * encCalHalf)
  let k := (s.ax n).kin
  let v := if t = 2 * encCalHalf then 0 else 4096 * fx
  let k1 : Kin := { k with x := (s.ramp n).wrap (c.start + calOffset t), v := v, fwd := decide (t ≤ encCalHalf),
                           decel := false, seg := 3 }
  s.modAx n fun a => { a with kin := k1, cal := some { c with ran := t } }

/-- A step past either end of a linear axis stops there (R81); `u` is the speed at the start of the frame. -/
def State.rangeClamp (s : State) (n u : Nat) : State :=
  let k := (s.ax n).kin
  let x := clampI posMin posMax k.x
  if s.modulo n = 0 ∧ x ≠ k.x then
    ((s.setKin n (k.land x k.seg)).stopNow n 3 4 (decide (s.spd (R.MOTn_VSTOP n) < u))).raise (evMot n 8)
  else s

/-- The motion of an armed axis in a frame: a stop first, then what runs under the device's own control, then the mode. -/
def State.moveAxis (s : State) (n : Nat) : State :=
  let a := s.ax n
  let halt := fun (s : State) => s.setKin n (stepStop (s.ramp n) a.kin)
  if a.imm then (s.dropEdges n (if s.mode n = 2 then a.edges.length else 0)).stopFrame n
  else if a.ramping then (s.dropEdges n (if s.mode n = 2 then a.edges.length else 0)).rampFrame n
  else
    match a.cal, a.home with
    | some c, _ => s.calFrame n c
    | none, some h => s.homeFrame n h
    | none, none =>
      match s.mode n with
      | 0 => if a.run then s.posFrame n else halt s
      | 1 => if a.run then s.velFrame n else halt s
      | 2 => s.followFrame n
      | _ => if s.flag (F.MOTn_GEAR_STATUS_ENGAGED n) then s.gearStep n else halt s

/-- The profile step of axis `n` (R79): a disarmed axis stays where it is. The master estimate of the frame is kept for the
next one (R116). STANDSTILL needs v = 0 and the position output of the frame before (R96). -/
def State.profileStep (s : State) (n : Nat) : State :=
  let a := s.ax n
  let m := s.masterEstimate n
  let s1 := if a.armed then (s.moveAxis n).rangeClamp n a.kin.v
    else
      (s.dropEdges n (if a.followOff ∧ s.mode n = 2 then a.edges.length else 0)).modAx n fun a =>
        { a with kin := { a.kin with x := if a.modChanged then (s.ramp n).wrap a.kin.x else a.kin.x } }
  (s1.modAx n fun b =>
    { b with still := b.armed && decide (b.kin.v = 0) && decide (b.kin.x = a.xOut), xOut := b.kin.x, edges := [],
             modChanged := false }).keepMaster n m

/-- The export words of the commanded motion (Table 4.2), which the profile step task writes. -/
def State.exportMotion (s : State) (n : Nat) : State :=
  let k := (s.ax n).kin
  let x := BitVec.ofInt 64 (intPart k.x)
  let v := BitVec.ofInt 64 k.velQ
  let put := fun (s : State) (w : Nat) (v : Word) =>
    { s with frm := { s.frm with dmem := SMap.set (fun _ => (0 : Word)) s.frm.dmem (0x600 * n + w) v } }
  put (put (put (put s 0 (x.setWidth 32)) 1 ((x >>> 32).setWidth 32)) 2 (v.setWidth 32)) 3 ((v >>> 32).setWidth 32)

/-- The export words of the feedback (Table 4.2, R250), which the feedback fusion task copies. -/
def State.exportFeedback (s : State) (n : Nat) (words : List Word) : State :=
  let l := (List.range 4).map fun i => (0x600 * n + 4 + i, words.getD i 0)
  { s with frm := { s.frm with dmem := SMap.setMany (fun _ => (0 : Word)) s.frm.dmem l } }

end Sys2Proof.Machine
end

