-- ==== Sys2Proof/Machine/Mgmt.lean ====
section
/-!
DEFINITION. Management messages (R8, R331, R354 to R356, Tables 14.5 and 14.6) and the election of a Bellwether by the root
(R127, R128, R359).
-/
namespace Sys2Proof.Machine

/-! ## Elections -/

/-- The epoch that the root gave a herd last. -/
def State.lastEpoch (s : State) (herd : Nat) : Option Nat := (s.net.rs.epochs.find? fun e => decide (e.1 = herd)).map (·.2)

/-- Put a herd's entry in front of a list of entries by herd. -/
def putHerd {α : Type} (herd : Nat) (v : α) (l : List (Nat × α)) : List (Nat × α) :=
  (herd, v) :: l.filter fun e => decide (e.1 ≠ herd)

/-- The root announces a Bellwether, or none, to the herd and to its own memberships: the epoch follows `prev` (R128). -/
def State.announce (s : State) (herd prev : Nat) (win : Option Nat) : State :=
  let epoch := if win.isSome then nextEpoch prev else 0
  let node := win.getD 0
  let role := ((s.membersOf herd).head?.map fun i => (s.role (0xB0 + i)).toNat % 65536).getD 0
  let s1 := s.modNet fun n => { n with rs := { n.rs with epochs := putHerd herd (if win.isSome then epoch else prev) n.rs.epochs } }
  electWin herd node epoch (s1.sendOwn (newMbx 1 (2 ^ 22 + herd) role 0 (electPayload 5 herd node epoch)))

/-- Does candidate `a` come before `b` (R127): the higher bid, then more free slots, then the lower node? -/
def Candidate.before (a b : Candidate) : Bool :=
  let fa := a.cap - a.hosted
  let fb := b.cap - b.hosted
  decide (a.load < b.load) || (decide (a.load = b.load) && (decide (fb < fa) || (decide (fa = fb) && decide (a.node ≤ b.node))))

/-- The root elects from the candidates that it has read (R127). -/
def bellwetherElection (herd : Nat) (cands : List Candidate) (s : State) : State :=
  if !s.rootHere then s
  else
    let able := cands.filter fun c => c.eligible && c.locked && decide (c.hosted < c.cap)
    let order := (sortBy Candidate.before able).map (·.node)
    let prev := (s.lastEpoch herd).getD (maxN (cands.map (·.epoch)))
    let s1 := s.modNet fun n => { n with rs := { n.rs with elect := putHerd herd order.tail n.rs.elect } }
    s1.announce herd prev order.head?

/-- A winner declines: the root elects the next candidate (R359). -/
def electDecline (herd node epoch : Nat) (s : State) : State :=
  if !s.rootHere ∨ s.lastEpoch herd ≠ some epoch then s
  else
    let rest := ((s.net.rs.elect.find? fun e => decide (e.1 = herd)).map (·.2)).getD []
    let rest1 := rest.filter fun n => decide (n ≠ node)
    let s1 := s.modNet fun n => { n with rs := { n.rs with elect := putHerd herd rest1.tail n.rs.elect } }
    s1.announce herd epoch rest1.head?

/-! ## The fields of a request -/

/-- OP, COUNT, ADDR and a DATA word of a request (Table 14.5). -/
def Req.op (r : Req) : Nat := rdN r.msg.payload 0 1

/-- COUNT. -/
def Req.cnt (r : Req) : Nat := rdN r.msg.payload 1 1

/-- ADDR. -/
def Req.adr (r : Req) : Nat := rdN r.msg.payload 2 2

/-- DATA word `k`. -/
def Req.word (r : Req) (k : Nat) : Nat := rdN r.msg.payload (4 + 4 * k) 4

/-- The addressing mode (Table 13.12): 0 unicast, 1 herd, 2 every node, 3 reserved. -/
def Req.mode (r : Req) : Nat := r.msg.dst / 2 ^ 22 % 4

/-- The low byte of the address: an endpoint, or a herd. -/
def Req.low (r : Req) : Nat := r.msg.dst % 256

/-- The endpoint whose role counts: the addressed one, or the first membership that holds the herd (R355). -/
def State.roleEndpoint (s : State) (r : Req) : Nat :=
  if r.mode = 1 then 0xB0 + ((s.membersOf r.low).head?.getD 0) else r.low

/-- Words as DATA bytes. -/
def dataBytes (l : List Word) : List Byte := l.flatMap fun w => leBytes 4 w.toNat

/-- A refusal is answered whatever the address (R354). -/
def State.refuse (s : State) (r : Req) (status : Nat) (data : List Byte) : State := s.nak r.msg status data

/-- A request that has executed is answered when it was unicast. -/
def State.answer (s : State) (r : Req) (count : Nat) (data : List Byte) : State :=
  if r.mode = 0 then s.respond r.msg 0 count r.adr data else s

/-! ## The judgement (R354 to R356) -/

/-- Does a WRITE reach NET_AUTH_CFG? -/
def Req.touchesAuth (r : Req) : Bool :=
  decide (r.op = 2 ∧ r.adr ≤ R.NET_AUTH_CFG ∧ R.NET_AUTH_CFG < r.adr + 4 * r.cnt)

/-- Is a request without a tag refused (R356)? -/
def State.needsTag (s : State) (r : Req) : Bool :=
  let write := decide (r.op = 2 ∨ r.op = 3)
  let read := decide (r.op = 1 ∨ r.op = 4)
  (write && ((s.authOn && s.flag F.NET_AUTH_CFG_REQUIRED) || s.flag F.NET_AUTH_CFG_STRICT)) ||
    (read && s.flag F.NET_AUTH_CFG_REQUIRE_READ) || r.touchesAuth

/-- The authentication check: whether the request passes, and the state after it. A tag counts only under FEATURES.AUTH. A
wrong tag raises AUTH_FAIL; a missing one is counted. -/
def State.checkAuth (s : State) (r : Req) : Bool × State :=
  if s.authOn ∧ 128 ≤ r.msg.flags then
    let a := s.acceptAuth r.msg
    if a.1 then a else (false, a.2.authFail)
  else if s.needsTag r then (false, s.bump F.NET_NAK_CNT_AUTH 1)
  else (true, s)

/-- The role word as DATA. -/
def State.roleData (s : State) (r : Req) : List Byte := leBytes 4 (s.role (s.roleEndpoint r)).toNat

/-- The role check: a stale epoch is counted, raised and answered with the present role. -/
def State.roleStale (s : State) (r : Req) : Bool :=
  decide (r.op ≠ 4) && decide (r.msg.epoch ≠ (s.role (s.roleEndpoint r)).toNat % 65536)

/-- Is the request malformed (NAK_BAD_OP)? -/
def Req.bad (r : Req) : Bool :=
  decide (r.op = 0 ∨ 6 < r.op) || (decide (r.op ≤ 2) && decide (r.cnt = 0 ∨ 7 < r.cnt ∨ r.adr % 4 ≠ 0))

/-! ## Execution -/

/-- The words of a READ in ascending order. -/
def readSeq (p : Path) : List Nat → State → List Word × State
  | [], s => ([], s)
  | a :: l, s =>
    let x := readReg p a s
    let y := readSeq p l x.2
    (x.1 :: y.1, y.2)

/-- READ. -/
def mgmtRead (r : Req) (s : State) : State :=
  let p := Path.ring r.port r.msg.src
  let x := readSeq p ((List.range r.cnt).map fun k => r.adr + 4 * k) s
  (x.2.endPath p).answer r r.cnt (dataBytes x.1)

/-- The addresses that a WRITE goes to: a herd-addressed one to the registers of axis 0 reaches every member axis (R122). -/
def State.writeBases (s : State) (r : Req) : List Nat :=
  if r.mode = 1 ∧ 0x1000 ≤ r.adr ∧ r.adr < 0x1200 then
    (s.membersOf r.low).flatMap fun i => (s.herdAxes i).map fun n => r.adr + 0x200 * n
  else [r.adr]

/-- WRITE: ascending words up to the first that is refused; one of FRM_MAINT_REQ is answered with its result (R40). A herd
command in a herd message is for the Bellwether. -/
def mgmtWrite (r : Req) (s : State) : State :=
  let p := Path.ring r.port r.msg.src
  let ws := (List.range r.cnt).map fun k => BitVec.ofNat 32 (r.word k)
  if r.mode = 1 ∧ r.adr = R.NET_HERD_CMD then herdCommandHere p (ws.headD 0) s
  else
    let t := (s.writeBases r).foldl (fun (x : Option (List Word) × State) a =>
      let y := writeSeq p a ws 0 x.2
      (if y.2.1 ∧ x.1.isNone then some (ws.take y.1) else x.1, y.2.2.endPath p)) (none, s)
    match t.1 with
    | some done => t.2.refuse r 6 (dataBytes done)
    | none =>
      if r.adr = R.FRM_MAINT_REQ then t.2.answer r r.cnt (dataBytes [t.2.frm.maintResult.get (portOf p)])
      else t.2.answer r r.cnt []

/-- ROLE_SET: code 0xFFFF is reserved (R332); a change commits the ROLES record (R364). -/
def mgmtRoleSet (r : Req) (s : State) : State :=
  if r.word 0 % 65536 = 0xFFFF then s.refuse r 6 []
  else
    let t := s.roleSet (s.roleEndpoint r) (r.word 0 % 65536)
    (if t.net.roles = s.net.roles then t else t.queueRecord 17).answer r r.cnt []

/-- A request that every check has passed. -/
def mgmtRun (r : Req) (s : State) : State :=
  match r.op with
  | 1 => mgmtRead r s
  | 2 => mgmtWrite r s
  | 3 => mgmtRoleSet r s
  | 4 => s.answer r r.cnt (s.roleData r)
  | 5 => (electWin (r.word 0 % 256) (r.word 0 / 65536 % 4096) (r.word 1 % 65536) s).answer r r.cnt []
  | _ => (electDecline (r.word 0 % 256) (r.word 0 / 65536 % 4096) (r.word 1 % 65536) s).answer r r.cnt []

/-- A request at the latch that executes it: the checks of R354 in their order, then execution. -/
def mgmtExec (r : Req) (s : State) : State :=
  if r.mode = 3 then s.refuse r 3 []
  else if r.mode ≠ 1 ∧ !endpointOk r.low then s.refuse r 2 []
  else
    let a := s.checkAuth r
    if !a.1 then a.2.refuse r 4 []
    else if a.2.roleStale r then
      (((a.2.bump F.NET_NAK_CNT_STALE 1).raise (evNet 7))).refuse r 1 (a.2.roleData r)
    else if r.bad then a.2.refuse r 5 []
    else mgmtRun r a.2

/-- A request with its OP. -/
def Req.withOp (q : PortIx) (m : Mbx) (op : Nat) (s : State) : Req :=
  ⟨q, { m with payload := leBytes 1 op ++ (padTo 32 m.payload).drop 1 }, s.now + s.sub⟩

/-- Requests whose segment was checked at least 1 µs before the latch of this frame start leave the queue (R354). -/
def State.dueReqs (s : State) : List Req := s.net.inQ.filter fun r => decide (r.time + 400 ≤ s.now)

/-- The ring requests of a latch in order of arrival; a READ returns the values after the writes of the latch (R354). -/
def State.runReqs (s : State) : State :=
  let due := s.dueReqs
  let s1 := s.modNet fun n => { n with inQ := n.inQ.filter fun r => !decide (r.time + 400 ≤ s.now) }
  let s2 := (due.filter fun r => decide (r.op ≠ 1)).foldl (fun s r => mgmtExec r s) s1
  (due.filter fun r => decide (r.op = 1)).foldl (fun s r => mgmtExec r s) s2

/-! ## The rows -/

/-- BELLWETHER_ELECTION with what the root has read. -/
def execBellwetherElection (herd : Byte) (cands : List Candidate) (s : State) : Host.Outcome State Fault Refusal :=
  liveN s (bellwetherElection herd.toNat cands)

/-- ELECT_WIN. -/
def execElectWin (q : PortIx) (m : Mbx) (s : State) : Host.Outcome State Fault Refusal :=
  liveNA s fun s => mgmtExec (Req.withOp q m 5 s) s

/-- ELECT_DECLINE. -/
def execElectDecline (q : PortIx) (m : Mbx) (s : State) : Host.Outcome State Fault Refusal :=
  liveNA s fun s => mgmtExec (Req.withOp q m 6 s) s

/-- MGMT_READ. -/
def execMgmtRead (q : PortIx) (m : Mbx) (s : State) : Host.Outcome State Fault Refusal :=
  liveNA s fun s => mgmtExec (Req.withOp q m 1 s) s

/-- MGMT_WRITE. -/
def execMgmtWrite (q : PortIx) (m : Mbx) (s : State) : Host.Outcome State Fault Refusal :=
  liveNA s fun s => mgmtExec (Req.withOp q m 2 s) s

/-- ROLE_SET. -/
def execRoleSet (q : PortIx) (m : Mbx) (s : State) : Host.Outcome State Fault Refusal :=
  liveNA s fun s => mgmtExec (Req.withOp q m 3 s) s

/-- ROLE_GET. -/
def execRoleGet (q : PortIx) (m : Mbx) (s : State) : Host.Outcome State Fault Refusal :=
  liveNA s fun s => mgmtExec (Req.withOp q m 4 s) s

end Sys2Proof.Machine
end

