-- ==== Sys2Proof/Machine/Root.lean ====
section
/-!
DEFINITION. The root's cycle: the frame it sends (R319, R320, R341, R357, R358), what it takes from the frame that returns
(R335, R352), the enumeration (R328, R329), reopened links (R336), path offsets (R343) and loops (R359).
-/
namespace Sys2Proof.Machine

/-! ## Starting and yielding (R337, R340, R341) -/

/-- Change the root's side. -/
def State.modRs (s : State) (f : RootSt → RootSt) : State := s.modNet fun n => { n with rs := f n.rs }

/-- A GK8140 configured as root starts cycles once its ports have trained and the start-up measurement has ended; its time
comes from the calendar, TIME_EPOCH is 1. -/
def State.rootStart (s : State) : State :=
  let trained := (List.range 3).any fun p => decide (s.portState p = 4 ∨ s.portState p = 5)
  if !s.rootHere ∧ s.flag F.NET_CFG_ROOT ∧ s.net.root = none ∧ trained ∧ !s.frm.claimStart then
    (s.put F.NET_TIME_STATUS_EPOCH 1).startRoot (2 * s.calTime)
  else s

/-- A root that has heard a better one stops sending and forwards as a node. -/
def State.rootYield (s : State) : State :=
  (s.put F.NET_RING_ROOT_HERE 0).modNet fun n => { n with rs := { restRoot with topo := n.rs.topo }, root := none }

/-! ## The frame (R319, R320) -/

/-- Cut a list into pieces of `k` members. -/
def chunks {α : Type} (k : Nat) (l : List α) : List (List α) := piecesOf k ((l.length + k - 1) / k) l

/-- Segments of TYPE `typ` with at most `k` entries each. -/
def entrySegs (typ k : Nat) (l : List (List Byte)) : List Seg := (chunks k l).map fun c => mkSeg typ c.flatten

/-- The slots as the root sends them: CMD filled, STATUS and SUMMARY 0. -/
def slotEntries (nodes : Nat) (cmds : List (List Byte)) : List (List Byte) :=
  (List.range nodes).map fun i => padTo 36 (padTo 16 ((cmds.getD i []).take 16))

/-- A RAW and a MASTER record for each herd with a source. -/
def recordEntries (sources : List Byte) : List (List Byte) :=
  sources.flatMap fun h => [padTo 24 [h, 0], padTo 24 [h, 0x80]]

/-- The messages that the root sends in this cycle: those to relay, then its own; one to itself is taken at once. `k`
bounds the slots, the first number the steps. -/
def rootMail : Nat → Nat → State → List Mbx × State
  | 0, _, s => ([], s)
  | _, 0, s => ([], s)
  | f + 1, k + 1, s =>
    match s.net.rs.relay with
    | m :: l =>
      let r := rootMail f k (s.modRs fun x => { x with relay := l })
      (m :: r.1, r.2)
    | [] =>
      match s.nextMsg with
      | none => ([], s)
      | some (m, t) =>
        if t.addressed m = 1 then rootMail f (k + 1) (t.receive 0 m)
        else
          let r := rootMail f k t
          (m :: r.1, r.2)

/-- The mailbox slots of a cycle: at most half of them filled by the root, none in a cycle after more than 1,024 slots came
back with MBX_PENDING (Table 14.7). -/
def State.mailEntries (s : State) : List (List Byte) × State :=
  let n := s.get F.NET_ROOT_CFG_MBX_SLOTS
  let k := if s.net.rs.many then 0 else n / 2
  let r := rootMail (2 * k + 1024) k s
  (r.1.map mbxBytes ++ List.replicate (n - r.1.length) freeSlot, r.2)

/-- The GOOSE as the root sends it. -/
def gooseSeg (cycleNo life : Nat) : Seg :=
  mkSeg 5 (leBytes 4 cycleNo ++ leBytes 2 1 ++ leBytes 8 0 ++ leBytes 1 0 ++ leBytes 1 life)

/-- RING_VER and FEATURES (R357). -/
def State.rootVersion (s : State) : Nat × Nat :=
  let t := s.net.rs.topo
  if !t.isEmpty ∧ t.all (fun e => decide (e.versions / 2 % 2 = 1)) then
    (2, s.get F.NET_ROOT_CFG_AUTH_EN + 2 * s.get F.NET_ROOT_CFG_REPLICA_EN)
  else (1, 0)

/-- The ASSIGN entries of the tree being built. -/
def assignEntries (l : List TopoEnt) : List (List Byte) :=
  (l.zip (List.range l.length)).map fun e => leBytes 4 (match e.1.node with
    | some n => 2 ^ 31 + e.2 * 4096 + n
    | none => 0)

/-! ## The tree (R328, R329) -/

/-- Usable ports after port `q` in the cyclic order. -/
def portsAfter (mask q : Nat) : List Nat := (othersOf q).filter fun p => mask.testBit p

/-- The root's walk over the entries of an ENUM cycle: the next entry, the returns still to come (entries filled, port),
the nodes entered with the ports still to try, the places found, the links. -/
structure Walk where
  next : Nat
  rets : List (Nat × Nat)
  stack : List (Nat × List Nat)
  places : List (Nat × Nat)
  edges : List ((Nat × Nat) × (Nat × Nat))
deriving DecidableEq, Repr

/-- Where the root sends a frame on that came back on port `q`: none at the port it was sent on first. -/
def rootNext (mask first q : Nat) : Option Nat :=
  let p := ((othersOf q).find? fun p => mask.testBit p).getD q
  if p = first then none else some p

/-- The walk in order of first visits (R328): a port leads to the next entry while the frame has not come back to the root
by then, else to the root's own port. -/
def walkTree (ents : List (List Byte)) (mask first : Nat) : Nat → Walk → Walk
  | 0, w => w
  | f + 1, w =>
    let back := fun (w : Walk) (q : Nat) (rets : List (Nat × Nat)) =>
      match rootNext mask first q with
      | none => { w with rets := rets, stack := [] }
      | some p => walkTree ents mask first f { w with rets := rets, stack := [(0, [p])] }
    match w.stack with
    | [] => w
    | (i, []) :: st =>
      if i = 0 ∨ st.isEmpty then
        (match w.rets with
          | (_, q) :: rets => back w q rets
          | [] => w)
      else walkTree ents mask first f { w with stack := st }
    | (i, p :: ps) :: st =>
      let due : Bool := match w.rets with
        | (c, _) :: _ => decide (w.next < c)
        | [] => true
      if due ∧ w.next < ents.length then
        let e := ents.getD w.next []
        let a := rdN e 0 1 / 16 % 4
        walkTree ents mask first f
          { w with next := w.next + 1, stack := (w.next, portsAfter (rdN e 0 1 % 8) a) :: (i, ps) :: st,
                   places := w.places ++ [(i, p)], edges := w.edges ++ [((i, p), (w.next, a))] }
      else
        match w.rets with
        | (_, q) :: rets => back { w with edges := w.edges ++ [((i, p), (0, q))] } q rets
        | [] => walkTree ents mask first f { w with stack := (i, ps) :: st }

/-- An entry of the tree from its ENUM entry and its place. -/
def topoEnt (e : List Byte) (place : Nat × Nat) : TopoEnt :=
  let h := rdN e 2 2
  { parent := place.1, via := place.2, arrival := rdN e 0 1 / 16 % 4, usable := rdN e 0 1 % 8,
    hint := if 32768 ≤ h then some (h % 4096) else none, serial := rdN e 4 8, versions := rdN e 12 1, node := none }

/-- The number last held at a place: the same port of the same parent node. -/
def heldAt (old : List TopoEnt) (parent : Option Nat) (via : Nat) : Option Nat :=
  ((old.drop 1).find? fun e => decide (((old[e.parent]?).map (·.node)) = some parent ∧ parent.isSome ∧ e.via = via)).bind (·.node)

/-- Numbers in position order (R329): the hint, the number last held at the place, the lowest free one. -/
def numberTree (old : List TopoEnt) : List TopoEnt → List TopoEnt → List TopoEnt
  | [], done => done
  | e :: l, done =>
    let taken := done.filterMap (·.node)
    let free := fun (n : Option Nat) => match n with
      | some k => if taken.contains k then none else some k
      | none => none
    let root := done.isEmpty
    let held := if root then none else heldAt old ((done[e.parent]?).bind (·.node)) e.via
    let n := match free e.hint, free held with
      | some k, _ => some k
      | none, some k => some k
      | none, none => (List.range 4096).find? fun k => !taken.contains k
    numberTree old l (done ++ [{ e with node := n }])

/-- The ENUM cycle has come back with these entries: the tree is built and numbered, and the ASSIGN cycle follows; with
ENUM_FULL the cycle is repeated with more entries. `ns` is the pass time P. -/
def State.finishEnum (s : State) (ents : List (List Byte)) (full : Bool) (ns : Nat) : State :=
  if full then s.modRs fun r => { r with entries := Nat.min 4096 (2 * r.entries) }
  else
    let l := ents.filter fun e => decide (128 ≤ rdN e 0 1)
    let mask := rdN (l.headD []) 0 1 % 8
    let first := s.net.rs.first.getD 0
    let w := walkTree l mask first (8 * l.length + 16)
      { next := 1, rets := s.net.rs.returns, stack := [(0, [first])], places := [(0, 3)], edges := [] }
    let built := numberTree s.net.rs.topo ((l.zip w.places).map fun e => topoEnt e.1 e.2) []
    s.modRs fun r => { r with built := built, edges := w.edges, passNs := ns, stage := .assign, returns := [] }

/-! ## Path offsets (R343) -/

/-- A word that the root knows of a node: its own register, or what a READ brought. -/
def State.nodeWord (s : State) (node a : Nat) : Option Word :=
  if node = s.node then some (s.rd a)
  else (s.net.rs.words.find? fun e => decide (e.1 = node ∧ e.2.1 = a)).map (·.2.2)

/-- The registers that the root reads of every node. -/
def offsetRegs : List Nat := [R.NETp_DELAY 0, R.NETp_DELAY 1, R.NETp_DELAY 2, R.NET_NODE]

/-- The node number at a position. -/
def State.nodeAt (s : State) (pos : Nat) : Option Nat := (s.net.rs.topo[pos]?).bind (·.node)

/-- The far end of a link. -/
def otherEnd (edges : List ((Nat × Nat) × (Nat × Nat))) (e : Nat × Nat) : Option (Nat × Nat) :=
  (edges.findSome? fun x => if x.1 = e then some x.2 else if x.2 = e then some x.1 else none)

/-- The delay that a hop adds at its receiving port, and the forwarding latency of a node, in ns. -/
def State.hopDelay (s : State) (pos port : Nat) : Int :=
  let w := ((s.nodeAt pos).bind fun n => s.nodeWord n (R.NETp_DELAY port)).getD 0
  (bitsOf w 0 16 : Int) + sext 16 (bitsOf w 16 16)

/-- FWD_LAT of the node at a position. -/
def State.fwdLat (s : State) (pos : Nat) : Int :=
  bitsOf (((s.nodeAt pos).bind fun n => s.nodeWord n R.NET_NODE).getD 0) 0 10

/-- The path of a cycle frame from a sending port on: the arrivals with their D (R343). A node that wraps sends it back. -/
def State.pathOffsets (s : State) (edges : List ((Nat × Nat) × (Nat × Nat))) (wraps : List Nat) (first : Nat) :
    Nat → Nat × Nat → Int → List ((Nat × Nat) × Int)
  | 0, _, _ => []
  | f + 1, out, d =>
    match otherEnd edges out with
    | none => []
    | some (pos, port) =>
      let d1 := d + s.hopDelay pos port
      let links := (othersOf port).filter fun p => (otherEnd edges (pos, p)).isSome
      let d2 := d1 + s.fwdLat pos
      if pos = 0 then
        let p := links.headD port
        if p = first then [] else s.pathOffsets edges wraps first f (0, p) d2
      else
        let wrapped := match s.nodeAt pos with
          | some n => wraps.contains n
          | none => false
        let p := if wrapped then port else links.headD port
        ((pos, port), d1) :: s.pathOffsets edges wraps first f (pos, p) d2

/-- The nodes that wrap, from the last GOOSE. -/
def State.wrapNodes (s : State) : List Nat :=
  [s.net.rs.wraps.1, s.net.rs.wraps.2].filterMap fun w => if 32768 ≤ w then some (w % 4096) else none

/-- An own request of the root to a node under the role epoch that it knows of. -/
def State.askNode (s : State) (node op a : Nat) (words : List Nat) : State :=
  let epoch := ((s.net.rs.words.find? fun e => decide (e.1 = node ∧ e.2.1 = 0x10000)).map fun e => e.2.2.toNat % 65536).getD 0
  s.sendOwn (newMbx 1 (nodeAddr node) epoch 0 (leBytes 1 op ++ leBytes 1 1 ++ leBytes 2 a ++ words.flatMap (leBytes 4)))

/-- The offsets duty while no own request waits: words still missing are read, then every node's offsets are written. -/
def State.offsetDuty (s : State) : State :=
  let r := s.net.rs
  if !r.offsets ∨ !s.net.own.isEmpty then s
  else
    let nodes := (r.topo.drop 1).filterMap (·.node)
    let missing := nodes.flatMap fun n => offsetRegs.filterMap fun a => if (s.nodeWord n a).isNone then some (n, a) else none
    if missing.isEmpty then
      let first := r.first.getD 0
      let l := s.pathOffsets r.edges s.wrapNodes first (4 * r.edges.length + 4) (0, first) 0
      (l.foldl (fun s x => match s.nodeAt x.1.1 with
        | some n => s.askNode n 2 (R.NETp_OFFSET x.1.2) [unsext 32 x.2]
        | none => s) s).modRs fun r => { r with offsets := false }
    else missing.foldl (fun s x => s.askNode x.1 1 x.2 []) s

/-- The offsets are to be computed anew. -/
def State.wantOffsets (s : State) : State := s.modRs fun r => { r with offsets := true, words := [] }

/-! ## The cycle -/

/-- A step of network time that a TIME_SET asked for takes place at this cycle start (R347). -/
def State.rootStep (s : State) : State :=
  match s.net.rs.step with
  | none => s
  | some d =>
    (s.takeEpoch (nextEpoch (s.get F.NET_TIME_STATUS_EPOCH)) d).modRs fun r =>
      { r with step := none, nextTime := ((r.nextTime : Int) + d).toNat }

/-- The node's own part of the segments it sends as root. -/
def ownPass (h : Hdr) (proc : Bool) (q : PortIx) : List Seg → PassWork → List Seg × PassWork
  | [], w => ([], w)
  | g :: l, w =>
    if g.typ = 4 then
      let r := ownPass h proc q l w
      (g :: r.1, r.2)
    else
      let x := passSeg h proc false true q g w
      let r := ownPass h proc q l x.1
      (x.2 :: r.1, r.2)

/-- What a cycle start does at the root beside the frame: a port named for reopening opens, the error marks of the ports
and the memberships move on. -/
def State.ownCycle (s : State) (h : Hdr) : State :=
  let s1 := match s.net.reopen with
    | some p => if s.portState p = 4 then s.setPort p 5 else s
    | none => s
  let s2 := (List.range 3).foldl (fun s p => s.modNp p fun x => { x with errPrev := x.errNow, errNow := false }) s1
  let s3 := { s2 with herds := s2.herds.map fun x => Herd.newCycle x 0 }
  let own := match h.reopen with
    | some (n, p) => if s3.numbered ∧ n = s3.node then some p else none
    | none => none
  let s4 := s3.modNet fun n =>
    { n with cycle := some h.cycleNo, cycleTime := h.time, arrival := none, reopen := own, root := some h.root,
             rootPrio := h.prio, headerAt := s3.now + s3.sub, passAt := s3.now + s3.sub, errPass := false, loopPass := false,
             recOk := decide (0 < h.nodes) }
  (((s4.put F.NET_CYCLE_LEN h.len).put F.NET_RING_WRAPPED 0).takeFeatures h).sendPropagated

/-- The kind of the cycle that starts now. -/
def RootSt.kindNow (r : RootSt) : RootStage := match r.stage with
  | .loopWait => .enumerate
  | k => if r.want then .enumerate else k

/-- The HEADER of a cycle. -/
def State.rootHdr (s : State) (kind : RootStage) (nodes records : Nat) : Hdr :=
  let r := s.net.rs
  let v := s.rootVersion
  let topo := s.get F.NET_RING_TOPO_EPOCH
  { cycleNo := (r.cycleNo + 1) % 2 ^ 32, time := r.nextTime / 2, epoch := s.get F.NET_TIME_STATUS_EPOCH,
    topo := if kind = .normal then topo else nextEpoch topo, len := s.get F.NET_ROOT_CYCLE_LEN, nodes := nodes,
    mbx := s.get F.NET_ROOT_CFG_MBX_SLOTS, records := records, ver := v.1, features := v.2,
    prio := s.get F.NET_CFG_PRIO, root := s.node, reopen := if kind = .normal then r.reopen else none }

/-- The cycle starts: the frame is made, the root's own part of it done, and it leaves on the first OPEN port (R319, R321).
A root without an OPEN port is a ring of its own. -/
def State.sendCycle (s0 : State) (cmds : List (List Byte)) (sources : List Byte) : State :=
  let kind := s0.net.rs.kindNow
  let s := s0.rootStep
  let r := s.net.rs
  let tree := if kind = .assign then r.built else r.topo
  let nodes := if kind = .enumerate then 0 else (tree.filter fun e => e.node.isSome).length
  let recs := if kind = .normal then recordEntries sources else []
  let h := s.rootHdr kind nodes recs.length
  let life := (r.life + 1) % 256
  let s1 := s.ownCycle h
  let s2 := if kind = .enumerate then
      (List.range 3).foldl (fun s p => if s.portState p = 4 then s.setPort p 5 else s) s1 else s1
  let first := (List.range 3).find? s2.isOpen
  let s3 := if kind = .normal then s2.offsetDuty else s2
  let mail := if kind = .normal then s3.mailEntries else ([], s3)
  let body := match kind with
    | .enumerate => entrySegs 0x11 64 (List.replicate r.entries (List.replicate 16 0))
    | .assign => entrySegs 0x12 256 (assignEntries tree)
    | _ => entrySegs 2 64 (slotEntries nodes cmds) ++ entrySegs 3 64 recs ++ entrySegs 4 16 mail.1
  let q : PortIx := if first = some 1 then 1 else if first = some 2 then 2 else 0
  let x := ownPass h (decide (kind = .normal)) q (body ++ [gooseSeg h.cycleNo life]) (startWork mail.2)
  let segs := mkSeg 1 h.bytes :: x.1
  let s4 := match first with
    | some p => segs.foldl (fun (s : State) (g : Seg) => s.sendSeg p 0 g.bytes) x.2.s
    | none => x.2.s
  let s5 := (s4.modNet fun n => { n with sentOn := first.toList }).modRs fun r =>
    { r with cycleNo := h.cycleNo, nextTime := r.nextTime + 2 * h.len, life := life, first := first, records := recs.length,
             returns := [], many := false, want := false, reopen := none,
             stage := (match kind with
               | .enumerate => if r.stage = .loopWait then .loopWait else .enumerate
               | _ => .normal),
             topo := if kind = .assign then r.built else r.topo }
  match kind, first with
  | .enumerate, none => s5.finishEnum (x.1.flatMap fun g => if g.typ = 0x11 then piecesOf 16 64 g.body else []) false 0
  | .assign, _ => s5.wantOffsets
  | _, _ => s5

/-- ROOT_CYCLE_START: a root that waits for a loop to be removed repeats the ENUM cycle every 1 s. -/
def rootCycleStart (cmds : List (List Byte)) (sources : List Byte) (s0 : State) : State :=
  let s := s0.rootStart
  if !s.rootHere then s
  else if s.net.rs.yield then s.rootYield
  else if s.net.rs.stage = .loopWait ∧ s.now + s.sub < s.net.headerAt + hzCore then s
  else s.sendCycle cmds sources

/-! ## The frame returns (R335, R352, Table 14.7) -/

/-- A message that returns to the root: one that names this node is taken in, a unicast one for another node is relayed, or
answered when the node is not there. Messages that the root itself sent end here. -/
def State.rootMessage (q : PortIx) (s : State) (m : Mbx) : State :=
  if m.kind = 0 ∨ m.src = s.node then s
  else if s.addressed m = 1 ∨ s.addressed m = 2 then s.receive q m
  else if m.dst / 2 ^ 22 ≠ 0 then s
  else
    let n := m.dst / 256 % 4096
    if s.net.rs.topo.any fun e => decide (e.node = some n) then s.modRs fun r => { r with relay := r.relay ++ [m] }
    else if m.kind = 1 then s.nak m 8 []
    else s

/-- The returned slots: those of the cycle named in the HEADER, if it is not older than the previous one; a slot seen
before is replaced. -/
def State.takeSlots (s : State) (cycle base : Nat) (bs : List (List Byte)) : State :=
  let now := s.net.rs.cycleNo
  if 1 < (now + 2 ^ 32 - cycle) % 2 ^ 32 then s
  else
    let new := ((List.range bs.length).zip bs).map fun x => (cycle, base + x.1, x.2)
    s.modRs fun r =>
      { r with slots := new ++ r.slots.filter fun x =>
          decide ((now + 2 ^ 32 - x.1) % 2 ^ 32 ≤ 1) && !(new.any fun y => decide ((y.1, y.2.1) = (x.1, x.2.1))) }

/-- The segments of a frame that ends at the root, with the number of slots seen: slots and messages are taken. -/
def takeReturn (q : PortIx) (cycle : Nat) : List Seg → Nat → State → State
  | [], _, s => s
  | g :: l, k, s =>
    if g.st ≠ .good then takeReturn q cycle l (if g.typ = 2 then k + g.body.length / 36 else k) s
    else
      match g.typ with
      | 2 =>
        let bs := piecesOf 36 (g.body.length / 36) g.body
        takeReturn q cycle l (k + bs.length) (s.takeSlots cycle k bs)
      | 4 =>
        let ms := (piecesOf 64 (g.body.length / 64) g.body).map parseMbx
        takeReturn q cycle l k (ms.foldl (State.rootMessage q) s)
      | _ => takeReturn q cycle l k s

/-- The SUMMARY words of a cycle's slots by position. -/
def State.summaries (s : State) (cycle : Nat) : List (Nat × Nat) :=
  (s.net.rs.slots.filter fun x => decide (x.1 = cycle)).map fun x => (x.2.1, rdN x.2.2 32 4)

/-- What PORT_READY asks for (Table 14.7): a link of the tree with both ends ready is reopened, any other ready port asks
for an enumeration; MBX_PENDING of more than 1,024 slots keeps the root's own messages back. -/
def State.judgeSummaries (s : State) (cycle : Nat) : State :=
  let sums := s.summaries cycle
  let ready := (sums.filter fun x => x.2.testBit 31 && x.2.testBit 28).map (·.1)
  let link := s.net.rs.edges.find? fun e => ready.contains e.1.1 && ready.contains e.2.1
  let named := link.bind fun e => (s.nodeAt e.1.1).map fun n => (n, e.1.2)
  let many := decide (1024 < (sums.filter fun x => x.2.testBit 29).length)
  let s1 := s.modRs fun r => { r with many := many }
  if ready.isEmpty then s1
  else
    match named with
    | some e => (s1.modRs fun r => { r with reopen := some e }).wantOffsets
    | none => s1.modRs fun r => { r with want := true }

/-- The GOOSE that came back: a loop stops the normal cycles; a change of WRAP_1 or WRAP_2 asks for new offsets. -/
def State.judgeGoose (s : State) (b : List Byte) (enum : Bool) : State :=
  if rdN b 12 2 % 2 = 1 then (s.raise (evNet 10)).modRs fun r => { r with stage := .loopWait }
  else
    let w := (rdN b 6 2, rdN b 8 2)
    let s1 := if s.net.rs.stage = .loopWait ∧ enum then s.modRs fun r => { r with stage := .enumerate } else s
    if w = s.net.rs.wraps then s1 else (s1.modRs fun r => { r with wraps := w }).wantOffsets

/-- A frame of this root ends at it. -/
def State.endReturn (s : State) (q : PortIx) (h : Hdr) (gs : List Seg) (elapsed : Nat) : State :=
  let s1 := gs.foldl (fun s g => s.countSeg q.val g) s
  let s2 := takeReturn q h.cycleNo gs 0 s1
  let goose := (gs.find? fun g => decide (g.typ = 5 ∧ g.st = .good ∧ g.body.length = 16)).map (·.body)
  let enum := gs.any fun g => decide (g.typ = 0x11)
  let s3 := match goose with
    | some b => s2.judgeGoose b enum
    | none => s2
  if enum then
    let whole := gs.all fun g => decide (g.st = .good)
    let ents := gs.flatMap fun g => if g.typ = 0x11 then piecesOf 16 (g.body.length / 16) g.body else []
    match goose with
    | some b =>
      if whole ∧ s3.net.rs.stage = .enumerate ∧ h.cycleNo = s3.net.rs.cycleNo then
        let k := (ents.filter fun e => decide (128 ≤ rdN e 0 1)).length
        (s3.modRs fun r => { r with returns := r.returns ++ [(k, q.val)] }).finishEnum ents (decide (rdN b 12 2 / 2 % 2 = 1)) elapsed
      else s3
    | none => s3
  else s3.judgeSummaries h.cycleNo

/-- ROOT_PASS_RETURN: the frame of a cycle comes back on port `q`, `elapsed` ns after its HEADER left. Where another OPEN
port follows it goes on; an ENUM frame leaves its count of entries behind. A frame of another root is forwarded. -/
def rootPassReturn (q : PortIx) (segs : List (List Byte)) (elapsed : Nat) (s : State) : State :=
  match segs.map parseSeg with
  | [] => s
  | g :: gs =>
    let s1 := s.openOnHeader q.val g
    if !s1.rootHere ∨ !s1.isOpen q.val then s
    else if !g.isHeader then passAll q.val segs s1
    else
      let h := parseHdr g.body
      if (h.prio, h.root) ≠ (s1.get F.NET_CFG_PRIO, s1.node) then passAll q.val segs (s1.yieldTo h)
      else
        match s1.outPort q.val with
        | none => (s1.countSeg q.val g).endReturn q h gs elapsed
        | some _ =>
          let k := (gs.flatMap fun g => if g.typ = 0x11 then piecesOf 16 (g.body.length / 16) g.body else []).filter
            fun e => decide (128 ≤ rdN e 0 1)
          let s2 := if h.nodes = 0 then s1.modRs fun r => { r with returns := r.returns ++ [(k.length, q.val)] } else s1
          passAll q.val segs s2

/-! ## The rows -/

/-- ROOT_CYCLE_START: `cmds` are the 16 command bytes of each slot, `sources` the herds with a source. -/
def execRootCycleStart (cmds : List (List Byte)) (sources : List Byte) (s : State) : Host.Outcome State Fault Refusal :=
  liveNA s (rootCycleStart cmds sources)

/-- ROOT_PASS_RETURN. -/
def execRootPassReturn (q : PortIx) (segs : List (List Byte)) (elapsed : Nat) (s : State) :
    Host.Outcome State Fault Refusal :=
  liveNA s (rootPassReturn q segs elapsed)

end Sys2Proof.Machine
end

