-- ==== Sys2Proof/Machine/Task.lean ====
section
/-!
DEFINITION. The table sequencer and the compute lanes (R22 to R25, R59, R61, Tables 1.3 and 2.11 to 2.14): what the placed
task bodies of a frame do to data memory, the predicate flags and the output buffer.
-/
namespace Sys2Proof.Machine

/-! ## The steps of a frame -/

/-- A step that waits for its row: its cycle in the table window, the place of its task among the tasks of the frame, its
place in the body, the guards whose branches hold it, the step. -/
structure Issue where
  cycle : Nat
  task : Nat
  idx : Nat
  conds : List (Nat × Bool)
  step : MStep
deriving DecidableEq, Repr

/-- Is the step a guard? -/
def MStep.isGuard (m : MStep) : Bool := decide (bitsOf m.g 31 1 = 1)

/-- The steps of a body from cycle `t` on, and the cycle after the last (R23): both groups of a guard begin behind it, and
the longer one counts. -/
def issues (task : Nat) : Nat → Nat → Nat → List (Nat × Bool) → List MStep → List Issue × Nat
  | 0, _, t, _, _ => ([], t)
  | fuel + 1, i, t, c, l => match l with
    | [] => ([], t)
    | m :: r =>
      let t1 := t + stepCost m
      let here : Issue := ⟨t, task, i, c, m⟩
      if m.isGuard then
        let tl := bitsOf m.g 13 8
        let al := bitsOf m.g 5 8
        let x := issues task fuel (i + 1) t1 ((i, true) :: c) (r.take tl)
        let y := issues task fuel (i + 1 + tl) t1 ((i, false) :: c) ((r.drop tl).take al)
        let z := issues task fuel (i + 1 + tl + al) (Nat.max x.2 y.2) c (r.drop (tl + al))
        (here :: (x.1 ++ y.1 ++ z.1), z.2)
      else
        let z := issues task fuel (i + 1) t1 c r
        (here :: z.1, z.2)

/-- Does a placed task run in frame `f` (R28)? -/
def Placed.runsIn (t : Placed) (f : Nat) : Bool := decide (f % Nat.max 1 t.div = t.phase)

/-- The tasks with a body that run in this frame. -/
def State.bodies (s : State) : List Placed := s.frm.tasks.filter fun t => decide (0 < t.steps) && t.runsIn s.frame

/-- The body of a placed task as table memory holds it. -/
def State.bodyOf (s : State) (t : Placed) : List MStep := (List.range t.steps).map fun i => s.stepAt t.lane (t.row + i)

/-- The steps of the frame in the order of their cycles; of those that share a cycle no order shows (R24). -/
def State.frameIssues (s : State) : List Issue :=
  let l := (s.bodies.zip (List.range s.bodies.length)).flatMap fun p =>
    (issues p.2 (p.1.steps + 1) 0 p.1.start [] (s.bodyOf p.1)).1
  sortBy (fun a b => decide (a.cycle ≤ b.cycle)) l

/-! ## Operands -/

/-- The lane side of a task: its partition, the number of its free values, its lane registers, the accumulator, the guards
passed with the branch taken. -/
structure LaneRun where
  part : Nat
  num : Nat
  regs : SMap Word
  acc : Nat
  took : List (Nat × Bool)
deriving DecidableEq, Repr

/-- The lane at the start of a task: its registers are undefined (R25). -/
def startLane (part num : Nat) : LaneRun :=
  { part := part, num := num, regs := [], acc := (Config.laneAcc num).toNat, took := [] }

/-- Word 0x0089 (R388). -/
def State.supplyWord (s : State) : Word :=
  BitVec.ofNat 32 (s.get F.GDR_STATUS_FAULT_N + 2 * s.get F.GDR_STATUS_DRV_EN + 4 * s.get F.SUP_STATUS_VM_FAIL +
    8 * s.get F.SUP_STATUS_VM_GOOD + 16 * s.get F.SUP_STATUS_VDRV_OK + 32 * s.get F.SUP_STATUS_TSD + 65536 * satU 16 s.vm)

/-- The ring words of the input latch (Table 13.8). -/
def State.ringWord (s : State) (w : Nat) : Word :=
  if w < 0x2004 then s.net.cmdIn.getD (w - 0x2000) 0
  else if w = 0x2004 then BitVec.ofNat 32 s.net.cmdInCycle
  else if w = 0x2005 then
    BitVec.ofNat 32 (b2n s.net.fresh + 2 * s.get F.NET_RING_WRAPPED + 4 * s.get F.NET_RING_ISOLATED)
  else if 0x2010 ≤ w ∧ w < 0x2090 ∧ w % 8 < 6 then
    ((s.herds.toList.getD ((w - 0x2010) / 8) restHerd).words).getD (w % 8) 0
  else 0

/-- A word of the input latch (Table 2.14) that the latch of state `s` took; the layout of words 0x0080 to 0x0088 is not
stated, so they are free values of the frame `num`. -/
def State.latchWord (s : State) (num w : Nat) : Word :=
  if w < 0x20 then s.rd (R.CSAs_AVG w)
  else if w < 0x40 then s.rd (R.CSAs_FINE (w - 0x20))
  else if w < 0x80 then (s.fbWords ((w - 0x40) / 8)).getD (w % 8) 0
  else if w < 0x89 then Config.freeWord num w
  else if w = 0x89 then s.supplyWord
  else if 0x400 ≤ w ∧ w < 0x1400 then s.derived .host (0x1000 + 4 * (w - 0x400))
  else if 0x2000 ≤ w ∧ w < 0x2800 then s.ringWord w
  else 0

/-- What a step reads from beside its lane: the state of the latch, the number of the frame's free values, the flags as
the rows before this one left them. -/
structure RowView where
  latch : State
  num : Nat
  flags : BitVec 320
deriving DecidableEq, Repr

/-- A word of data memory as partition `p` reads it (R59): the export region of another axis partition as the previous
frame left it. -/
def State.dmemFor (s : State) (p w : Nat) : Word :=
  if isExport w ∧ dmemOwner w ≠ p then SMap.get (fun _ => (0 : Word)) s.frm.exports w else s.dmemWord w

/-- An operand (Table 2.13). -/
def readSel (v : RowView) (r : LaneRun) (s : State) (sel : Nat) : Word :=
  let i := sel % 2 ^ 14
  match sel / 2 ^ 14 with
  | 0 => SMap.get (fun k => Config.laneReg r.num k) r.regs (i % 16)
  | 1 => s.dmemFor r.part i
  | 2 => v.latch.latchWord v.num i
  | _ => (SMap.get (fun _ => (none : Option Word)) s.frm.obuf i).getD 0

/-- A result into its destination; the input latch takes none. -/
def writeSel (r : LaneRun) (s : State) (sel : Nat) (w : Word) : LaneRun × State :=
  let i := sel % 2 ^ 14
  match sel / 2 ^ 14 with
  | 0 => ({ r with regs := SMap.insert (i % 16) w r.regs }, s)
  | 1 => (r, { s with frm := { s.frm with dmem := SMap.set (fun _ => (0 : Word)) s.frm.dmem i w } })
  | 2 => (r, s)
  | _ => (r, { s with frm := { s.frm with obuf := SMap.set (fun _ => (none : Option Word)) s.frm.obuf i (some w) } })

/-! ## The micro-operations -/

/-- What a flag may take from a result (R22). -/
structure ResFlags where
  sign : Bool
  zero : Bool
  sat : Bool
  carry : Bool
deriving DecidableEq, Repr

/-- The flags of a 32-bit result: no saturation and no carry arise. -/
def wordFlags (w : Word) : ResFlags := ⟨w.msb, decide (w = 0), false, false⟩

/-- The accumulator after MAC, and its flags: 72 bits, the carry out of an addition; the carry of a subtraction is not
stated (free bit `k`). -/
def macStep (md acc : Nat) (a b : Word) (k : Nat) : Nat × ResFlags :=
  let base := if md.testBit 3 then 0 else acc
  let x : Int := if md.testBit 1 then a.toInt else (a.toNat : Int)
  let y : Int := if md.testBit 0 then b.toInt else (b.toNat : Int)
  let p := unsext 72 (x * y)
  let sum := if md.testBit 2 then base + 2 ^ 72 - p else base + p
  let z := sum % 2 ^ 72
  (z, ⟨decide (2 ^ 71 ≤ z), decide (z = 0), false,
    if md.testBit 2 then Config.freeBit k else decide (2 ^ 72 ≤ sum)⟩)

/-- The width of SAT. -/
def satWidth (md : Nat) : Nat := match md % 4 with
  | 0 => 16
  | 1 => 24
  | 2 => 32
  | _ => 48

/-- The result of SAT: the signed accumulator shifted right with convergent rounding, limited to the width; whether it was
limited. -/
def satStep (md imm acc : Nat) : Int × Bool :=
  let x := convDiv (sext 72 acc) (2 ^ (imm % 64))
  let w := satWidth md
  let y := if md.testBit 3 then satS w x else clampI 0 ((2 ^ w : Nat) - 1) x
  (y, decide (y ≠ x))

/-- Interpolation between two entries, with 12 fraction bits: the rounding is not stated (free bit `k`). -/
def lerp (a b : Int) (f k : Nat) : Int :=
  let x := a * 4096 + (b - a) * (f : Int)
  let q := x / 4096
  if x % 4096 = 0 then q else if Config.freeBit k then q + 1 else q

/-- An entry of the own partition's microstep table: signed Q1.15 of a quarter wave. The spec states no entry beyond the
table and none of a full-period table as one word. -/
def State.lutEntry (s : State) (p t i : Nat) : Option Int :=
  if t = 0 then (if i ≤ 4096 then some (builtinQ i) else none)
  else
    match ((s.cfg.run.parts.getD p emptyPart).tables).find? fun m => decide (m.num = t) with
    | some m => if m.kind = 0 ∧ i ≤ 4096 then some (m.vals.getD i 0) else none
    | none => none

/-- LUT over two entries; where the second is not there it counts only with a fraction. -/
def lutOf (e0 e1 : Option Int) (f k : Nat) : Word :=
  match e0, e1 with
  | some a, some b => BitVec.ofInt 32 (lerp a b f k)
  | some a, none => if f = 0 then BitVec.ofInt 32 a else Config.freeWord k 0
  | none, _ => Config.freeWord k 0

/-- The result of LUT. Words of a data-memory table count as signed; where the two entries differ in their top bit and a
fraction stands, the spec does not say which, and the word is free. -/
def lutStep (v : RowView) (r : LaneRun) (s : State) (imm a b k : Nat) : Word :=
  let x := (readSel v r s b).toNat
  let i := x / 4096
  let f := x % 4096
  if imm < 2048 then lutOf (s.lutEntry r.part (imm % 4) i) (s.lutEntry r.part (imm % 4) (i + 1)) f k
  else
    let at_ := fun (j : Nat) => if a % 2 ^ 14 + j < 2 ^ 14 then some (s.dmemFor r.part (a % 2 ^ 14 + j)) else none
    match at_ i, at_ (i + 1) with
    | some p, some q =>
      if f ≠ 0 ∧ p.msb ≠ q.msb then Config.freeWord k 0 else BitVec.ofInt 32 (lerp p.toInt q.toInt f k)
    | some p, none => if f = 0 then p else Config.freeWord k 0
    | none, _ => Config.freeWord k 0

/-- The operation of a step: the lane, the state and the flags of the result; NOP has none. -/
def operate (v : RowView) (r : LaneRun) (m : MStep) (s0 : State) : LaneRun × State × Option ResFlags :=
  let (k, s) := s0.fresh
  let md := bitsOf m.e0 24 4
  let imm := bitsOf m.e0 0 12
  let a := bitsOf m.e1 16 16
  let b := bitsOf m.e1 0 16
  let d := bitsOf m.e2 16 16
  let put := fun (w : Word) => let x := writeSel r s d w; (x.1, x.2, some (wordFlags w))
  match bitsOf m.e0 28 4 with
  | 1 =>
    let x := macStep md r.acc (readSel v r s a) (readSel v r s b) k
    ({ r with acc := x.1 }, s, some x.2)
  | 2 =>
    let x := satStep md imm r.acc
    let fl : ResFlags := ⟨decide (x.1 < 0), decide (x.1 = 0), x.2, false⟩
    let lo := writeSel r s d (BitVec.ofInt 32 x.1)
    if md % 4 = 3 then
      let hi := writeSel lo.1 lo.2 (d + 1) (BitVec.ofInt 32 (x.1 / 2 ^ 32))
      (hi.1, hi.2, some fl)
    else (lo.1, lo.2, some fl)
  | 3 => put (lutStep v r s imm a b k)
  | 4 => put (readSel v r s a)
  | 5 => put (if v.flags.getLsbD (imm % 512) then readSel v r s a else readSel v r s b)
  | _ => (r, s, none)

/-- A predicate flag takes a value. -/
def State.setFlag (s : State) (f : Nat) (b : Bool) : State :=
  let m : BitVec 320 := BitVec.ofNat 320 (2 ^ f)
  { s with frm := { s.frm with flags := if b then s.frm.flags ||| m else s.frm.flags &&& ~~~m } }

/-- The flag write of a step (R22). -/
def flagStep (m : MStep) (fl : Option ResFlags) (s : State) : State :=
  let f := bitsOf m.e0 12 9
  match fl, bitsOf m.e0 21 3 with
  | some x, 1 => s.setFlag f x.sign
  | some x, 2 => s.setFlag f x.zero
  | some x, 3 => s.setFlag f x.sat
  | some x, 4 => s.setFlag f x.carry
  | _, _ => s

/-- The value that the guard of a step sees: its own flag write, or what the rows before it left. -/
def guardSees (v : RowView) (m : MStep) (fl : Option ResFlags) (s : State) : Bool :=
  let f := bitsOf m.g 21 9
  let own := decide (fl.isSome ∧ 1 ≤ bitsOf m.e0 21 3 ∧ bitsOf m.e0 21 3 ≤ 4 ∧ bitsOf m.e0 12 9 = f)
  if own then s.frm.flags.getLsbD f else v.flags.getLsbD f

/-- One step on its lane: its entry, its flag, and the branch of a guard. -/
def laneStep (v : RowView) (r : LaneRun) (i : Issue) (s : State) : LaneRun × State :=
  let (r1, s1, fl) := operate v r i.step s
  let s2 := flagStep i.step fl s1
  if i.step.isGuard then
    ({ r1 with took := (i.idx, guardSees v i.step fl s2 == decide (bitsOf i.step.g 30 1 = 1)) :: r1.took }, s2)
  else (r1, s2)

/-! ## The frame -/

/-- The table as it runs: the lanes of the tasks, the present cycle and the flags before it, the state. -/
structure TableRun where
  lanes : List LaneRun
  cycle : Nat
  seen : BitVec 320
  s : State
deriving DecidableEq, Repr

/-- Issue one step, unless a guard took the other branch. -/
def issueStep (latch : State) (num : Nat) (x : TableRun) (i : Issue) : TableRun :=
  let x1 := if i.cycle = x.cycle then x else { x with cycle := i.cycle, seen := x.s.frm.flags }
  let r := x1.lanes.getD i.task (startLane 8 0)
  if i.conds.all fun c => r.took.contains c then
    let y := laneStep ⟨latch, num, x1.seen⟩ r i x1.s
    { x1 with lanes := x1.lanes.set i.task y.1, s := y.2 }
  else x1

/-- The table window of a frame: the rows of the cycles before `upto` (R31), all of them where it is none. -/
def State.runTable (s : State) (upto : Option Nat) : State :=
  let (num, s1) := s.fresh
  let bodies := s.bodies
  let lanes := (bodies.zip (List.range bodies.length)).map fun p =>
    startLane (if p.1.wide then 8 else p.1.axis) (s1.free + p.2)
  let s2 := { s1 with free := s1.free + bodies.length }
  let rows := s.frameIssues.filter fun i => match upto with
    | some k => decide (i.cycle < k)
    | none => true
  (rows.foldl (issueStep s num) { lanes := lanes, cycle := 0, seen := s.frm.flags, s := s2 }).s

/-- Has a task of class `cls` that axis `n` owns ended among the rows issued in this frame? -/
def State.classRuns (s : State) (upto : Option Nat) (cls n : Nat) : Bool :=
  s.frm.tasks.any fun t => decide (t.cls = cls) && decide (t.axis = n) && !t.wide && t.runsIn s.frame &&
    (match upto with
      | some k => decide (t.start + t.cycles ≤ k)
      | none => true)

end Sys2Proof.Machine
end

