-- ==== Sys2Proof/Machine/Frame.lean ====
section
/-!
DEFINITION. The frame (chapter 1): the frame start with its input latch and table window, the output stage, the guard stage.
-/
namespace Sys2Proof.Machine

/-- Change the frame engine. -/
def State.modFrm (s : State) (f : Frm → Frm) : State := { s with frm := f s.frm }

/-- A change on every axis in order. -/
def State.eachAxis (s : State) (f : State → Nat → State) : State := (List.range 8).foldl f s

/-! ## Time -/

/-- The cycles by which this frame is lengthened to bring the frame starts onto network time (R345): at once while every
axis is disarmed, else at most 500 ppm. -/
def State.alignCycles (s : State) : Nat :=
  if s.locked then 0 else if s.allDisarmed then s.net.shift / 5 else Nat.min (s.net.shift / 5) (s.period / 2000)

/-- The half nanoseconds by which a slewing root moves its network time in a frame (R347). -/
def State.slewStep (s : State) : Int :=
  let lim : Int := (s.period / 400 : Nat)
  if s.rootHere then clampI (-lim) lim s.net.rs.slew else 0

/-- The time of a frame passes (R14, R344, R345, R347). -/
def State.passTime (s : State) : State :=
  let k := s.alignCycles
  let d := s.slewStep
  let s1 := { s with now := s.now + s.period + k, sub := 0 }
  let s2 := s1.modNet fun n =>
    { n with timeH := ((n.timeH : Int) + 5 * (s.period + k : Nat) + d).toNat, shift := n.shift - 5 * k,
             rs := { n.rs with slew := n.rs.slew - d } }
  let s3 := if d ≠ 0 ∧ s2.net.rs.slew = 0 then s2.put F.NET_TIME_STATUS_SLEWING 0 else s2
  if s3.locked ∧ !s3.rootHere ∧ 2 * s3.get F.NET_CYCLE_LEN < 5 * (s3.now - s3.net.passAt) then
    s3.put F.NET_TIME_STATUS_HOLDOVER 1
  else s3

/-! ## Debug halt (R420, R426) -/

/-- Has a RESUME, or VM_FAIL, ended the halt at this frame start? -/
def State.resumes (s : State) : Bool :=
  (match s.dbg.resumeAt with
    | some t => decide (t ≤ s.now)
    | none => false) && !s.flag F.DBG_STATUS_TABLE_RELOAD

/-- Does one frame of a STEP run? -/
def State.stepsNow (s : State) : Bool := s.dbg.step && !s.flag F.DBG_STATUS_TABLE_RELOAD

/-- A frame of a halt: no input latch is taken, FRM_COUNT holds, the watchdog timeout is paused, the outputs of the last
frame still load. -/
def State.haltFrame (s : State) (i : FrameIn) : State :=
  let s1 := ((s.put F.DBG_STATUS_HALTED 1).put F.DBG_STATUS_STEPPING 0).passCommits
  let s2 := (s1.modFrm fun f => { f with stage := .idle }).csaLatch i.fine true
  let s3 := { s2 with sup := { s2.sup with wdtAt := s2.sup.wdtAt + s2.period } }
  s3.frmShow.slotTimes

/-- The sequencer runs in this frame: after a RESUME the timed commands whose TIME has passed are dropped (R131, R420). -/
def State.leaveHalt (s : State) : State :=
  if !s.dbg.halt then s
  else if s.resumes then
    let s1 := (({ s with dbg := { s.dbg with halt := false, resumeAt := none, step := false } }).put F.DBG_STATUS_HALTED
      0).put F.DBG_STATUS_STEPPING 0
    s1.eachAxis fun s n => s.dropSlots n fun j => s.slotBusyT n j && decide (2 * (s.slotOf n j).time ≤ s.net.timeH)
  else (({ s with dbg := { s.dbg with step := false } }).put F.DBG_STATUS_HALTED 0).put F.DBG_STATUS_STEPPING 1

/-! ## The input latch (R16 to R19, R26) -/

/-- The frame begins: the export regions as the frame before left them (R59), the commits and levels of its output stage
(R166), FRM_COUNT (R16), a configuration that takes effect (R17, R33). -/
def State.beginFrame (s : State) (i : FrameIn) : State :=
  let ex := s.frm.dmem.filter fun e => isExport e.1
  let s1 := (s.modFrm fun f => { f with exports := ex }).passCommits
  let s2 := { s1 with cmp := { s1.cmp with hold := [] } }
  let s3 := (s2.put F.FRM_COUNT_COUNT ((s2.frame + 1) % 2 ^ 32)).activateNow
  (s3.modFrm fun f => { f with lastOverrun := i.issued.isSome && !f.tasks.isEmpty }).frmShow

/-- The supply and temperature means of the previous frame (R370, R388, R390). -/
def State.latchSupply (s : State) (i : FrameIn) : State :=
  let v := satU 16 i.vm
  let s1 := { s with vm := i.vm, nvs := { s.nvs with vhold := i.vhold } }
  let s2 := (s1.put F.SUP_VM_VM_NOW v).put F.SUP_VM_VM_MIN (Nat.min v (s1.get F.SUP_VM_VM_MIN))
  (s2.put F.SUP_TEMP_CTRL (clampI 0 255 (i.tCtrl + 64)).toNat).put F.SUP_TEMP_ANA (clampI 0 255 (i.tAna + 64)).toNat

/-- The sense averages, fine results and feedback become inputs of the frame, with what the blocks do on them. -/
def State.latchSense (s : State) (i : FrameIn) : State :=
  let s1 := State.cmpFollow s (s.csaLatch i.fine false)
  let s2 := s1.eachAxis fun s n => (((s.showCurrent n 0).showCurrent n 1).fbFrame n).clFallback n
  s2.eachAxis fun s n => (((s.rangeSettle n 0).rangeSettle n 1).devLatch n).stallLatch n

/-- Does the gear of axis `m` follow feedback channel `n` (R248)? -/
def State.gearOn (s : State) (m n : Nat) : Bool :=
  s.flag (F.MOTn_GEAR_STATUS_ENGAGED m) &&
    ((decide (s.get (F.MOTn_GEAR_CFG_SRC m) = 0) && decide (m = n)) ||
     (decide (s.get (F.MOTn_GEAR_CFG_SRC m) = 1) && s.flag (F.MOTn_GEAR_CFG_AXSEL m) &&
       decide (s.get (F.MOTn_GEAR_CFG_AXIS m) = n)))

/-- A declared feedback fault in the frame whose latch first sees it (R248). -/
def State.latchEncoder (s : State) (n : Nat) : State :=
  let f := s.flag (F.FBKn_STATUS_FAULT n)
  let s1 := s.modFb n fun x => { x with faultSeen := f }
  if f ∧ !(s.fb n).faultSeen then
    let own := s.flag (F.FBKn_CFG_FAULT_STOP n)
    s1.causeAll ((List.range 8).filter fun m => (own && decide (m = n)) || s.gearOn m n) 3 3
  else s1

/-- A power failure in the frame whose latch first sees it (R111). -/
def State.latchPower (s : State) : State :=
  let f := s.flag F.SUP_STATUS_VM_FAIL
  let s1 := { s with sup := { s.sup with failSeen := f } }
  if f ∧ !s.sup.failSeen then s1.causeAll (List.range 8) 5 0 else s1

/-- A disarm by a protection path (R101, R32); `unc`: the axis was not at standstill. -/
def State.tripDisarm (s : State) (n : Nat) (unc : Bool) : State :=
  (((((s.endCal n).disarmStop n 3 0 unc).disarmMotion n).curTripDisarm n)).modAx n fun a => { a with bridgeOff := false }

/-- The latch sees a bridge that a protection path has turned off (R101). -/
def State.latchBridge (s : State) (n : Nat) : State :=
  if !(s.ax n).bridgeOff then s
  else if s.armed n then s.tripDisarm n (!s.flag (F.MOTn_STATUS_STANDSTILL n))
  else s.modAx n fun a => { a with bridgeOff := false }

/-- A host write that has waited for the latch. -/
def runLatched (l : Latched) (s : State) : State :=
  match l with
  | .submit p n w time arg => s.tcmdSubmit p n.val time arg (bitsOf w 16 16) (bitsOf w 0 8)
  | .cmd c =>
    match c with
    | .arm p n => axisCommand p n.val 1 s
    | .disarm p n => axisCommand p n.val 2 s
    | .stop p n => axisCommand p n.val 3 s
    | .start p n => axisCommand p n.val 4 s
    | .home p n => axisCommand p n.val 5 s
    | .clearLimit p n => axisCommand p n.val 6 s
    | .clearFault p n => axisCommand p n.val 7 s
    | .clearUncertain p n => axisCommand p n.val 8 s
    | .targetWrite _ n v => targetWrite n.val v.toInt s
    | .vtargetWrite _ n v => vtargetWrite n.val v.toInt s
    | .posWrite _ n v => (posFull n.val v.toInt s).2
    | .modeWrite _ n w => modeApply n.val w s
    | .chgArm _ n dir => (gearCtrl n.val dir.val true false s).2
    | .chgCancel _ n => (gearCtrl n.val (s.get (F.MOTn_GEAR_CTRL_CHG_DIR n.val)) false true s).2
    | .tcmdCancel _ n w => tcmdCancel n.val w s
    | .herdSyncStart p w => (herdCommand p w s).2
    | .herdStop p w => (herdCommand p w s).2
    | .herdStart p w => (herdCommand p w s).2
    | _ => s

/-- Host commands, ring requests and window writes of the latch in this order, then the due timed commands (R26, R130,
R354). -/
def State.latchCommands (s : State) : State :=
  let s1 := s.latchQ.foldl (fun s l => runLatched l s) { s with latchQ := [] }
  let s2 := s1.runReqs
  let dm := SMap.setMany (fun _ => (0 : Word)) s2.frm.dmem s2.frm.winQ
  (s2.modFrm fun f => { f with dmem := dm, winQ := [] }).eachAxis fun s n => s.runDue n

/-- The stop causes of this latch (R98 to R100); one of an aborted ENC_CAL (detail 256) is immediate and leaves TARGET at
x (R140). -/
def State.latchStops (s : State) (n : Nat) : State :=
  let cs := (s.ax n).causes
  if cs.isEmpty then s
  else
    let cal := cs.any fun c => decide (256 ≤ c.2)
    let s1 := (s.modAx n fun a => { a with causes := [] }).endCal n
    let s2 := if cal then s1.setTarget n (s1.pos n) else s1
    s2.stopWith n (cs.map fun c => (c.1, c.2 % 256)) cal

/-- A homing run as the latch finds it; its end captures DEV_REF (R267). -/
def State.latchHome (s : State) (n : Nat) : State :=
  let s1 := s.homeLatch n
  if (s.ax n).home.isSome ∧ (s1.ax n).home.isNone ∧ s1.flag (F.MOTn_STATUS_HOMED n) then s1.devRefSet n else s1

/-- CMD of the ring enters the first latch that begins at least 1 µs after its check (Table 13.8). -/
def State.latchRing (s : State) : State :=
  let take := s.net.cmdNew && decide (s.net.cmdAt + 400 ≤ s.now)
  s.modNet fun n =>
    { n with cmdIn := if take then n.cmd else n.cmdIn, cmdInCycle := if take then n.cmdCycle else n.cmdInCycle,
             fresh := take, cmdNew := n.cmdNew && !take }

/-- The masks of the axes disarmed now and of those whose last published STANDSTILL is 1 (R33). -/
def State.axisConds (s : State) : Nat × Nat :=
  (List.range 8).foldl (fun m n =>
    (putBit m.1 n (!s.armed n), putBit m.2 n (s.flag (F.MOTn_STATUS_STANDSTILL n)))) (0, 0)

/-- The input latch. -/
def State.inputLatch (s : State) (i : FrameIn) : State :=
  let s1 := (s.latchSupply i).latchSense i
  let s2 := (s1.eachAxis State.latchEncoder).latchPower
  let s3 := ((s2.eachAxis State.sampleInputs).eachAxis State.latchBridge).latchCommands
  let s4 := s3.eachAxis fun s n => ((s.latchInputs n).latchHome n).gearLatch n
  let s5 := (s4.eachAxis State.latchStops).latchRing
  let m := s5.axisConds
  s5.modFrm fun f => { f with disarmedAt := m.1, stillAt := m.2 }

/-! ## The table window -/

/-- Does the profile step of axis `n` end in this frame (R79)? Only a hardware cause stops a placed one (R31). -/
def State.profileRuns (s : State) (upto : Option Nat) (n : Nat) : Bool :=
  s.classRuns upto 1 n || !(s.frm.tasks.any fun t => decide (t.cls = 1) && decide (t.axis = n) && !t.wide)

/-- The motion of axis `n` in the frame. -/
def State.motionTask (upto : Option Nat) (s : State) (n : Nat) : State :=
  if s.profileRuns upto n then
    let s1 := ((s.profileStep n).curAmp n).encCalFrame n
    if s.classRuns upto 1 n then s1.exportMotion n else s1
  else s

/-- The feedback fusion, commutation, current loops, diagnostics and observer of axis `n` in the frame. -/
def State.currentTask (upto : Option Nat) (s : State) (n : Nat) : State :=
  let s1 := if s.classRuns upto 2 n then s.exportFeedback n (s.fbWords n) else s
  let s2 := if s1.classRuns upto 6 n then s1.commutate n else s1
  ((s2.loops n (s2.classRuns upto 3 n) (s2.classRuns upto 4 n)).diagFrame n).obsFrame n (s2.classRuns upto 5 n)

/-- Registers that show what a task has computed for its output stage. -/
def shownRegs (n : Nat) : List Nat :=
  [R.CURn_ANGLE n, R.CURn_SETP n, R.CURn_UOUT n, R.OBSn_LOAD n, R.OBSn_MARGIN n]

/-- An overrun frame commits no task-written status (R31): what the tasks showed is taken back. -/
def State.keepShown (s0 s : State) : State :=
  s.eachAxis fun s n =>
    ((shownRegs n).foldl (fun s a => s.wr a (s0.rd a)) s).put (F.CURn_STATUS_AMP n) (s0.get (F.CURn_STATUS_AMP n))

/-- The table window: the task bodies, then what each task class computes. -/
def State.tableWindow (s : State) (upto : Option Nat) : State :=
  let s1 := (s.runTable upto).eachAxis (State.motionTask upto)
  let s2 := s1.eachAxis (State.currentTask upto)
  if s.frm.lastOverrun then State.keepShown s s2 else s2

/-- Device work of a frame start outside the table: comparator self-tests, the periodic scan, the power-loss store, the run
times of the activities. -/
def State.houseKeeping (s : State) : State := ((s.selfTestFrame.pmcFrame).plsSample.plsArm).slotTimes

/-- FRAME_START. -/
def frameStart (i : FrameIn) (s0 : State) : State :=
  let s := s0.passTime
  if s.dbg.halt ∧ !s.resumes ∧ !s.stepsNow then s.haltFrame i
  else
    let s1 := (s.leaveHalt.beginFrame i).inputLatch i
    ((s1.tableWindow i.issued).houseKeeping).modFrm fun f => { f with stage := .window }

/-! ## The output stage (R18, R31, R166) -/

/-- An output-buffer word. -/
def State.bufWord (s : State) (w : Nat) : Option Word := SMap.get (fun _ => none) s.frm.obuf w

/-- The frame commit of half-bridge `k`: the staging registers take the output-buffer words (R166), and what the host left
is discarded (R167). -/
def State.commitBridge (s : State) (k : Nat) : State :=
  let put := fun (s : State) (a w : Nat) => match s.bufWord w with
    | some v => s.wr a (v &&& BitVec.ofNat 32 0x1FFFFF)
    | none => s
  let s1 := put (put s (R.PWMk_CMP_RISE k) (2 * k)) (R.PWMk_CMP_FALL k) (2 * k + 1)
  let set := ((s1.rd (R.PWMk_CMP_RISE k)).toNat, (s1.rd (R.PWMk_CMP_FALL k)).toNat)
  s1.modBr k fun b => { b with frameSet := some set, pend := none, late := none }

/-- The frame commit of auxiliary channel `a`, where a task has written its words since the last one (R176). -/
def State.commitAux (s : State) (a : Nat) : State :=
  let w := 0x40 + 2 * a
  if (s.bufWord w).isNone ∧ (s.bufWord (w + 1)).isNone then s
  else
    let put := fun (s : State) (f : Fld) (w : Nat) => match s.bufWord w with
      | some v => s.put f (v.toNat % 2 ^ 21)
      | none => s
    let s1 := put (put s (F.PWM_AUXa_CMP_RISE_VALUE a) w) (F.PWM_AUXa_CMP_FALL_VALUE a) (w + 1)
    let set := (s1.get (F.PWM_AUXa_CMP_RISE_VALUE a), s1.get (F.PWM_AUXa_CMP_FALL_VALUE a))
    let ob := SMap.setMany (fun _ => (none : Option Word)) s1.frm.obuf [(w, none), (w + 1, none)]
    (s1.modFrm fun f => { f with obuf := ob }).modAxu a fun x => { x with frameSet := some set }

/-- The amplitude of a guard axis has ramped to 0 at standstill: SHORT or OPEN follows (R151). -/
def State.enterStill (s : State) (n : Nat) : State :=
  if s.armed n ∧ s.coil n = 2 ∧ s.stillMode n ≠ 0 ∧ (s.cur n).aRun = 0 ∧ (s.ax n).still then
    s.setCoil n (if s.stillMode n = 1 then 3 else 4)
  else s

/-- PF_SHORT (R153): in the first frame after VM_FAIL (one whose latch has seen it) in which the axis reports STANDSTILL or
is disarmed it disarms, and its bridges go to SHORT. -/
def State.powerShort (s : State) (n : Nat) : State :=
  if !s.flag F.SUP_STATUS_VM_FAIL then s.modCur n fun c => { c with pfShort := false }
  else if s.sup.failSeen ∧ s.guard.pfShort.testBit n ∧ !(s.cur n).pfShort ∧ (!s.armed n ∨ s.flag (F.MOTn_STATUS_STANDSTILL n)) then
    (((s.endCal n).disarmMotion n).curDisarm n 3).modCur n fun c => { c with pfShort := true }
  else s

/-- Is a short of a disarmed guard axis still to be latched in the guard domain (R152, R153), the bridges being in the
standstill short of R151 already? -/
def State.shortDue (s : State) (n : Nat) : Bool :=
  decide (n < 2) && decide (s.coil n = 3) && !s.armed n && !s.shortLatched n && s.flag F.GDR_STATUS_VGRD_OK

/-- A coil level that differs from the one in force, or about to load, loads at the frame-aligned boundary of the next frame
(R166). -/
def State.commitLevel (s : State) (n : Nat) : State :=
  let p := s.pw n
  if s.coil n = p.levelReady.getD p.level ∧ !s.shortDue n then s.modPw n fun p => { p with levelSet := none }
  else s.modPw n fun p => { p with levelSet := some (s.coil n) }

/-- Does an enabled flag of a status register stand under a mask? -/
def State.irqIn (s : State) (st en mask : Nat) : Bool := decide ((s.rd st &&& s.rd en).toNat &&& mask ≠ 0)

/-- The event groups of Table 13.6 with an enabled flag that stands (R349), bit by bit. -/
def State.standing (s : State) : List Bool :=
  let csa := s.rd R.CSA_EVT_ENABLE
  let axis := fun (n : Nat) =>
    s.irq (R.MOTn_IRQ_STATUS n) (R.MOTn_IRQ_ENABLE n) || s.irq (R.MOTn_GEAR_IRQ_STATUS n) (R.MOTn_GEAR_IRQ_ENABLE n) ||
      s.irq (R.CURn_IRQ_STATUS n) (R.CURn_IRQ_ENABLE n) || s.irq (R.OBSn_IRQ_STATUS n) (R.OBSn_IRQ_ENABLE n) ||
      s.irqIn R.PWM_IRQ_STATUS R.PWM_IRQ_ENABLE (2 ^ n) ||
      s.irqIn R.GDR_IRQ_STATUS R.GDR_IRQ_ENABLE (2 ^ n * 0x1010100 + (if n < 2 then 2 ^ (6 + n) else 0))
  let device := s.irq R.FRM_IRQ_STATUS R.FRM_IRQ_ENABLE || s.irq R.CFG_IRQ_STATUS R.CFG_IRQ_ENABLE ||
    s.irqIn R.PWM_IRQ_STATUS R.PWM_IRQ_ENABLE 0x300 || s.irqIn R.GDR_IRQ_STATUS R.GDR_IRQ_ENABLE 1 ||
    (csa.getLsbD 3 && s.flag F.CSA_EVT_MISC_SYNC_DONE) || s.irq R.PMC_IRQ_STATUS R.PMC_IRQ_ENABLE ||
    s.irq R.NET_IRQ_STATUS R.NET_IRQ_ENABLE || s.irqIn R.NVS_IRQ_STATUS R.NVS_IRQ_ENABLE 0x7EFD8 ||
    s.irq R.SUP_IRQ_STATUS R.SUP_IRQ_ENABLE
  let sense := (csa.getLsbD 0 && decide (s.rd R.CSA_EVT_CLIP ≠ 0)) ||
    (csa.getLsbD 4 && decide (s.rd R.CSA_EVT_SETTLED ≠ 0)) ||
    (csa.getLsbD 1 && decide (s.get F.CSA_EVT_MISC_CM_OUT ≠ 0)) ||
    (csa.getLsbD 2 && decide (s.get F.CSA_EVT_MISC_DCB_LIMIT ≠ 0))
  let cmp := (s.flag F.CMP_EVT_ENABLE_TRIP && (decide (s.rd R.CMP_TRIP_LO ≠ 0) || decide (s.rd R.CMP_TRIP_HI ≠ 0))) ||
    (List.range 40).any s.irqCmp
  let pmc := (s.flag F.PMC_EVT_ENABLE_LIMIT && decide (s.rd R.PMC_EVT_LIMIT ≠ 0)) ||
    (s.flag F.PMC_EVT_ENABLE_OPEN_WIRE && decide (s.rd R.PMC_EVT_OPEN ≠ 0))
  [device] ++ (List.range 8).map axis ++
    [s.irqAny 8 R.FBKn_IRQ_STATUS R.FBKn_IRQ_ENABLE, sense, cmp, pmc, s.irqIn R.GDR_IRQ_STATUS R.GDR_IRQ_ENABLE 0xE,
     s.irqAny 16 R.NET_HERDi_STATUS (fun _ => R.NET_HERD_IRQ_ENABLE), s.irqIn R.NVS_IRQ_STATUS R.NVS_IRQ_ENABLE 0x1027]

/-- What the ring sends until the next output stage: STATUS and the standing event groups (Table 13.8, R349). -/
def State.publishRing (s : State) : State :=
  let g := (s.standing.zip (List.range 16)).foldl (fun w b => w + b2n b.1 * 2 ^ b.2) 0
  s.modNet fun n => { n with status := (List.range 4).map fun i => (s.bufWord (0x2000 + i)).getD 0, groups := g }

/-- The output stage of a frame that has run its table. -/
def State.commitFrame (s : State) : State :=
  let s1 := s.eachAxis fun s n => (s.publishMot n).stallPublish n
  let s2 := ((s1.enterStill 0).enterStill 1).powerShort 0
  let s3 := (s2.powerShort 1).eachAxis fun s n =>
    if s.coilOn n then (List.range 4).foldl (fun s j => s.commitBridge (4 * n + j)) s else s
  let s4 := ((List.range 8).foldl State.commitAux s3).eachAxis State.commitLevel
  s4.publishRing

/-- The overrun fault state (R32): every group takes the fault source, every axis disarms. -/
def State.overrunFault (s : State) : State :=
  let s1 := s.eachAxis fun s n => if s.armed n then s.tripDisarm n (!s.flag (F.MOTn_STATUS_STANDSTILL n)) else s
  ((s1.put F.FRM_STATUS_OVR_FAULT 1).frmShow).raise (evFrm 1)

/-- The output stage of a frame that overruns (R31, R32): nothing is committed. -/
def State.overrunFrame (s : State) : State :=
  let k := s.frm.overruns + 1
  let fault := !s.flag F.FRM_STATUS_OVR_FAULT && decide (s.get F.FRM_CTRL_OVR_LIMIT ≤ k)
  let s1 := (s.bump F.FRM_OVR_COUNT_COUNT 1).raise (evFrm 0)
  let s2 := s1.modFrm fun f => { f with overruns := if fault || s.flag F.FRM_STATUS_OVR_FAULT then 0 else k }
  if fault then s2.overrunFault else s2

/-- OUTPUT_STAGE: once in a frame whose table window has run. -/
def outputStage (s : State) : State :=
  if s.frm.stage ≠ .window then s
  else
    let s1 := if s.frm.lastOverrun then s.overrunFrame
      else (s.commitFrame).modFrm fun f => { f with overruns := 0 }
    s1.plsOutput.modFrm fun f => { f with stage := .output }

/-! ## The guard stage (R33) -/

/-- The axis condition of the pending swap of axis `n`, at the latch of this frame and now. -/
def State.swapCond (s : State) (job : Job) (n : Nat) : Bool :=
  let still := job.cfg.standstill.testBit n
  (s.frm.disarmedAt.testBit n || (still && s.frm.stillAt.testBit n)) &&
    (!s.armed n || (still && s.flag (F.MOTn_STATUS_STANDSTILL n)))

/-- Does a timed command of axis `n` fall due in the next frame? -/
def State.dueNext (s : State) (n : Nat) : Bool :=
  (List.range 4).any fun j =>
    s.slotBusyT n j && decide (2 * (s.slotOf n j).time ≤ s.net.timeH + 5 * (s.period + s.alignCycles))

/-- GUARD_STAGE_CHECK: a pending swap is committed for the next frame where every condition of R33 holds. -/
def guardStageCheck (s : State) : State :=
  if s.frm.stage ≠ .output then s
  else
    let s1 := s.modFrm fun f => { f with stage := .guard }
    match s.cfg.swap with
    | some job =>
      (match job.axis with
        | some n =>
          let ok := s.swapCond job n && !s.dueNext n && !s.flag F.FRM_CTRL_SWAP_HOLD && !s.frm.lastOverrun
          s1.modFrm fun f => { f with swapCommit := ok }
        | none => s1)
    | none => s1

/-! ## The rows -/

/-- FRAME_START. -/
def execFrameStart (i : FrameIn) (s : State) : Host.Outcome State Fault Refusal := liveNA s (frameStart i)

/-- OUTPUT_STAGE. -/
def execOutputStage (s : State) : Host.Outcome State Fault Refusal := liveA s outputStage

/-- GUARD_STAGE_CHECK. -/
def execGuardStageCheck (s : State) : Host.Outcome State Fault Refusal := live s guardStageCheck

end Sys2Proof.Machine
end

