-- ==== Sys2Proof/Machine/HostPort.lean ====
section
/-!
DEFINITION. Host port H: the transactions of an SPI target (R411 to R417), byte for byte from the status byte on.
-/
namespace Sys2Proof.Machine

/-- The bytes 0 to 2 of a header: CMD and the address, low byte first (Table 17.1). -/
def headerBytes (cmd a : Nat) : List Byte := leBytes 1 cmd ++ leBytes 2 a

/-- Does the CRC-8 of a header hold (R413)? -/
def headerOk (cmd : Nat) (a : BitVec 16) (crc : Byte) : Bool := decide (crc8 (headerBytes cmd a.toNat) = crc.toNat)

/-- The status byte (R415): the fixed bits, INT as it stands, and BUSY, HDR_CRC, DATA_CRC, REFUSED in `low`. -/
def State.statusByte (s : State) (low : Nat) : Nat := 0xA0 + b2n (!s.intN) * 16 + low

/-- The address of word `i` of a burst from `a` on; a WRITE_FIXED keeps its address. -/
def burstAddr (a : Nat) (fixed : Bool) (i : Nat) : Nat := if fixed then a else a + 4 * i

/-- Is the burst refused whole (R412): an address that is not aligned, or a burst past 0xFFFF? -/
def burstBad (a n : Nat) (fixed : Bool) : Bool := decide (a % 4 ≠ 0) || (!fixed && decide (0x10000 < a + 4 * n))

/-- Words read in ascending order (R414). -/
def readWords (p : Path) : List Nat → State → List Word × State
  | [], s => ([], s)
  | a :: l, s =>
    let r := readReg p a s
    let q := readWords p l r.2
    (r.1 :: q.1, q.2)

/-- Words written in order, up to the first that is refused (R414): how many executed, whether one was refused. -/
def writeWords (p : Path) : List (Nat × Word) → Nat → State → Nat × Bool × State
  | [], k, s => (k, false, s)
  | (a, w) :: l, k, s =>
    let r := writeReg p a w s
    if r.1 then writeWords p l (k + 1) r.2 else (k, true, r.2)

/-- The 4N bytes of words, least significant byte first. -/
def wordBytes (l : List Word) : List Byte := l.flatMap fun w => leBytes 4 w.toNat

/-- A transaction completes: HOST_TSTAT holds its status byte and its EXEC. -/
def State.tstat (s : State) (status exec : Nat) : State :=
  s.wr R.HOST_TSTAT (BitVec.ofNat 32 (status + exec * 256))

/-- What HMISO sends from byte 4 on. -/
def State.hostOut (s : State) (l : List Byte) : State := { s with host := { s.host with out := l } }

/-- `n` words of 0xFF in the place of data with their CRC byte, the turnaround in front, then the status byte. -/
def fillOut (n status : Nat) : List Byte := List.replicate (4 * n + 2) 0xFF ++ leBytes 1 status

/-- The data of a READ with its turnaround, CRC-8 and status byte. -/
def dataOut (l : List Word) (status : Nat) : List Byte :=
  [0xFF] ++ wordBytes l ++ leBytes 1 (crc8 (wordBytes l)) ++ leBytes 1 status

/-- A transaction that the port takes: VIO is good, and HCS_N has stayed high long enough after a WRITE, else the header
is ignored and its status byte carries BUSY (R411, R416). Byte 0 is the status of the transaction before. -/
def State.transact (s : State) (cyc : Nat) (f : State → State) : State :=
  let s1 := s.at cyc
  let lead := leBytes 1 (s.get F.HOST_TSTAT_STATUS)
  if !s.flag F.SUP_STATUS_VIO_OK then s
  else
    let t := if s.now + cyc < s.host.freeAt then s1.hostOut (leBytes 1 (s1.statusByte 8)) else f (s1.hostOut [])
    t.hostOut (lead ++ t.host.out)

/-- A header whose CRC fails (R413). -/
def State.badHeader (s : State) (n : Nat) : State :=
  let s1 := s.bump F.HOST_ERR_CNT_COUNT 1
  (s1.tstat (s1.statusByte 4) 0).hostOut (fillOut n (s1.statusByte 4))

/-- READ of `n` words from `a` (R412, R414). -/
def hostRead (a n : Nat) (s : State) : State :=
  if burstBad a n false then
    let st := s.statusByte 1
    let t := (s.tstat st 0).hostOut (fillOut n st)
    if s.host.ran then { t with host := { t.host with words := List.replicate n 0, readStatus := st } } else t
  else
    let r := readWords .host ((List.range n).map (burstAddr a false)) s
    let st := r.2.statusByte 0
    let t := (r.2.tstat st n).hostOut (dataOut r.1 st)
    { t with host := { t.host with words := r.1, readStatus := st, ran := true } }

/-- WRITE or WRITE_FIXED of words whose data CRC is judged before any executes (R414); the port is free again 100 ns and
20 ns for each word after HCS_N rises at cycle `fin` (R416). -/
def hostWrite (fixed : Bool) (a : Nat) (words : List Word) (crcD : Byte) (fin : Nat) (s : State) : State :=
  let n := words.length
  let s1 := s.at fin
  let t :=
    if burstBad a n fixed then (s1.tstat (s1.statusByte 1) 0).hostOut (fillOut n (s1.statusByte 1))
    else if crc8 (wordBytes words) ≠ crcD.toNat then
      let s2 := s1.bump F.HOST_ERR_CNT_COUNT 1
      (s2.tstat (s2.statusByte 2) 0).hostOut (fillOut n (s2.statusByte 2))
    else
      let s2 := s1.hostOut (fillOut n (s1.statusByte 0))
      let r := writeWords .host (((List.range n).map (burstAddr a fixed)).zip words) 0 s2
      if r.2.2.held then r.2.2 else r.2.2.tstat (r.2.2.statusByte (b2n r.2.1)) r.1
  if t.held then t else { t with host := { t.host with freeAt := t.now + fin + 40 + 8 * n } }

/-- REREAD (R417): the data, CRC-8 and status of the last READ with a good header. -/
def hostReread (s : State) : State :=
  let st := s.host.readStatus
  let out := if st % 2 = 1 then fillOut s.host.words.length st else dataOut s.host.words st
  (s.tstat st 0).hostOut out

/-- A transaction that HCS_N ends before its status byte (R416): a READ has executed the `k` words that were read. -/
def hostAbort (cmd a k : Nat) (s : State) : State :=
  let n := cmd % 64 + 1
  if cmd / 64 = 0 ∧ !burstBad a n false then
    (readWords .host ((List.range (Nat.min k n)).map (burstAddr a false)) s).2
  else s

/-! ## The rows -/

/-- HOST_READ: `n + 1` words from offset `a`, with the CRC byte of the header; HCS_N falls at core cycle `cyc`. -/
def execHostRead (a : BitVec 16) (n : Fin 64) (crc : Byte) (cyc : Nat) (s : State) : Host.Outcome State Fault Refusal :=
  live s fun s => s.transact cyc fun s =>
    if headerOk n.val a crc then hostRead a.toNat (n.val + 1) s else s.badHeader (n.val + 1)

/-- HOST_WRITE: 1 to 64 words; another number of words is no transaction. -/
def execHostWrite (a : BitVec 16) (words : List Word) (crcH crcD : Byte) (cyc fin : Nat) (s : State) :
    Host.Outcome State Fault Refusal :=
  liveNA s fun s =>
    if words.isEmpty ∨ 64 < words.length then s
    else s.transact cyc fun s =>
      if headerOk (64 + words.length - 1) a crcH then hostWrite false a.toNat words crcD fin s
      else s.badHeader words.length

/-- HOST_WRITE_FIXED: 1 to 64 words to one offset. -/
def execHostWriteFixed (a : BitVec 16) (words : List Word) (crcH crcD : Byte) (cyc fin : Nat) (s : State) :
    Host.Outcome State Fault Refusal :=
  liveNA s fun s =>
    if words.isEmpty ∨ 64 < words.length then s
    else s.transact cyc fun s =>
      if headerOk (128 + words.length - 1) a crcH then hostWrite true a.toNat words crcD fin s
      else s.badHeader words.length

/-- HOST_REREAD: N and the address are ignored. -/
def execHostReread (a : BitVec 16) (n : Fin 64) (crc : Byte) (cyc : Nat) (s : State) :
    Host.Outcome State Fault Refusal :=
  live s fun s => s.transact cyc fun s =>
    if headerOk (192 + n.val) a crc then hostReread s else s.badHeader (n.val + 1)

/-- HOST_ABORT: the header's CMD, offset and CRC byte, and the words whose read had begun. -/
def execHostAbort (cmd : Byte) (a : BitVec 16) (crc : Byte) (k cyc : Nat) (s : State) : Host.Outcome State Fault Refusal :=
  live s fun s => s.transact cyc fun s =>
    if headerOk cmd.toNat a crc then hostAbort cmd.toNat a.toNat k s else s

end Sys2Proof.Machine
end

