-- ==== Sys2Proof/Machine/Sense.lean ====
section
/-!
DEFINITION. The rows of the sense channels (chapter 8): a fast output with what the current loop's open-coil check and the
sine and cosine decoder take from it, the common mode, settings, calibration.
-/
namespace Sys2Proof.Machine

/-- The core cycle at which the fast output about to be formed on channel `c` is taken: its place in the PWM period of its
axis, which began at the frame-aligned boundary or a whole number of periods after it (R162, R207). -/
def State.outTime (s : State) (c : Nat) : Nat :=
  let n := chanAxis c
  let first := s.cfg.run.dev.offset.getD n 0
  s.now + (first + (s.pw n).idx * s.pwmP n + ((s.ch c).outs + 1) * 320) % Nat.max 1 (s.get F.FRM_PERIOD_CYCLES)

/-- A fast output and its users: the open-coil check of a phase channel (R155), the decoder of a sine or cosine channel
(R235). -/
def fastStep (c : Nat) (raw : Int) (clip : Bool) (s : State) : State :=
  let t := s.outTime c
  let r := fastOutput c raw clip s
  if c < 16 then r.2.openCheck c r.1 else r.2.sincosOutput c r.1 t

/-- FAST_OUTPUT: the sinc3 value of channel `c` in DATA units and whether the modulator clipped. -/
def execFastOutput (c : SenseIx) (raw : Int) (clip : Bool) (s : State) : Host.Outcome State Fault Refusal :=
  live s (fastStep c.val raw clip)

/-- CM_OUT. -/
def execCmOut (c : SenseIx) (s : State) : Host.Outcome State Fault Refusal := live s (cmOutSet c.val)

/-- CM_OUT_CLEAR. -/
def execCmOutClear (c : SenseIx) (s : State) : Host.Outcome State Fault Refusal := live s (cmOutClear c.val)

/-- CSA_CFG_WRITE. -/
def execCsaCfgWrite (p : Path) (c : SenseIx) (w : Word) (s : State) : Host.Outcome State Fault Refusal :=
  live s fun s => (csaCfgWrite p c.val w s).2

/-- CSA_SYNC. -/
def execCsaSync (_p : Path) (s : State) : Host.Outcome State Fault Refusal := live s (csaSync 1)

/-- DCB_EST_WRITE. -/
def execDcbEstWrite (p : Path) (c : SenseIx) (w : Word) (s : State) : Host.Outcome State Fault Refusal :=
  live s fun s => (dcbEstWrite p c.val w s).2

/-- OFFSET_CAL_DONE. -/
def execOffsetCalDone (c : SenseIx) (s : State) : Host.Outcome State Fault Refusal := live s (offsetCalDone c.val)

end Sys2Proof.Machine
end

