-- ==== Sys2Proof/Machine/Dispatch.lean ====
section
/-!
DEFINITION. The dispatch: one arm per command, one direct call of its meaning.
-/
namespace Sys2Proof.Machine

/-- The effect of a command on everything but the queue. -/
def exec (i : Instr) (s : State) : Host.Outcome State Fault Refusal :=
  match i with
  | .frameStart inp => Sys2Proof.Machine.execFrameStart inp s
  | .outputStage => Sys2Proof.Machine.execOutputStage s
  | .ovrFaultClear p => Sys2Proof.Machine.execOvrFaultClear p s
  | .guardStageCheck => Sys2Proof.Machine.execGuardStageCheck s
  | .admissionDone => Sys2Proof.Machine.execAdmissionDone s
  | .maintRequest p w => Sys2Proof.Machine.execMaintRequest p w s
  | .maintAbort p w => Sys2Proof.Machine.execMaintAbort p w s
  | .maintTimeout slot => Sys2Proof.Machine.execMaintTimeout slot s
  | .scheduledMaintStart a => Sys2Proof.Machine.execScheduledMaintStart a s
  | .openFull p => Sys2Proof.Machine.execOpenFull p s
  | .openPartial p arg => Sys2Proof.Machine.execOpenPartial p arg s
  | .partialCopyDone => Sys2Proof.Machine.execPartialCopyDone s
  | .loadData p w => Sys2Proof.Machine.execLoadData p w s
  | .verify p => Sys2Proof.Machine.execVerify p s
  | .verifyDone => Sys2Proof.Machine.execVerifyDone s
  | .activate p => Sys2Proof.Machine.execActivate p s
  | .revert p => Sys2Proof.Machine.execRevert p s
  | .cancel p => Sys2Proof.Machine.execCancel p s
  | .sessionTimeout => Sys2Proof.Machine.execSessionTimeout s
  | .swapTimeout => Sys2Proof.Machine.execSwapTimeout s
  | .bootLoad => Sys2Proof.Machine.execBootLoad s
  | .programKey key slot => Sys2Proof.Machine.execProgramKey key slot s
  | .revokeKey key slot => Sys2Proof.Machine.execRevokeKey key slot s
  | .requireSig key slot => Sys2Proof.Machine.execRequireSig key slot s
  | .otpDone => Sys2Proof.Machine.execOtpDone s
  | .arm p n => Sys2Proof.Machine.execArm p n s
  | .disarm p n => Sys2Proof.Machine.execDisarm p n s
  | .stop p n => Sys2Proof.Machine.execStop p n s
  | .start p n => Sys2Proof.Machine.execStart p n s
  | .home p n => Sys2Proof.Machine.execHome p n s
  | .clearLimit p n => Sys2Proof.Machine.execClearLimit p n s
  | .clearFault p n => Sys2Proof.Machine.execClearFault p n s
  | .clearUncertain p n => Sys2Proof.Machine.execClearUncertain p n s
  | .targetWrite p n v => Sys2Proof.Machine.execTargetWrite p n v s
  | .vtargetWrite p n v => Sys2Proof.Machine.execVtargetWrite p n v s
  | .posWrite p n v => Sys2Proof.Machine.execPosWrite p n v s
  | .modeWrite p n w => Sys2Proof.Machine.execModeWrite p n w s
  | .stepEdge n rising dirHigh => Sys2Proof.Machine.execStepEdge n rising dirHigh s
  | .limitDebounced n inp level cyc => Sys2Proof.Machine.execLimitDebounced n inp level cyc s
  | .chgArm p n dir => Sys2Proof.Machine.execChgArm p n dir s
  | .chgCancel p n => Sys2Proof.Machine.execChgCancel p n s
  | .masterLost memb => Sys2Proof.Machine.execMasterLost memb s
  | .tcmdSubmit p n w => Sys2Proof.Machine.execTcmdSubmit p n w s
  | .tcmdExecute n j => Sys2Proof.Machine.execTcmdExecute n j s
  | .tcmdCancel p n w => Sys2Proof.Machine.execTcmdCancel p n w s
  | .herdSyncStart p w => Sys2Proof.Machine.execHerdSyncStart p w s
  | .herdStop p w => Sys2Proof.Machine.execHerdStop p w s
  | .herdStart p w => Sys2Proof.Machine.execHerdStart p w s
  | .bellwetherElection herd cands => Sys2Proof.Machine.execBellwetherElection herd cands s
  | .electWin q m => Sys2Proof.Machine.execElectWin q m s
  | .electDecline q m => Sys2Proof.Machine.execElectDecline q m s
  | .senseLost n => Sys2Proof.Machine.execSenseLost n s
  | .loopSat n phase => Sys2Proof.Machine.execLoopSat n phase s
  | .standstillDelay n => Sys2Proof.Machine.execStandstillDelay n s
  | .guardRelease n => Sys2Proof.Machine.execGuardRelease n s
  | .stretchPulse n phase => Sys2Proof.Machine.execStretchPulse n phase s
  | .openCoil n phase => Sys2Proof.Machine.execOpenCoil n phase s
  | .phaseAgeOut n phase => Sys2Proof.Machine.execPhaseAgeOut n phase s
  | .commOffsetWrite p n w => Sys2Proof.Machine.execCommOffsetWrite p n w s
  | .encScaleWrite p n reg w => Sys2Proof.Machine.execEncScaleWrite p n reg w s
  | .encCalDone n => Sys2Proof.Machine.execEncCalDone n s
  | .pwmBoundary n => Sys2Proof.Machine.execPwmBoundary n s
  | .pwmCommit p k cyc => Sys2Proof.Machine.execPwmCommit p k cyc s
  | .pwmForce p k w => Sys2Proof.Machine.execPwmForce p k w s
  | .faultLatchSet n code => Sys2Proof.Machine.execFaultLatchSet n code s
  | .pwmFaultForce p w => Sys2Proof.Machine.execPwmFaultForce p w s
  | .faultLatchClear p w => Sys2Proof.Machine.execFaultLatchClear p w s
  | .auxCommit p a cyc => Sys2Proof.Machine.execAuxCommit p a cyc s
  | .auxWindowEnd a => Sys2Proof.Machine.execAuxWindowEnd a s
  | .timerEvent u kind => Sys2Proof.Machine.execTimerEvent u kind s
  | .demandEdge k t => Sys2Proof.Machine.execDemandEdge k t s
  | .gateTurnOn k dt => Sys2Proof.Machine.execGateTurnOn k dt s
  | .handshakeTimeout k => Sys2Proof.Machine.execHandshakeTimeout k s
  | .bstUvEvent k => Sys2Proof.Machine.execBstUvEvent k s
  | .vdsTrip k high => Sys2Proof.Machine.execVdsTrip k high s
  | .drvEnLow => Sys2Proof.Machine.execDrvEnLow s
  | .drvEnHigh => Sys2Proof.Machine.execDrvEnHigh s
  | .faultNLow => Sys2Proof.Machine.execFaultNLow s
  | .gdrTripClear p reg w => Sys2Proof.Machine.execGdrTripClear p reg w s
  | .fastOutput c raw clip => Sys2Proof.Machine.execFastOutput c raw clip s
  | .cmOut c => Sys2Proof.Machine.execCmOut c s
  | .csaCfgWrite p c w => Sys2Proof.Machine.execCsaCfgWrite p c w s
  | .csaSync p => Sys2Proof.Machine.execCsaSync p s
  | .dcbEstWrite p c w => Sys2Proof.Machine.execDcbEstWrite p c w s
  | .offsetCalDone c => Sys2Proof.Machine.execOffsetCalDone c s
  | .anaOkChange ok => Sys2Proof.Machine.execAnaOkChange ok s
  | .quadTransition n a b cyc => Sys2Proof.Machine.execQuadTransition n a b cyc s
  | .indexEvent n cyc => Sys2Proof.Machine.execIndexEvent n cyc s
  | .noSignal n => Sys2Proof.Machine.execNoSignal n s
  | .ampBad n => Sys2Proof.Machine.execAmpBad n s
  | .hallChange n u v w cyc => Sys2Proof.Machine.execHallChange n u v w cyc s
  | .hallInvalid n => Sys2Proof.Machine.execHallInvalid n s
  | .ssiTransferDone n line bits => Sys2Proof.Machine.execSsiTransferDone n line bits s
  | .fbkPosWrite p n v => Sys2Proof.Machine.execFbkPosWrite p n v s
  | .fbkModeWrite p n w => Sys2Proof.Machine.execFbkModeWrite p n w s
  | .fbkStandstill n cyc => Sys2Proof.Machine.execFbkStandstill n cyc s
  | .fbkFaultClear p n w => Sys2Proof.Machine.execFbkFaultClear p n w s
  | .devSync p n w => Sys2Proof.Machine.execDevSync p n w s
  | .motorRWrite p n w => Sys2Proof.Machine.execMotorRWrite p n w s
  | .pmcStart p => Sys2Proof.Machine.execPmcStart p s
  | .pmcStop p => Sys2Proof.Machine.execPmcStop p s
  | .pmcUrgent p => Sys2Proof.Machine.execPmcUrgent p s
  | .scanTrigger => Sys2Proof.Machine.execScanTrigger s
  | .urgentTrigger => Sys2Proof.Machine.execUrgentTrigger s
  | .conversionDone onB x cyc => Sys2Proof.Machine.execConversionDone onB x cyc s
  | .interleaveBStart => Sys2Proof.Machine.execInterleaveBStart s
  | .pmcCfgWrite p e w => Sys2Proof.Machine.execPmcCfgWrite p e w s
  | .refReady cyc => Sys2Proof.Machine.execRefReady cyc s
  | .refSelect p w => Sys2Proof.Machine.execRefSelect p w s
  | .refXcheckDone ab ac bc => Sys2Proof.Machine.execRefXcheckDone ab ac bc s
  | .refFailedClear p w => Sys2Proof.Machine.execRefFailedClear p w s
  | .cmpTrip c cyc => Sys2Proof.Machine.execCmpTrip c cyc s
  | .cmpRelease c cyc => Sys2Proof.Machine.execCmpRelease c cyc s
  | .cmpDacWrite p c w => Sys2Proof.Machine.execCmpDacWrite p c w s
  | .cmpTestWrite p c w => Sys2Proof.Machine.execCmpTestWrite p c w s
  | .cmpSelftestDone c fail => Sys2Proof.Machine.execCmpSelftestDone c fail s
  | .dacReadbackDone c x => Sys2Proof.Machine.execDacReadbackDone c x s
  | .cmpOutputsEnabled => Sys2Proof.Machine.execCmpOutputsEnabled s
  | .linkUp q => Sys2Proof.Machine.execLinkUp q s
  | .trainReceived q body gapH => Sys2Proof.Machine.execTrainReceived q body gapH s
  | .trainInterval q => Sys2Proof.Machine.execTrainInterval q s
  | .trainTimeout q => Sys2Proof.Machine.execTrainTimeout q s
  | .loopReqTimeout q => Sys2Proof.Machine.execLoopReqTimeout q s
  | .linkLost q => Sys2Proof.Machine.execLinkLost q s
  | .segmentReceived q bytes => Sys2Proof.Machine.execSegmentReceived q bytes s
  | .ringPass q segs hdrH cyc ready => Sys2Proof.Machine.execRingPass q segs hdrH cyc ready s
  | .rootCycleStart cmds sources => Sys2Proof.Machine.execRootCycleStart cmds sources s
  | .rootPassReturn q segs elapsed => Sys2Proof.Machine.execRootPassReturn q segs elapsed s
  | .isolated => Sys2Proof.Machine.execIsolated s
  | .becomeRoot => Sys2Proof.Machine.execBecomeRoot s
  | .holdoverExpiry => Sys2Proof.Machine.execHoldoverExpiry s
  | .timeSet p fromCal => Sys2Proof.Machine.execTimeSet p fromCal s
  | .enumerate p => Sys2Proof.Machine.execEnumerate p s
  | .mgmtRead q m => Sys2Proof.Machine.execMgmtRead q m s
  | .mgmtWrite q m => Sys2Proof.Machine.execMgmtWrite q m s
  | .roleSet q m => Sys2Proof.Machine.execRoleSet q m s
  | .roleGet q m => Sys2Proof.Machine.execRoleGet q m s
  | .supLost => Sys2Proof.Machine.execSupLost s
  | .netOffsetWrite p q w => Sys2Proof.Machine.execNetOffsetWrite p q w s
  | .nvsLoad p id => Sys2Proof.Machine.execNvsLoad p id s
  | .nvsCommit p id => Sys2Proof.Machine.execNvsCommit p id s
  | .nvsAck p id => Sys2Proof.Machine.execNvsAck p id s
  | .saveState p id => Sys2Proof.Machine.execSaveState p id s
  | .restore p id => Sys2Proof.Machine.execRestore p id s
  | .blankRestoreStart => Sys2Proof.Machine.execBlankRestoreStart s
  | .recordCommitStart => Sys2Proof.Machine.execRecordCommitStart s
  | .recordCommitDone remaps => Sys2Proof.Machine.execRecordCommitDone remaps s
  | .safetyAutosave n => Sys2Proof.Machine.execSafetyAutosave n s
  | .energyRetry => Sys2Proof.Machine.execEnergyRetry s
  | .recordRead => Sys2Proof.Machine.execRecordRead s
  | .plsWriteStart => Sys2Proof.Machine.execPlsWriteStart s
  | .plsDone => Sys2Proof.Machine.execPlsDone s
  | .consumedMark => Sys2Proof.Machine.execConsumedMark s
  | .logChunkWrite remaps => Sys2Proof.Machine.execLogChunkWrite remaps s
  | .logFlushTimer => Sys2Proof.Machine.execLogFlushTimer s
  | .logSelect p w => Sys2Proof.Machine.execLogSelect p w s
  | .scrubDone corrected bad => Sys2Proof.Machine.execScrubDone corrected bad s
  | .choldMeasureDone dv1 dv2 t => Sys2Proof.Machine.execCholdMeasureDone dv1 dv2 t s
  | .replicaRefreshRun daily => Sys2Proof.Machine.execReplicaRefreshRun daily s
  | .replicaOffer m => Sys2Proof.Machine.execReplicaOffer m s
  | .replicaAccept m => Sys2Proof.Machine.execReplicaAccept m s
  | .replicaDecline m => Sys2Proof.Machine.execReplicaDecline m s
  | .offerTimeout k => Sys2Proof.Machine.execOfferTimeout k s
  | .replicaData m => Sys2Proof.Machine.execReplicaData m s
  | .replicaBlockAck m => Sys2Proof.Machine.execReplicaBlockAck m s
  | .replicaBlockNak m => Sys2Proof.Machine.execReplicaBlockNak m s
  | .replicaComplete m => Sys2Proof.Machine.execReplicaComplete m s
  | .replicaVerify m => Sys2Proof.Machine.execReplicaVerify m s
  | .replicaVerifyAck m => Sys2Proof.Machine.execReplicaVerifyAck m s
  | .replicaRelease m => Sys2Proof.Machine.execReplicaRelease m s
  | .replicaFetch m => Sys2Proof.Machine.execReplicaFetch m s
  | .restoreOfferWindow => Sys2Proof.Machine.execRestoreOfferWindow s
  | .replicaKeepExpiry j => Sys2Proof.Machine.execReplicaKeepExpiry j s
  | .powerUp => Sys2Proof.Machine.execPowerUp s
  | .supplyReset => Sys2Proof.Machine.execSupplyReset s
  | .rstNReset => Sys2Proof.Machine.execRstNReset s
  | .watchdogExpire => Sys2Proof.Machine.execWatchdogExpire s
  | .softwareReset p w => Sys2Proof.Machine.execSoftwareReset p w s
  | .resetRelease => Sys2Proof.Machine.execResetRelease s
  | .watchdogStart p w => Sys2Proof.Machine.execWatchdogStart p w s
  | .watchdogKick p w => Sys2Proof.Machine.execWatchdogKick p w s
  | .vmFail => Sys2Proof.Machine.execVmFail s
  | .vmGood => Sys2Proof.Machine.execVmGood s
  | .vmOv high => Sys2Proof.Machine.execVmOv high s
  | .vdrvFail high => Sys2Proof.Machine.execVdrvFail high s
  | .vdrvReady => Sys2Proof.Machine.execVdrvReady s
  | .vdrvEnWrite p w => Sys2Proof.Machine.execVdrvEnWrite p w s
  | .tsd => Sys2Proof.Machine.execTsd s
  | .tsdClear => Sys2Proof.Machine.execTsdClear s
  | .tempWarn warn => Sys2Proof.Machine.execTempWarn warn s
  | .huReady => Sys2Proof.Machine.execHuReady s
  | .choldStartTimeout => Sys2Proof.Machine.execCholdStartTimeout s
  | .shed => Sys2Proof.Machine.execShed s
  | .shedRestart => Sys2Proof.Machine.execShedRestart s
  | .guardDomainReset => Sys2Proof.Machine.execGuardDomainReset s
  | .vbatLow low => Sys2Proof.Machine.execVbatLow low s
  | .vioChange ok => Sys2Proof.Machine.execVioChange ok s
  | .backupPor => Sys2Proof.Machine.execBackupPor s
  | .calSecond cyc => Sys2Proof.Machine.execCalSecond cyc s
  | .calSet p w => Sys2Proof.Machine.execCalSet p w s
  | .calSnapshot p => Sys2Proof.Machine.execCalSnapshot p s
  | .calNetSync => Sys2Proof.Machine.execCalNetSync s
  | .oscStop => Sys2Proof.Machine.execOscStop s
  | .oscResume => Sys2Proof.Machine.execOscResume s
  | .hostRead a n crc cyc => Sys2Proof.Machine.execHostRead a n crc cyc s
  | .hostWrite a words crcH crcD cyc fin => Sys2Proof.Machine.execHostWrite a words crcH crcD cyc fin s
  | .hostWriteFixed a words crcH crcD cyc fin => Sys2Proof.Machine.execHostWriteFixed a words crcH crcD cyc fin s
  | .hostReread a n crc cyc => Sys2Proof.Machine.execHostReread a n crc cyc s
  | .hostAbort cmd a crc k cyc => Sys2Proof.Machine.execHostAbort cmd a crc k cyc s
  | .dbgHalt p => Sys2Proof.Machine.execDbgHalt p s
  | .dbgHaltSafe p => Sys2Proof.Machine.execDbgHaltSafe p s
  | .dbgResume p => Sys2Proof.Machine.execDbgResume p s
  | .dbgStep p => Sys2Proof.Machine.execDbgStep p s
  | .dbgReset p => Sys2Proof.Machine.execDbgReset p s
  | .dbgLock p w => Sys2Proof.Machine.execDbgLock p w s
  | .testTableWrite p w => Sys2Proof.Machine.execTestTableWrite p w s
  | .testPwmDrive p w => Sys2Proof.Machine.execTestPwmDrive p w s
  | .testMramAccess p w => Sys2Proof.Machine.execTestMramAccess p w s
  | .testNone p w => Sys2Proof.Machine.execTestNone p w s
  | .jtagSamplePreload cells => Sys2Proof.Machine.execJtagSamplePreload cells s
  | .dbgAccessRead a => Sys2Proof.Machine.execDbgAccessRead a s
  | .dbgAccessWrite a w => Sys2Proof.Machine.execDbgAccessWrite a w s
  | .dbgAccessFetch => Sys2Proof.Machine.execDbgAccessFetch s
  | .registerWrite p a w => Sys2Proof.Machine.execRegisterWrite p a w s
  | .w1cWrite p a w => Sys2Proof.Machine.execW1cWrite p a w s
  | .rcRead p a => Sys2Proof.Machine.execRcRead p a s
  | .wideLowRead p a => Sys2Proof.Machine.execWideLowRead p a s
  | .wideLowWrite p a w => Sys2Proof.Machine.execWideLowWrite p a w s
  | .vdsRelease k high => Sys2Proof.Machine.execVdsRelease k high s
  | .bstUvRelease k => Sys2Proof.Machine.execBstUvRelease k s
  | .gateOffReached k high => Sys2Proof.Machine.execGateOffReached k high s
  | .cmOutClear c => Sys2Proof.Machine.execCmOutClear c s
  | .auxCompareEdge a t => Sys2Proof.Machine.execAuxCompareEdge a t s
  | .digitalBallChange ball level => Sys2Proof.Machine.execDigitalBallChange ball level s
  | .linkModeRefused q => Sys2Proof.Machine.execLinkModeRefused q s
  | .invalidCodeGroup q => Sys2Proof.Machine.execInvalidCodeGroup q s
  | .prbsLock q => Sys2Proof.Machine.execPrbsLock q s
  | .prbsLockLost q => Sys2Proof.Machine.execPrbsLockLost q s
  | .prbsBitError q => Sys2Proof.Machine.execPrbsBitError q s
  | .tableReloadDone => Sys2Proof.Machine.execTableReloadDone s
  | .jtagIdcode => Sys2Proof.Machine.execJtagIdcode s
  | .jtagExtest => Sys2Proof.Machine.execJtagExtest s
  | .jtagClamp => Sys2Proof.Machine.execJtagClamp s
  | .jtagHighz => Sys2Proof.Machine.execJtagHighz s
  | .jtagBypass => Sys2Proof.Machine.execJtagBypass s
  | .tapReset => Sys2Proof.Machine.execTapReset s
  | .faultNHigh => Sys2Proof.Machine.execFaultNHigh s
  | .huReadyClear => Sys2Proof.Machine.execHuReadyClear s
  | .vgrdOk => Sys2Proof.Machine.execVgrdOk s
  | .vdrvOvRestart => Sys2Proof.Machine.execVdrvOvRestart s

end Sys2Proof.Machine
end

