-- ==== Sys2Proof/Safety.lean ====
section
/-!
DEFINITION. The terms in which claims about the block are stated: what a command answers, which registers it may change,
and what a safe bridge is.
-/
namespace Sys2Proof.Machine

/-- The command answers a next state, and `P` holds there. -/
def Does (c : Instr) (s : State) (P : State → Prop) : Prop := ∃ t, exec c s = .next t ∧ P t

/-- Every register outside the list keeps its word. -/
def KeepsRegs (l : List Nat) (s t : State) : Prop := ∀ a, a ∉ l → t.rd a = s.rd a

/-- The registers that any event may change beside its own status register: the log buffer and the event queue can turn
an entry away (R375, R353). -/
def eventRegs : List Nat := [R.NVS_LOG_LOST, R.NVS_IRQ_STATUS, R.NET_MBX_STATUS, R.NET_IRQ_STATUS]

/-- The registers of the asynchronous path: fault latches and their sources, forces, auxiliary outputs, VDS sources,
comparator outputs, the test mode that a fault ends. -/
def asyncRegs : List Nat :=
  eventRegs ++ [R.PWM_FAULT_LATCH, R.PWM_IRQ_STATUS, R.TEST_CTRL, R.CMP_OUT_LO, R.CMP_OUT_HI, R.CMP_TRIP_LO,
    R.CMP_TRIP_HI] ++ (List.range 8).map R.PWM_FAULT_SRCn ++ (List.range 32).map R.PWMk_FORCE ++
    (List.range 8).map R.PWM_AUXa_STATUS ++ (List.range 32).map R.GDRk_STATUS ++ (List.range 40).map R.CMPc_STATUS

/-- Nothing but registers, the event log and queue, and the named registers only, changes. -/
def OnlyRegs (l : List Nat) (s t : State) : Prop := t = { s with regs := t.regs } ∧ KeepsRegs l s t

/-- As `OnlyRegs`, where events are raised as well. -/
def OnlyEvents (l : List Nat) (s t : State) : Prop :=
  t = { s with regs := t.regs, log := t.log } ∧ KeepsRegs (eventRegs ++ l) s t

/-- As `OnlyEvents`, where the asynchronous path follows: the bridges, and of the axes what records a bridge turned off,
change as well. -/
def OnlyAsync (l : List Nat) (s t : State) : Prop :=
  t = { s with regs := t.regs, log := t.log, bridges := t.bridges, axes := t.axes } ∧ KeepsRegs (asyncRegs ++ l) s t

/-- The commands that act while the control die is held in reset: supplies and monitors, the gates and their guard domain,
the backup domain, the release of the reset (R391). -/
def actsInReset : Instr → Bool
  | .gateTurnOn _ _ | .gateOffReached _ _ | .vdsTrip _ _ | .drvEnLow | .drvEnHigh | .faultNLow | .faultNHigh | .vgrdOk => true
  | .powerUp | .supplyReset | .resetRelease | .shedRestart | .guardDomainReset => true
  | .vmOv _ | .vdrvFail _ | .vdrvReady | .vdrvOvRestart | .tsd | .tsdClear | .vbatLow _ | .vioChange _ => true
  | .backupPor | .calSecond _ | .oscStop | .oscResume => true
  | _ => false

/-- The result register of axis `n` shows the command with its code; a refusal has raised CMD_REFUSED (R442). -/
def Reports (n cmd code : Nat) (t : State) : Prop :=
  t.get (F.MOTn_RESULT_CMD n) = cmd ∧ t.get (F.MOTn_RESULT_CODE n) = code ∧
    (code ≠ 0 → t.flag (F.MOTn_IRQ_STATUS_CMD_REFUSED n) = true)

/-- The registers that reporting a motion command writes. -/
def resultRegs (n : Nat) : List Nat := [R.MOTn_RESULT n, R.MOTn_IRQ_STATUS n]

/-- Of the axes, only axis `n` changes. -/
def OnlyAxis (n : Nat) (s t : State) : Prop := ∀ m, m ≠ n → t.ax m = s.ax m

/-- A management request that every check of R354 and R356 passes, on a node without authentication: its address mode and
endpoint exist, its role epoch is present and it is well formed. -/
def Admitted (r : Req) (s : State) : Prop :=
  r.mode ≠ 3 ∧ (r.mode = 1 ∨ endpointOk r.low = true) ∧ s.authOn = false ∧ s.needsTag r = false ∧
    s.roleStale r = false ∧ r.bad = false

/-- No bridge drives both of its gates, nor is asked to: the half-bridge is not shorted (R184). -/
def NoShootThrough (s : State) : Prop :=
  ∀ k < 32, ¬ ((s.br k).hsOn = true ∧ (s.br k).lsOn = true) ∧ ¬ ((s.br k).h = true ∧ (s.br k).l = true)

/-- The asynchronous path is at rest: no fault level asserts, no route of the fabric feeds a sink, no channel is driven in the
test mode, and every demand is the one of its channel's state. -/
def Quiet (s : State) : Prop :=
  (∀ k, s.routesTo k = []) ∧ (∀ n < 8, s.faultLevels n = 0) ∧ s.get F.TEST_CTRL_MODE ≠ 2 ∧
    ∀ k < 32, s.demand k = ((s.br k).h, (s.br k).l)

/-- The registers of which a reset of the control die leaves something: those of the backup and guard domains, of the MRAM and the
fuses, the monitors and pins, and the cause that it records (R391, R392, R53). -/
def keptAtReset : List Nat :=
  [R.CFG_STATUS, R.CFG_KEY_STATUS, R.NVS_SPARE, R.CAL_SEC_LO, R.CAL_SEC_HI, R.CAL_SUBSEC, R.CAL_DATE, R.CAL_TIME, R.CAL_CFG,
   R.CAL_STATUS, R.SUP_STATUS, R.GDR_STATUS, R.CURn_GUARD 0, R.CURn_GUARD 1, R.DBG_STATUS, R.SUP_RST_CAUSE, R.NVS_STATUS,
   R.NVS_PLS_STATUS, R.NVS_LOG_HEAD, R.NVS_LOG_TAIL]

/-- `t` is `s` after a reset of the control die with a cause of Table 16.3 (R391): the die is held, every axis is disarmed, every
gate is off but the low sides that a latched short holds, the banks, the calendar, the guard domain and the stored log stay, and
every other register has its reset value. -/
def ControlReset (cause : Nat) (power : Bool) (s t : State) : Prop :=
  t.held = true ∧ t.sup.power = power ∧ t.rd R.SUP_RST_CAUSE = BitVec.ofNat 32 cause ∧ (∀ n, t.armed n = false) ∧
    (∀ k < 32, (t.br k).hsOn = false ∧ (s.shortLatched (k / 4) = false → (t.br k).lsOn = false)) ∧
    (∀ n < 2, t.shortLatched n = s.shortLatched n) ∧ t.cfg.banks = s.cfg.banks ∧ t.backup = s.backup ∧
    t.guard = s.guard ∧ t.log.area = s.log.area ∧ ∀ a, a ∉ keptAtReset → t.rd a = resetWord a

end Sys2Proof.Machine
end

