-- ==== Sys2Proof/Certificates/Slice0/Obligations.lean ====
section
/-!
DEFINITION. The statements for the provers: the rules of the spec, chapter by chapter, as claims about the model. A
clause `Does c s P` says that the command completes from `s`, and what holds then; `KeepsRegs`, `OnlyRegs`, `OnlyEvents`
and `OnlyAsync` say what it leaves unchanged.
-/
open Sys2Proof Sys2Proof.Machine

/-- The block takes the command at the front of its queue and runs it with the rest; it idles on an empty queue. Idling is the
model's choice (log entry 4). -/
def Obligations.StepRunsTheFrontCommand : Prop :=
  (∀ (c : Instr) (q : List Instr) (s : State), s.pending = c :: q → step s = exec c { s with pending := q }) ∧
  (∀ s : State, s.pending = [] → step s = .next s)

/-- No command stops the block, and none touches the commands that wait: after as many steps as commands wait the queue is
empty, and after fewer the rest of it waits in its order. -/
def Obligations.TheQueueRunsThroughInOrder : Prop :=
  ∀ (s : State) (k : Nat), k ≤ s.pending.length →
    ∃ t, Host.Core.run core k s = .next t ∧ t.pending = s.pending.drop k

/-- While the control die is held in reset, no block clock runs: only the commands of the supplies, the gates and their guard
domain, the backup domain and the release of the reset act (R391). -/
def Obligations.ResetHoldsTheBlockClocks : Prop :=
  ∀ (c : Instr) (s : State), s.held = true → actsInReset c = false → exec c s = .next s

/-- What reset leaves: every register at the value of its map, C = 10,000 with an empty table, no configuration, every axis
disarmed and unconfigured, every gate off, the store and the loader idle. At reset no bridge is shorted and the asynchronous
path is at rest. That nothing is configured, stored or queued there is the model's choice of a blank device (log entries 1
and 2). -/
def Obligations.ResetStateIsTheMapsAndSafe : Prop :=
  State.reset.get F.FRM_PERIOD_CYCLES = 10000 ∧ State.reset.get F.FRM_STATUS_STATE = 0 ∧
  State.reset.get F.FRM_COUNT_COUNT = 0 ∧ State.reset.frm.tasks = [] ∧ State.reset.get F.CFG_STATUS_LOADER = 0 ∧
  State.reset.get F.SUP_STATUS_STATE = 0 ∧ State.reset.get F.PWM_FAULT_LATCH_LATCH = 0 ∧
  (∀ n < 8, State.reset.armed n = false ∧ State.reset.configured n = false) ∧
  (∀ k < 32, (State.reset.br k).hsOn = false ∧ (State.reset.br k).lsOn = false) ∧
  State.reset.pending = [] ∧ SMap.wf resetWord State.reset.regs = true ∧ State.reset.frm.dmem = [] ∧
  NoShootThrough State.reset ∧ Quiet State.reset

/-- The stages of a frame: the frame start ends with the table window done, the output stage with its commits, the guard stage
with its check, each where its turn has come; an overrun frame counts and reports (R31) and stays uncommitted. A frame start
brings the run times of the activities forward, in units of 10 ms (FRM_MAINT_SLOTnn.ELAPSED). R32: a write of 1 to OVR_FAULT
clears the overrun fault state, and STATE reads what the frame engine does. How time passes and what an overrun frame leaves
are the model's reading (log entries 4 and 19). -/
def Obligations.FrameStagesFollowInTurn : Prop :=
  (∀ (i : FrameIn) (s : State), s.held = false → s.dbg.halt = false →
    Does (.frameStart i) s fun t => t.frm.stage = .window) ∧
  (∀ s : State, s.held = false → s.frm.stage = .window →
    Does .outputStage s fun t => t.frm.stage = .output ∧ (s.frm.lastOverrun = false → t.frm.overruns = 0)) ∧
  (∀ s : State, s.held = false → s.frm.stage = .window → s.frm.lastOverrun = true →
    s.frm.overruns + 1 < s.get F.FRM_CTRL_OVR_LIMIT →
    Does .outputStage s fun t =>
      t.get F.FRM_OVR_COUNT_COUNT = satAdd 16 (s.get F.FRM_OVR_COUNT_COUNT) 1 ∧
      t.flag F.FRM_IRQ_STATUS_OVERRUN = true ∧ t.frm.dmem = s.frm.dmem) ∧
  (∀ s : State, s.held = false → s.frm.stage = .output →
    Does .guardStageCheck s fun t => t.frm.stage = .guard ∧ t.regs = s.regs ∧
      (∀ job n, s.cfg.swap = some job → job.axis = some n →
        t.frm.swapCommit = (s.swapCond job n && !s.dueNext n && !s.flag F.FRM_CTRL_SWAP_HOLD && !s.frm.lastOverrun))) ∧
  (∀ (i : FrameIn) (s : State), s.held = false →
     Does (.frameStart i) s fun t => ∀ k < 16, t.slotBusy k = true →
       t.get (F.FRM_MAINT_SLOTn_ELAPSED k) = Nat.min 4095 ((t.now - t.frm.slotStart.toList.getD k 0) / 4000000)) ∧
  (∀ (p : Path) (s : State), s.held = false →
     Does (.ovrFaultClear p) s fun t =>
       t.flag F.FRM_STATUS_OVR_FAULT = false ∧
       t.get F.FRM_STATUS_STATE = (if s.halted then 2 else if s.frm.tasks.isEmpty then 0 else 1) ∧
       OnlyRegs [R.FRM_STATUS] s t)

/-- The arbiter: a granted request occupies its slot and answers its requester with it (R35, R40); a request in conflict is
refused with the slot that blocks it, counted and reported (R36, R37). An aborted activity frees its slot and MAINT_ABORTED
is raised: a CHOLD_MEASURE or MRAM_SCRUB that a requester aborts, or that exceeds its time bound, which the log records
first (R42). The order of judging is the model's reading (log entry 10). -/
def Obligations.ArbiterGrantsRefusesAndAborts : Prop :=
  (∀ (p : Path) (w : Word) (s : State) (i : Nat), s.held = false →
    s.judgeMaint (bitsOf w 0 8) (bitsOf w 8 8) (requesterOf p s) = (0, i, 0) →
    Does (.maintRequest p w) s fun t => t.frm.maintResult[portOf p] = maintWord 0 i 0) ∧
  (∀ (p : Path) (w : Word) (s : State) (b : Nat), s.held = false →
    s.judgeMaint (bitsOf w 0 8) (bitsOf w 8 8) (requesterOf p s) = (1, 0, b) →
    Does (.maintRequest p w) s fun t => t.frm.maintResult[portOf p] = maintWord 1 0 b ∧
      t.flag F.FRM_IRQ_STATUS_MAINT_REFUSED = true ∧
      t.get F.FRM_MAINT_BUSY_CNT_COUNT = satAdd 16 (s.get F.FRM_MAINT_BUSY_CNT_COUNT) 1) ∧
  (∀ (a : SchedAct) (s : State) (b : Nat), s.held = false → a ≠ .mramScrub → a ≠ .replicaRefresh →
    s.judgeMaint (schedCode a) 0 reqDevice = (1, 0, b) →
    Does (.scheduledMaintStart a) s fun t =>
      t.get F.FRM_MAINT_SKIP_CNT_COUNT = satAdd 16 (s.get F.FRM_MAINT_SKIP_CNT_COUNT) 1) ∧
  (∀ (s : State) (i : Nat), s.held = false → s.judgeMaint 8 0 reqDevice = (0, i, 0) →
    Does (.scheduledMaintStart .choldMeasure) s fun t => i < 16 → t.slotBusy i = true ∧ t.slotAct i = 8) ∧
  (∀ (p : Path) (w : Word) (s : State), s.held = false → s.slotBusy (bitsOf w 0 4) = true →
    (s.slotAct (bitsOf w 0 4) = 5 ∨ s.slotAct (bitsOf w 0 4) = 8) →
    Does (.maintAbort p w) s fun t =>
      t.slotBusy (bitsOf w 0 4) = false ∧ t.flag F.FRM_IRQ_STATUS_MAINT_ABORTED = true) ∧
  (∀ (i : Fin 16) (s : State), s.held = false → s.slotBusy i.val = true →
    (s.slotAct i.val = 5 ∨ s.slotAct i.val = 8) →
    s.dueBy (s.frm.slotStart.toList.getD i.val 0 + s.actBound (s.slotAct i.val)) = true →
    Does (.maintTimeout i) s fun t =>
      t.slotBusy i.val = false ∧ t.flag F.FRM_IRQ_STATUS_MAINT_ABORTED = true)

/-- A session opens where none is open (R68, R70): the inactive bank is marked invalid, the session is bound to its port, and a
partial one has claimed its axis from the arbiter. A word of CFG_LOAD_DATA stores its four bytes in the image space at
CFG_LOAD_ADDR, low byte first, and the address advances by one word; VERIFY starts on a session that has nothing more to
write (R71, R72). What a refused command leaves is the model's reading (log entry 12). -/
def Obligations.LoaderOpensAndFills : Prop :=
  (∀ (p : Path) (s : State), s.held = false → s.cfg.port = none →
    Does (.openFull p) s fun t =>
      t.get F.CFG_STATUS_LOADER = 1 ∧ t.get F.CFG_STATUS_PART_AXIS = 0xF ∧ t.flag (bankValidFld s.otherBank) = false ∧
      t.cfg.port = some p ∧ t.cfg.img = [] ∧ KeepsRegs [R.CFG_STATUS] s t) ∧
  (∀ (p : Path) (arg : Byte) (s : State) (i : Nat), s.held = false → s.cfg.port = none → arg.toNat < 8 →
    s.judgeMaint 6 arg.toNat (requesterOf p s) = (0, i, 0) →
    Does (.openPartial p arg) s fun t =>
      t.get F.CFG_STATUS_LOADER = 3 ∧ t.get F.CFG_STATUS_PART_AXIS = arg.toNat ∧ t.cfg.port = some p ∧
      t.slotBusy i = true ∧ t.slotAct i = 6 ∧ t.slotTarget i = arg.toNat ∧
      KeepsRegs [R.CFG_STATUS, R.FRM_MAINT_SLOTn i] s t) ∧
  (∀ s : State, s.held = false → s.loader = 3 → s.cfg.held = [] → s.findAct 8 0 = none →
    s.energyOk (blockTime 4096) = true →
    Does .partialCopyDone s fun t =>
      t.get F.CFG_STATUS_LOADER = 2 ∧ t.cfg.port = s.cfg.port) ∧
  (∀ (p : Path) (w : Word) (s : State), s.held = false → s.bound p = true → (s.loader = 1 ∨ s.loader = 2) →
    s.cfg.page = none →
    Does (.loadData p w) s fun t =>
      (∀ j < 4, SMap.get (fun _ => (0 : Byte)) t.cfg.img (4 * s.get F.CFG_LOAD_ADDR_ADDR + j) =
        BitVec.ofNat 8 (w.toNat / 2 ^ (8 * j))) ∧
      (∀ a, (a < 4 * s.get F.CFG_LOAD_ADDR_ADDR ∨ 4 * s.get F.CFG_LOAD_ADDR_ADDR + 4 ≤ a) →
        SMap.get (fun _ => (0 : Byte)) t.cfg.img a = SMap.get (fun _ => (0 : Byte)) s.cfg.img a) ∧
      t.get F.CFG_LOAD_ADDR_ADDR = (s.get F.CFG_LOAD_ADDR_ADDR + 1) % 2 ^ 20 ∧ KeepsRegs [R.CFG_LOAD_ADDR] s t) ∧
  (∀ (p : Path) (s : State), s.held = false → s.bound p = true → (s.loader = 1 ∨ s.loader = 2) → s.cfg.page = none →
    Does (.verify p) s fun t => t.get F.CFG_STATUS_LOADER = 4 ∧ OnlyRegs [R.CFG_STATUS] s t)

/-- Verification ends (R72): passed, the session is VERIFIED and the result is OK; failed, the result names code and stage of
the first failing check, LOAD_REFUSED is raised and the session is closed. A cancelled session (R68, R77), one left idle
(R69) and a swap that did not become possible in time (R76) end with their code, with LOAD_REFUSED and without a session.
That every failed end raises LOAD_REFUSED is the model's reading (log entry 12). -/
def Obligations.SessionsVerifyAndEnd : Prop :=
  (∀ (s : State) (im : Image) (job : Job), s.held = false → s.loader = 4 →
    verifyAll s s.sessionBytes = .ok (im, job) →
    Does .verifyDone s fun t =>
      t.get F.CFG_STATUS_LOADER = 5 ∧ t.get F.CFG_RESULT_CODE = 0 ∧ t.get F.CFG_RESULT_STAGE = 0 ∧
      t.cfg.ver = some job ∧ t.flag (bankValidFld s.otherBank) = true ∧ t.flag F.CFG_IRQ_STATUS_LOAD_DONE = true) ∧
  (∀ (s : State) (c st sec : Nat), s.held = false → s.loader = 4 →
    verifyAll s s.sessionBytes = .error (c, st, sec) →
    Does .verifyDone s fun t =>
      t.get F.CFG_STATUS_LOADER = 0 ∧ t.get F.CFG_RESULT_CODE = c % 256 ∧ t.get F.CFG_RESULT_STAGE = st % 256 ∧
      t.cfg.port = none ∧ t.flag F.CFG_IRQ_STATUS_LOAD_REFUSED = true) ∧
  (∀ (p : Path) (s : State), s.held = false → s.bound p = true → s.frm.swapCommit = false →
    Does (.cancel p) s fun t =>
      t.get F.CFG_RESULT_CODE = 0x15 ∧ t.get F.CFG_STATUS_LOADER = 0 ∧ t.cfg.port = none ∧
      t.flag F.CFG_IRQ_STATUS_LOAD_REFUSED = true) ∧
  (∀ s : State, s.held = false → s.cfg.port.isSome = true → (s.loader = 1 ∨ s.loader = 2 ∨ s.loader = 5) →
    Does .sessionTimeout s fun t =>
      t.get F.CFG_RESULT_CODE = 0x15 ∧ t.get F.CFG_STATUS_LOADER = 0 ∧ t.cfg.port = none ∧
      t.flag F.CFG_IRQ_STATUS_LOAD_REFUSED = true) ∧
  (∀ s : State, s.held = false → s.loader = 6 → s.cfg.swap.isSome = true → s.frm.swapCommit = false →
    Does .swapTimeout s fun t =>
      t.get F.CFG_RESULT_CODE = 0x14 ∧ t.get F.CFG_STATUS_LOADER = 0 ∧ t.cfg.swap = none ∧
      t.flag F.FRM_STATUS_SWAP_PENDING = false ∧ t.flag F.CFG_IRQ_STATUS_LOAD_REFUSED = true ∧
      t.flag F.CFG_IRQ_STATUS_SWAP_CANCELLED = true)

/-- ACTIVATE and REVERT hand a configuration to the next frame start: a full one only with every axis disarmed, a partial one as
a pending swap (R73, R74). -/
def Obligations.ActivationIsHandedOver : Prop :=
  (∀ (p : Path) (s : State) (job : Job), s.held = false → s.bound p = true → s.loader = 5 → s.cfg.ver = some job →
    job.axis = none → s.anyArmed = false →
    Does (.activate p) s fun t =>
      t.cfg.act = some job ∧ t.get F.CFG_STATUS_LOADER = 0 ∧ t.get F.CFG_RESULT_CODE = 0 ∧ t.cfg.run = s.cfg.run ∧
      OnlyRegs [R.CFG_STATUS, R.CFG_RESULT] { s with cfg := t.cfg } t) ∧
  (∀ (p : Path) (s : State) (job : Job), s.held = false → s.bound p = true → s.loader = 5 → s.cfg.ver = some job →
    job.axis = none → s.anyArmed = true →
    Does (.activate p) s fun t => t.get F.CFG_RESULT_CODE = 0x12 ∧ OnlyRegs [R.CFG_RESULT] s t) ∧
  (∀ (p : Path) (s : State) (job : Job) (n : Nat), s.held = false → s.bound p = true → s.loader = 5 →
    s.cfg.ver = some job → job.axis = some n → n < 8 →
    Does (.activate p) s fun t =>
      t.cfg.swap = some job ∧ t.get F.CFG_STATUS_LOADER = 6 ∧ t.flag F.FRM_STATUS_SWAP_PENDING = true ∧
      t.get F.FRM_STATUS_SWAP_AXIS = n ∧ OnlyRegs [R.CFG_STATUS, R.FRM_STATUS] { s with cfg := t.cfg } t) ∧
  (∀ (p : Path) (s : State) (c : Config) (pl : Placement), s.held = false → s.cfg.port = none → s.anyArmed = false →
    loadBank s s.otherBank = .ok c → periodOk c.dev s.ringCycle = true →
    buildPlacement c.dev.cycles (c.parts.flatMap (·.tasks)) = some pl →
    Does (.revert p) s fun t =>
      t.cfg.act = some { bank := s.otherBank, cfg := c, place := pl, axis := none, fallback := false } ∧
      t.get F.CFG_RESULT_CODE = 0 ∧ OnlyRegs [R.CFG_RESULT] { s with cfg := t.cfg } t)

/-- The boot reads the bank that BOOT_BANK names and hands it to the frame builder (R47); admitted, it takes effect at the next
frame start (R29). With both banks bad, start-up ends in NO_CONFIG with the result of the last (R47, R395). What the boot
checks again is the model's reading (log entries 11 and 50). -/
def Obligations.BootHandsABankOver : Prop :=
  (∀ (s : State) (c : Config), s.held = false → s.sup.reached = 0 → s.cfg.boot = none → s.cfg.act = none →
    bootBank s.plsRestore (s.get F.CFG_STATUS_BOOT_BANK) = .ok c →
    Does .bootLoad s fun t => ∃ job, t.cfg.boot = some job ∧ job.cfg = c ∧
      job.bank = s.get F.CFG_STATUS_BOOT_BANK ∧ job.fallback = false) ∧
  (∀ (s : State) (job : Job) (pl : Placement), s.held = false → s.cfg.boot = some job →
    periodOk job.cfg.dev 0 = true →
    buildPlacement job.cfg.dev.cycles (job.cfg.parts.flatMap (·.tasks)) = some pl →
    Does .admissionDone s fun t => t.cfg.act = some { job with place := pl } ∧ t.cfg.boot = none ∧
      KeepsRegs [R.CFG_RESULT] s t)

/-- The key fuses: a command with its key starts an operation where no condition of R55 stands against it, and OTP_BUSY reads 1
until it completes; the slot is then programmed or revoked, or signatures are required (R53). That a command without its key
has no effect is the model's reading (log entry 12). -/
def Obligations.KeyFusesOperate : Prop :=
  (∀ (slot : Fin 4) (s : State), s.held = false → s.anyArmed = false → s.flag F.SUP_STATUS_VM_FAIL = false →
    s.cfg.otpOp = none → s.keyState slot.val = 0 →
    Does (.programKey 0x5A slot) s fun t =>
      t.cfg.otpOp = some (1, slot.val) ∧ t.cfg.otpKey = s.stagedKey ∧ t.flag F.CFG_KEY_STATUS_OTP_BUSY = true ∧
      OnlyRegs [R.CFG_KEY_STATUS] { s with cfg := t.cfg } t) ∧
  (∀ (slot : Fin 4) (s : State), s.held = false → s.anyArmed = false → s.flag F.SUP_STATUS_VM_FAIL = false →
    s.cfg.otpOp = none → s.signsActive slot.val = false →
    Does (.revokeKey 0x5A slot) s fun t =>
      t.cfg.otpOp = some (2, slot.val) ∧ t.flag F.CFG_KEY_STATUS_OTP_BUSY = true ∧
      OnlyRegs [R.CFG_KEY_STATUS] { s with cfg := t.cfg } t) ∧
  (∀ (slot : Fin 4) (s : State), s.held = false → s.anyArmed = false → s.flag F.SUP_STATUS_VM_FAIL = false →
    s.cfg.otpOp = none → s.flag F.CFG_STATUS_SIGNED = true → s.flag F.CFG_KEY_STATUS_SIG_REQUIRED = false →
    Does (.requireSig 0x5A slot) s fun t =>
      t.cfg.otpOp = some (3, slot.val) ∧ t.flag F.CFG_KEY_STATUS_OTP_BUSY = true ∧
      OnlyRegs [R.CFG_KEY_STATUS] { s with cfg := t.cfg } t) ∧
  (∀ (key : Byte) (slot : Fin 4) (s : State), s.held = false → key ≠ 0x5A →
    Does (.programKey key slot) s fun t => t = s) ∧
  (∀ (slot : Fin 4) (s : State), s.held = false → s.cfg.otpOp = some (1, slot.val) →
    Does .otpDone s fun t =>
      t.keyState slot.val = 1 ∧ t.cfg.otpOp = none ∧ t.flag F.CFG_KEY_STATUS_OTP_BUSY = false ∧
      OnlyRegs [R.CFG_KEY_STATUS] { s with cfg := t.cfg } t) ∧
  (∀ s : State, s.held = false → s.cfg.otpOp = some (3, 0) →
    Does .otpDone s fun t => t.flag F.CFG_KEY_STATUS_SIG_REQUIRED = true ∧ t.cfg.otpOp = none)

/-- ARM (R94): accepted on a disarmed axis that no condition stands against, it sets TARGET to x, leaves x, and the axis is at
rest; refused, it reports the first condition that fails and changes nothing else; on an armed axis it changes nothing.
DISARM (R95): the axis is disarmed and at v = 0, STATE reads DISARMED, the gear is disengaged; the coil state is the one
that R152 gives. The commands are as the input latch takes them, and DISARM on a disarmed axis reports OK (log entries 6 and
20). -/
def Obligations.ArmAndDisarm : Prop :=
  (∀ (p : Path) (n : AxisIx) (s : State), s.held = false → s.armed n = false → s.armCode n = 0 →
    -2 ^ 47 ≤ s.pos n → s.pos n < 2 ^ 47 →
    Does (.arm p n) s fun t =>
      t.armed n = true ∧ t.pos n = s.pos n ∧ (t.ax n).kin.v = 0 ∧ t.target n = s.pos n ∧ Reports n 1 0 t ∧
      (∀ m, m ≠ n.val → t.armed m = s.armed m) ∧
      KeepsRegs (asyncRegs ++ resultRegs n ++ [R.MOTn_TARGET n, R.MOTn_TARGET n + 4, R.MOTn_STATUS n, R.CURn_STATUS n] ++
        (List.range 4).map fun j => R.CMPc_CFG (4 * n + j)) s t) ∧
  (∀ (p : Path) (n : AxisIx) (s : State), s.held = false → s.armed n = false → s.configured n = false →
    Does (.arm p n) s fun t => Reports n 1 9 t ∧ OnlyAsync (resultRegs n) s t) ∧
  (∀ (p : Path) (n : AxisIx) (s : State), s.held = false → s.armed n = false → s.configured n = true →
    s.flag F.GDR_STATUS_DRV_EN = false →
    Does (.arm p n) s fun t => Reports n 1 6 t ∧ OnlyAsync (resultRegs n) s t) ∧
  (∀ (p : Path) (n : AxisIx) (s : State), s.held = false → s.armed n = false → s.configured n = true →
    s.flag F.GDR_STATUS_DRV_EN = true → s.supplyGood = true → s.flag F.FRM_STATUS_OVR_FAULT = true →
    Does (.arm p n) s fun t => Reports n 1 5 t ∧ OnlyAsync (resultRegs n) s t) ∧
  (∀ (p : Path) (n : AxisIx) (s : State), s.held = false → s.armed n = true →
    Does (.arm p n) s fun t => Reports n 1 0 t ∧ OnlyAsync (resultRegs n) s t) ∧
  (∀ (p : Path) (n : AxisIx) (s : State), s.held = false → s.armed n = true →
    Does (.disarm p n) s fun t =>
      t.armed n = false ∧ (t.ax n).kin.v = 0 ∧ (t.ax n).kin.x = (s.ax n).kin.x ∧ t.get (F.MOTn_STATUS_STATE n) = 0 ∧
      t.flag (F.MOTn_GEAR_STATUS_ENGAGED n) = false ∧ t.get (F.CURn_STATUS_COIL_STATE n) = s.disarmCoil n ∧
      Reports n 2 0 t ∧ (∀ m, m ≠ n.val → t.armed m = s.armed m)) ∧
  (∀ (p : Path) (n : AxisIx) (s : State), s.held = false → s.armed n = false →
    Does (.disarm p n) s fun t => Reports n 2 0 t ∧ OnlyAsync (resultRegs n) s t)

/-- STOP (R99) is recorded for the next latch with its cause, HOST or RING, on any axis; CLEAR_FAULT (R102) and CLEAR_UNCERTAIN
(R103) clear their bit and nothing else. The commands are as the input latch takes them, STOP on a disarmed axis too (log
entries 6 and 20). -/
def Obligations.StopAndClearsAreTaken : Prop :=
  (∀ (p : Path) (n : AxisIx) (s : State), s.held = false → (∀ q src, p ≠ .ring q src) →
    Does (.stop p n) s fun t =>
      (t.ax n).causes = (s.ax n).causes ++ [(1, 0)] ∧ Reports n 3 0 t ∧ OnlyAxis n s t ∧
      OnlyEvents (resultRegs n) { s with axes := t.axes } t) ∧
  (∀ (q : PortIx) (src : Nat) (n : AxisIx) (s : State), s.held = false →
    Does (.stop (.ring q src) n) s fun t =>
      (t.ax n).causes = (s.ax n).causes ++ [(4, 0)] ∧ Reports n 3 0 t ∧ OnlyAxis n s t ∧
      OnlyEvents (resultRegs n) { s with axes := t.axes } t) ∧
  (∀ (p : Path) (n : AxisIx) (s : State), s.held = false →
    Does (.clearFault p n) s fun t =>
      t.flag (F.MOTn_STATUS_FAULT_LATCH n) = false ∧ Reports n 7 0 t ∧
      OnlyEvents (R.MOTn_STATUS n :: resultRegs n) s t) ∧
  (∀ (p : Path) (n : AxisIx) (s : State), s.held = false →
    Does (.clearUncertain p n) s fun t =>
      t.flag (F.MOTn_STATUS_POS_UNCERTAIN n) = false ∧ Reports n 8 0 t ∧
      OnlyEvents (R.MOTn_STATUS n :: resultRegs n) s t)

/-- START (R102, R117): accepted, the motion runs and a stop's discarding of edges ends; in geared mode the axis engages, locked
at once with ENGAGE = 0. Refused (R442), it reports its code and changes nothing else. HOME (R108): accepted, a homing run
starts in its first phase, away from the reference where it is active, HOMED clears and method 1 clears the latch of the
limit it searches. The commands are as the input latch takes them (log entries 6 and 20). -/
def Obligations.MotionAndHomingStart : Prop :=
  (∀ (p : Path) (n : AxisIx) (s : State), s.held = false → s.mode n < 3 →
    s.motionCode n .start (s.masterRouted n) = 0 →
    Does (.start p n) s fun t =>
      (t.ax n).run = true ∧ (t.ax n).followOff = false ∧ Reports n 4 0 t ∧ OnlyAxis n s t ∧
      OnlyEvents (resultRegs n) { s with axes := t.axes } t) ∧
  (∀ (p : Path) (n : AxisIx) (s : State), s.held = false → s.mode n = 3 →
    s.flag (F.MOTn_GEAR_STATUS_ENGAGED n) = false → s.motionCode n .start (s.masterRouted n) = 0 →
    Does (.start p n) s fun t =>
      t.flag (F.MOTn_GEAR_STATUS_ENGAGED n) = true ∧ (t.ax n).gear.rem = 0 ∧ Reports n 4 0 t ∧
      (s.get (F.MOTn_GEAR_CFG_ENGAGE n) = 0 → t.flag (F.MOTn_GEAR_STATUS_LOCKED n) = true ∧
        t.flag (F.MOTn_GEAR_IRQ_STATUS_GEAR_LOCKED n) = true) ∧
      (s.get (F.MOTn_GEAR_CFG_ENGAGE n) ≠ 0 → t.flag (F.MOTn_GEAR_STATUS_SYNCING n) = true) ∧
      OnlyEvents (resultRegs n ++ [R.MOTn_GEAR_STATUS n, R.MOTn_GEAR_IRQ_STATUS n]) { s with axes := t.axes } t) ∧
  (∀ (p : Path) (n : AxisIx) (s : State), s.held = false → s.mode n < 3 →
    s.motionCode n .start (s.masterRouted n) ≠ 0 →
    Does (.start p n) s fun t =>
      Reports n 4 (s.motionCode n .start (s.masterRouted n)) t ∧ OnlyEvents (resultRegs n) s t) ∧
  (∀ (p : Path) (n : AxisIx) (s : State), s.held = false → s.motionCode n .home false = 0 →
     Does (.home p n) s fun t =>
       ((t.ax n).home.map (·.phase) =
         some (if s.get (F.MOTn_HOME_CFG_METHOD n) ≤ 2 ∧ s.refSwitch n then .away else .search)) ∧
       t.flag (F.MOTn_STATUS_HOMED n) = false ∧ Reports n 5 0 t ∧
       (s.get (F.MOTn_HOME_CFG_METHOD n) = 1 → s.flag (F.MOTn_HOME_CFG_DIR n) = true →
         t.flag (F.MOTn_STATUS_LIM_P_LATCH n) = false) ∧
       OnlyAxis n s t ∧ OnlyEvents (R.MOTn_STATUS n :: resultRegs n) { s with axes := t.axes } t)

/-- The order of the refusals of a motion command (R442): the state and mode first, then a running ENC_CAL, the fault latch, the
parameters; each comes back as the code of the command. The commands are as the input latch takes them (log entries 6 and
20). -/
def Obligations.MotionRefusalsInOrder : Prop :=
  (∀ (p : Path) (n : AxisIx) (s : State), s.held = false → s.armed n = false →
    Does (.home p n) s fun t => Reports n 5 1 t ∧ OnlyEvents (resultRegs n) s t) ∧
  (∀ (p : Path) (n : AxisIx) (s : State), s.held = false → s.armed n = true → (s.ax n).stopOpen = false →
    (s.ax n).home = none → s.mode n ≤ 1 → (s.ax n).cal = none → s.flag (F.MOTn_STATUS_FAULT_LATCH n) = true →
    Does (.home p n) s fun t => Reports n 5 5 t ∧ OnlyEvents (resultRegs n) s t) ∧
  (∀ (p : Path) (n : AxisIx) (s : State), s.held = false → s.armed n = true → (s.ax n).stopOpen = false →
    (s.ax n).home = none → s.mode n ≤ 1 → (s.ax n).cal = none → s.flag (F.MOTn_STATUS_FAULT_LATCH n) = false →
    s.get (F.MOTn_A1_RATE n) = 0 →
    Does (.home p n) s fun t => Reports n 5 4 t ∧ OnlyEvents (resultRegs n) s t) ∧
  (∀ (p : Path) (n : AxisIx) (v : BitVec 48) (s : State), s.held = false → s.armed n = true → s.mode n = 0 →
    (s.ax n).stopOpen = true →
    Does (.targetWrite p n v) s fun t => Reports n 0xF0 1 t ∧ OnlyEvents (resultRegs n) s t) ∧
  (∀ (p : Path) (n : AxisIx) (v : BitVec 48) (s : State), s.held = false → s.mode n ≠ 0 → s.modulo n ≠ 0 →
    v.toInt < 0 →
    Does (.targetWrite p n v) s fun t => Reports n 0xF0 0xB t ∧ OnlyEvents (resultRegs n) s t)

/-- CLEAR_LIMIT (R106) clears a latch whose input is inactive and keeps one whose input is active; it is refused where one
stays. The inputs of an axis (R92, R104): a counted STEP edge waits for the latch with its direction, one that EDGE does not
select does not count; a debounced level is shown and waits for the latch with the time of its first sample. Debounced
levels are events with their cycle (log entry 21). -/
def Obligations.LimitsAndInputsAreTaken : Prop :=
  (∀ (p : Path) (n : AxisIx) (s : State), s.held = false →
    s.flag (F.MOTn_STATUS_LIM_P_IN n) = false → s.flag (F.MOTn_STATUS_LIM_N_IN n) = false →
    Does (.clearLimit p n) s fun t =>
      t.flag (F.MOTn_STATUS_LIM_P_LATCH n) = false ∧ t.flag (F.MOTn_STATUS_LIM_N_LATCH n) = false ∧ Reports n 6 0 t ∧
      OnlyEvents (R.MOTn_STATUS n :: resultRegs n) s t) ∧
  (∀ (p : Path) (n : AxisIx) (s : State), s.held = false →
    s.flag (F.MOTn_STATUS_LIM_P_IN n) = true → s.flag (F.MOTn_STATUS_LIM_P_LATCH n) = true →
    Does (.clearLimit p n) s fun t =>
      t.flag (F.MOTn_STATUS_LIM_P_LATCH n) = true ∧
      t.flag (F.MOTn_STATUS_LIM_N_LATCH n) = (s.flag (F.MOTn_STATUS_LIM_N_LATCH n) && s.flag (F.MOTn_STATUS_LIM_N_IN n)) ∧
      Reports n 6 2 t ∧ OnlyEvents (R.MOTn_STATUS n :: resultRegs n) s t) ∧
  (∀ (n : AxisIx) (rising up : Bool) (s : State), s.held = false → s.scanning = false →
    (rising = true ∨ s.flag (F.MOTn_FOLLOW_CFG_EDGE n) = true) →
    Does (.stepEdge n rising up) s fun t =>
      (t.ax n).edges = (s.ax n).edges ++ [up] ∧ OnlyAxis n s t ∧ t = { s with axes := t.axes }) ∧
  (∀ (n : AxisIx) (up : Bool) (s : State), s.held = false → s.flag (F.MOTn_FOLLOW_CFG_EDGE n) = false →
    Does (.stepEdge n false up) s fun t => t = s) ∧
  (∀ (n : AxisIx) (i : LimitInput) (level : Bool) (cyc : Nat) (s : State), s.held = false → s.scanning = false →
    s.get (F.MOTn_LIMIT_CFG_DEBOUNCE n) ≠ 0 →
    Does (.limitDebounced n i level cyc) s fun t =>
      t.flag (inputFld n i) = level ∧
      (t.ax n).chg = (s.ax n).chg ++ [(i, level,
        (((s.now + cyc : Nat) : Int) - (s.get (F.MOTn_LIMIT_CFG_DEBOUNCE n) * 4000 : Nat)) / 400 * 400)] ∧
      OnlyAxis n s t ∧ OnlyRegs [R.MOTn_STATUS n] { s with axes := t.axes, sub := t.sub } t)

/-- Writes of TARGET, VTARGET, POS and MODE (R89 to R91, R97, R442): an accepted one stores its value and, where it commands
motion, sets the axis going; POS puts the axis there with TARGET beside it; a change of MODE disengages and sets TARGET to
x. The writes are as the input latch takes them (log entries 6 and 20). -/
def Obligations.MotionWritesTakeEffect : Prop :=
  (∀ (p : Path) (n : AxisIx) (v : BitVec 48) (s : State), s.held = false → s.mode n = 0 → s.armed n = true →
    s.motionCode n (.target v.toInt) false = 0 →
    Does (.targetWrite p n v) s fun t =>
      t.target n = v.toInt ∧ (t.ax n).run = true ∧ Reports n 0xF0 0 t ∧ OnlyAxis n s t ∧
      OnlyEvents (resultRegs n ++ [R.MOTn_TARGET n, R.MOTn_TARGET n + 4]) { s with axes := t.axes } t) ∧
  (∀ (p : Path) (n : AxisIx) (v : BitVec 48) (s : State), s.held = false → s.armed n = false →
    s.targetCode n v.toInt = 0 →
    Does (.targetWrite p n v) s fun t =>
      t.target n = v.toInt ∧ Reports n 0xF0 0 t ∧
      OnlyEvents (resultRegs n ++ [R.MOTn_TARGET n, R.MOTn_TARGET n + 4]) s t) ∧
  (∀ (p : Path) (n : AxisIx) (v : BitVec 40) (s : State), s.held = false → s.mode n = 1 → s.armed n = true →
    s.motionCode n (.vtarget v.toInt) false = 0 →
    Does (.vtargetWrite p n v) s fun t =>
      t.wideS 40 (R.MOTn_VTARGET n) = v.toInt ∧ (t.ax n).run = true ∧ Reports n 0xF1 0 t ∧ OnlyAxis n s t ∧
      OnlyEvents (resultRegs n ++ [R.MOTn_VTARGET n, R.MOTn_VTARGET n + 4]) { s with axes := t.axes } t) ∧
  (∀ (p : Path) (n : AxisIx) (v : BitVec 48) (s : State), s.held = false → s.atRest n = true → (s.ax n).cal = none →
    s.modulo n = 0 →
    Does (.posWrite p n v) s fun t =>
      t.pos n = v.toInt ∧ t.target n = v.toInt ∧ t.wideS 48 (R.MOTn_POS n) = v.toInt ∧
      t.flag (F.MOTn_STATUS_POS_UNCERTAIN n) = false ∧ t.flag (F.OBSn_STATUS_DEV_REF_VALID n) = true ∧
      Reports n 0xF2 0 t ∧ OnlyAxis n s t) ∧
  (∀ (p : Path) (n : AxisIx) (v : BitVec 48) (s : State), s.held = false → s.atRest n = false → (s.ax n).cal = none →
    Does (.posWrite p n v) s fun t => Reports n 0xF2 1 t ∧ OnlyEvents (resultRegs n) s t) ∧
  (∀ (p : Path) (n : AxisIx) (w : Word) (s : State), s.held = false → bitsOf w 0 3 ≤ 3 → bitsOf w 4 2 ≠ 3 →
    s.atRest n = true → bitsOf w 0 3 ≠ s.mode n → -2 ^ 47 ≤ s.pos n → s.pos n < 2 ^ 47 →
    Does (.modeWrite p n w) s fun t =>
      t.mode n = bitsOf w 0 3 ∧ t.get (F.MOTn_MODE_MOD_DIR n) = bitsOf w 4 2 ∧ t.target n = s.pos n ∧
      (t.ax n).run = false ∧ t.flag (F.MOTn_GEAR_STATUS_ENGAGED n) = false ∧ Reports n 0xF3 0 t ∧ OnlyAxis n s t) ∧
  (∀ (p : Path) (n : AxisIx) (w : Word) (s : State), s.held = false → bitsOf w 0 3 ≤ 3 → bitsOf w 4 2 ≠ 3 →
    1 < s.get (F.MOTn_STATUS_STATE n) → s.modeSame n w = false →
    Does (.modeWrite p n w) s fun t => Reports n 0xF3 1 t ∧ OnlyEvents (resultRegs n) s t)

/-- The staged ratio (R120): CHG_ARM arms the change with its direction, CHG_CANCEL drops it and the blend and sets the
remainder to 0; a reserved direction is refused and changes nothing. A lost herd master (R126): after HOLDOVER cycles
without a record the membership loses MASTER_OK, and every engaged axis that follows it raises MASTER_LOST and stops with
cause RING. The commands are as the input latch takes them (log entries 6 and 22). -/
def Obligations.GearsChangeAndStop : Prop :=
  (∀ (p : Path) (n : AxisIx) (dir : Fin 4) (s : State), s.held = false → dir.val ≤ 2 →
    Does (.chgArm p n dir) s fun t =>
      t.get (F.MOTn_GEAR_CTRL_CHG_DIR n) = dir.val ∧ t.flag (F.MOTn_GEAR_CTRL_CHG_ARM n) = true ∧
      t.flag (F.MOTn_GEAR_STATUS_CHG_ARMED n) = true ∧ OnlyRegs [R.MOTn_GEAR_CTRL n, R.MOTn_GEAR_STATUS n] s t) ∧
  (∀ (p : Path) (n : AxisIx) (s : State), s.held = false → Does (.chgArm p n 3) s fun t => t = s) ∧
  (∀ (p : Path) (n : AxisIx) (s : State), s.held = false → s.get (F.MOTn_GEAR_CTRL_CHG_DIR n) ≤ 2 →
    Does (.chgCancel p n) s fun t =>
      t.flag (F.MOTn_GEAR_CTRL_CHG_ARM n) = false ∧ t.flag (F.MOTn_GEAR_STATUS_CHG_ARMED n) = false ∧
      t.flag (F.MOTn_GEAR_STATUS_BLENDING n) = false ∧ (t.ax n).gear.rem = 0 ∧ (t.ax n).kin = (s.ax n).kin ∧
      OnlyAxis n s t ∧ OnlyRegs [R.MOTn_GEAR_CTRL n, R.MOTn_GEAR_STATUS n] { s with axes := t.axes } t) ∧
  (∀ (i : Fin 16) (s : State) (h : Herd), s.held = false → s.herds.toList[i.val]? = some h → h.ok = true →
     s.get (F.NET_HERDi_PARAM_HOLDOVER i) ≤ h.missed →
     Does (.masterLost i) s fun t =>
       t.herds.toList[i.val]? = some { h with ok := false } ∧
       (∀ n ∈ s.slavesOf i, (t.ax n).causes = (s.ax n).causes ++ [(4, 0)] ∧
         t.flag (F.MOTn_GEAR_STATUS_MASTER_OK n) = false ∧ t.flag (F.MOTn_GEAR_IRQ_STATUS_MASTER_LOST n) = true) ∧
       (∀ n, n ∉ s.slavesOf i → t.ax n = s.ax n) ∧
       KeepsRegs (eventRegs ++ (List.range 8).map R.MOTn_GEAR_STATUS ++ (List.range 8).map R.MOTn_GEAR_IRQ_STATUS) s t)

/-- A timed command (R129, R130): one that every check passes takes the first free slot with its time, operand and path; a past
time, an unlocked time and full slots are refused with their codes. A due timed command leaves its slot, executes as the
write it stands for, and TCMD_DONE is raised (R130); a cancelled one leaves its slot, counted and with TIMED_CMD_DROPPED
(R131). The operands are those of the write (log entry 6). -/
def Obligations.TimedCommandsTakeAndLeaveSlots : Prop :=
  (∀ (p : Path) (n : AxisIx) (w : Word) (s : State) (j : Nat), s.held = false →
    (List.range 4).find? (fun j => !s.slotBusyT n j) = some j →
    s.net.timeH < 2 * s.wide 64 (R.MOTn_TCMD_TIME n) →
    2 * s.wide 64 (R.MOTn_TCMD_TIME n) ≤ s.net.timeH + 2 * 3600000000000 →
    bitsOf w 16 16 = s.get F.NET_TIME_STATUS_EPOCH → s.locked = true → bitsOf w 0 8 ∈ timedCmds →
    Does (.tcmdSubmit p n w) s fun t =>
      t.slotBusyT n j = true ∧ t.get (F.MOTn_TCMD_SLOTj_CMD n j) = bitsOf w 0 8 ∧
      (t.slotOf n j).time = s.wide 64 (R.MOTn_TCMD_TIME n) ∧ (t.slotOf n j).arg = s.wide 48 (R.MOTn_TCMD_ARG n) ∧
      (t.slotOf n j).path = p ∧ t.get (F.MOTn_TCMD_RESULT_CODE n) = 0 ∧ t.get (F.MOTn_TCMD_RESULT_SLOT n) = j ∧
      OnlyAxis n s t ∧
      OnlyEvents [R.MOTn_TCMD_SLOTj n j, R.MOTn_TCMD_RESULT n, R.MOTn_GEAR_IRQ_STATUS n] { s with axes := t.axes } t) ∧
  (∀ (p : Path) (n : AxisIx) (w : Word) (s : State), s.held = false → (∀ j < 4, s.slotBusyT n j = true) →
    Does (.tcmdSubmit p n w) s fun t =>
      t.get (F.MOTn_TCMD_RESULT_CODE n) = 1 ∧ t.flag (F.MOTn_GEAR_IRQ_STATUS_TCMD_REFUSED n) = true ∧
      OnlyEvents [R.MOTn_TCMD_RESULT n, R.MOTn_GEAR_IRQ_STATUS n] s t) ∧
  (∀ (p : Path) (n : AxisIx) (w : Word) (s : State), s.held = false → s.slotBusyT n 0 = false →
    2 * s.wide 64 (R.MOTn_TCMD_TIME n) ≤ s.net.timeH →
    Does (.tcmdSubmit p n w) s fun t =>
      t.get (F.MOTn_TCMD_RESULT_CODE n) = 2 ∧ t.flag (F.MOTn_GEAR_IRQ_STATUS_TCMD_REFUSED n) = true ∧
      OnlyEvents [R.MOTn_TCMD_RESULT n, R.MOTn_GEAR_IRQ_STATUS n] s t) ∧
  (∀ (n : AxisIx) (j : Fin 4) (s : State), s.held = false → j.val ∈ s.dueSlots n →
    s.get (F.MOTn_TCMD_SLOTj_CMD n j) = 3 → (s.slotOf n j).path = .host →
    Does (.tcmdExecute n j) s fun t =>
      t.slotBusyT n j = false ∧ t.flag (F.MOTn_GEAR_IRQ_STATUS_TCMD_DONE n) = true ∧
      (t.ax n).causes = (s.ax n).causes ++ [(1, 0)] ∧ Reports n 3 0 t ∧ OnlyAxis n s t) ∧
  (∀ (n : AxisIx) (j : Fin 4) (s : State), s.held = false → j.val ∈ s.dueSlots n →
    s.get (F.MOTn_TCMD_SLOTj_CMD n j) = 0xF0 → s.mode n = 0 → s.armed n = true →
    s.motionCode n (.target (sext 48 (s.slotOf n j).arg)) false = 0 → (s.slotOf n j).arg < 2 ^ 48 →
    Does (.tcmdExecute n j) s fun t =>
      t.slotBusyT n j = false ∧ t.flag (F.MOTn_GEAR_IRQ_STATUS_TCMD_DONE n) = true ∧
      t.target n = sext 48 (s.slotOf n j).arg ∧ (t.ax n).run = true ∧ Reports n 0xF0 0 t ∧ OnlyAxis n s t) ∧
  (∀ (n : AxisIx) (j : Fin 4) (s : State), s.held = false → j.val ∉ s.dueSlots n →
    Does (.tcmdExecute n j) s fun t => t = s) ∧
  (∀ (p : Path) (n : AxisIx) (w : Word) (s : State), s.held = false →
    Does (.tcmdCancel p n w) s fun t =>
      (∀ j < 4, bitsOf w j 1 = 1 → t.slotBusyT n j = false) ∧
      (∀ j < 4, bitsOf w j 1 = 1 → s.slotBusyT n j = true → t.flag (F.MOTn_GEAR_IRQ_STATUS_TIMED_CMD_DROPPED n) = true) ∧
      (∀ j < 4, bitsOf w j 1 = 0 → t.slotBusyT n j = s.slotBusyT n j) ∧
      OnlyEvents (R.MOTn_TCMD_DROP_CNT n :: R.MOTn_GEAR_IRQ_STATUS n :: (List.range 4).map (R.MOTn_TCMD_SLOTj n)) s t)

/-- A herd command (R122, R132): without a ring it only reports that; STOP and START reach the member axes of this device and go
out as one herd-addressed message; SYNC_START goes to the Bellwether, is refused where a member axis is not READY. Without a
ring the result is HERD_NO_RING, and the forms of the messages are the model's reading (log entry 39). -/
def Obligations.HerdCommandsReachTheHerd : Prop :=
  (∀ (p : Path) (w : Word) (s : State), s.held = false → s.inRing = true →
    Does (.herdStop p w) s fun t =>
      (∀ i ∈ s.membersOf (bitsOf w 0 8), ∀ n ∈ s.herdAxes i, (4, 0) ∈ (t.ax n).causes ∧ Reports n 3 0 t) ∧
      t.get F.NET_HERD_RESULT_CODE = 0 ∧
      ∃ m : Mbx, t.net.own = s.net.own ++ [m] ∧ m.kind = 1 ∧ m.dst = 2 ^ 22 + bitsOf w 0 8) ∧
  (∀ (p : Path) (w : Word) (s : State), s.held = false → s.inRing = true →
    Does (.herdStart p w) s fun t =>
      (∀ i ∈ s.membersOf (bitsOf w 0 8), ∀ n ∈ s.herdAxes i, t.get (F.MOTn_RESULT_CMD n) = 4) ∧
      t.get F.NET_HERD_RESULT_CODE = 0 ∧
      ∃ m : Mbx, t.net.own = s.net.own ++ [m] ∧ m.kind = 1 ∧ m.dst = 2 ^ 22 + bitsOf w 0 8) ∧
  (∀ (p : Path) (w : Word) (s : State) (i : Nat), s.held = false → s.inRing = true →
    (s.membersOf (bitsOf w 0 8)).head? = some i → s.get (F.NET_HERDi_STATUS_BW_EPOCH i) ≠ 0 → s.hosting i = false →
    Does (.herdSyncStart p w) s fun t =>
      t.get F.NET_HERD_RESULT_CODE = 0 ∧ t.axes = s.axes ∧
      (∃ m : Mbx, t.net.own = s.net.own ++ [m] ∧ m.kind = 1 ∧ m.dst = 2 ^ 22 + bitsOf w 0 8) ∧
      KeepsRegs [R.NET_HERD_RESULT] s t) ∧
  (∀ (p : Path) (w : Word) (s : State) (i : Nat), s.held = false → s.inRing = true →
    (s.membersOf (bitsOf w 0 8)).head? = some i → s.get (F.NET_HERDi_STATUS_BW_EPOCH i) ≠ 0 → s.hosting i = true →
    s.allReady i = false →
    Does (.herdSyncStart p w) s fun t =>
      t.get F.NET_HERD_RESULT_CODE = 1 ∧ t.flag (F.NET_HERDi_STATUS_SYNC_REFUSED i) = true ∧ t.axes = s.axes ∧
      t.net.own = s.net.own) ∧
  (∀ (p : Path) (w : Word) (s : State), s.held = false → s.inRing = false →
    Does (.herdStop p w) s fun t => t.get F.NET_HERD_RESULT_CODE = 3 ∧ t.axes = s.axes ∧ KeepsRegs [R.NET_HERD_RESULT] s t)

/-- The election of a Bellwether (R127, R128): the root announces the able candidate that comes before every other one, under
the epoch that follows the herd's last one; without an able candidate it announces that the herd has none. ELECT_WIN at a
member (R128): every membership of the herd takes the epoch and the node and raises BW_CHANGED. ELECT_DECLINE at the root
(R359): the next candidate is announced. The candidates' facts are operands, and the payload of ELECT_DECLINE is the model's
reading (log entries 36 and 39). -/
def Obligations.BellwethersAreElected : Prop :=
  (∀ (herd : Byte) (cands : List Candidate) (c : Candidate) (e : Nat) (s : State), s.held = false → s.rootHere = true →
    s.membersOf herd.toNat = [] → s.lastEpoch herd.toNat = some e →
    c ∈ cands → c.eligible = true → c.locked = true → c.hosted < c.cap →
    (∀ d ∈ cands, d.eligible = true → d.locked = true → d.hosted < d.cap → d ≠ c →
      Candidate.before c d = true ∧ Candidate.before d c = false) →
    Does (.bellwetherElection herd cands) s fun t =>
      t.net.own = s.net.own ++ [newMbx 1 (2 ^ 22 + herd.toNat) 0 0 (electPayload 5 herd.toNat c.node (nextEpoch e))] ∧
      t.lastEpoch herd.toNat = some (nextEpoch e) ∧ t.regs = s.regs) ∧
  (∀ (herd : Byte) (cands : List Candidate) (e : Nat) (s : State), s.held = false → s.rootHere = true →
    s.membersOf herd.toNat = [] → s.lastEpoch herd.toNat = some e →
    (∀ d ∈ cands, ¬ (d.eligible = true ∧ d.locked = true ∧ d.hosted < d.cap)) →
    Does (.bellwetherElection herd cands) s fun t =>
      t.net.own = s.net.own ++ [newMbx 1 (2 ^ 22 + herd.toNat) 0 0 (electPayload 5 herd.toNat 0 0)] ∧
      t.lastEpoch herd.toNat = some e ∧ t.regs = s.regs) ∧
  (∀ (q : PortIx) (m : Mbx) (s : State), s.held = false → Admitted (Req.withOp q m 5 s) s →
    Does (.electWin q m) s fun t =>
      ∀ i ∈ s.membersOf ((Req.withOp q m 5 s).word 0 % 256),
        t.get (F.NET_HERDi_STATUS_BW_EPOCH i) = (Req.withOp q m 5 s).word 1 % 65536 ∧
        t.get (F.NET_HERDi_STATUS_BW_NODE i) = (Req.withOp q m 5 s).word 0 / 65536 % 4096 ∧
        ((Req.withOp q m 5 s).word 1 % 65536 ≠ 0 → t.flag (F.NET_HERDi_STATUS_BW_CHANGED i) = true) ∧
        ((Req.withOp q m 5 s).word 1 % 65536 = 0 → t.flag (F.NET_HERDi_STATUS_NO_HOST i) = true ∧
          t.flag (F.NET_HERDi_STATUS_HOSTING i) = false)) ∧
  (∀ (q : PortIx) (m : Mbx) (s : State) (herd x : Nat) (rest : List Nat), s.held = false →
    Admitted (Req.withOp q m 6 s) s → s.rootHere = true →
    herd = (Req.withOp q m 6 s).word 0 % 256 → s.membersOf herd = [] →
    s.lastEpoch herd = some ((Req.withOp q m 6 s).word 1 % 65536) →
    s.net.rs.elect = [(herd, x :: rest)] → x ≠ (Req.withOp q m 6 s).word 0 / 65536 % 4096 →
    Does (.electDecline q m) s fun t =>
      t.net.own = s.net.own ++
        [newMbx 1 (2 ^ 22 + herd) 0 0 (electPayload 5 herd x (nextEpoch ((Req.withOp q m 6 s).word 1 % 65536)))] ∧
      t.lastEpoch herd = some (nextEpoch ((Req.withOp q m 6 s).word 1 % 65536)))

/-- A phase without its sense (R145) sets the fault latch of the axis with its regulator event; a clipped loop (R146) and an
open coil (R158) are reported once, the open coil with the latch where OPEN_ACT asks for it. At standstill for DELAY the
regulator goes to HOLD with the first step of its ramp (R149); a stretch pulse that falls due is inserted and counted
(R159); RELEASE of the guard short waits for its boundary on a disarmed guard axis (R154). Events whose condition does not
hold have no effect (log entries 4 and 23). -/
def Obligations.CurrentControlEventsAct : Prop :=
  (∀ (n : AxisIx) (s : State), s.held = false → (8 ≤ (s.ph (2 * n)).heldRun ∨ 8 ≤ (s.ph (2 * n + 1)).heldRun) →
    Does (.senseLost n) s fun t =>
      t.latched n = true ∧ t.flag (evCur n 4).fld = true ∧ (t.ph (2 * n)).heldRun = 0 ∧ (t.ph (2 * n + 1)).heldRun = 0 ∧
      KeepsRegs (asyncRegs ++ [R.CURn_IRQ_STATUS n]) s t) ∧
  (∀ (n : AxisIx) (p : Fin 2) (s : State), s.held = false → 64 ≤ (s.ph (2 * n + p)).clipRun →
    s.flag (satFld n p) = false →
    Does (.loopSat n p) s fun t =>
      t.flag (satFld n p) = true ∧ t.flag (evCur n 2).fld = true ∧
      OnlyEvents [R.CURn_STATUS n, R.CURn_IRQ_STATUS n] s t) ∧
  (∀ (n : AxisIx) (p : Fin 2) (s : State), s.held = false → (s.ph (2 * n + p)).clipRun < 64 →
    Does (.loopSat n p) s fun t => t = s) ∧
  (∀ (n : AxisIx) (p : Fin 2) (s : State), s.held = false →
    s.get (F.CURn_DIAG_CFG_OPEN_COUNT n) ≤ (s.ph (2 * n + p)).fails → s.get (phaseFld n p) ≠ 2 →
    Does (.openCoil n p) s fun t =>
      t.get (phaseFld n p) = 2 ∧ t.flag (evCur n 0).fld = true ∧
      (s.flag (F.CURn_DIAG_CFG_OPEN_ACT n) = true → t.latched n = true) ∧
      OnlyAsync [R.CURn_STATUS n, R.CURn_DIAG_STATUS n, R.CURn_IRQ_STATUS n] s t) ∧
  (∀ (n : AxisIx) (p : Fin 2) (s : State), s.held = false → s.get (phaseFld n p) = 1 →
    (if s.get (F.CURn_DIAG_CFG_INTERVAL n) = 0 then s.msFrames 256
      else s.msFrames (4 * s.get (F.CURn_DIAG_CFG_INTERVAL n))) ≤ (s.ph (2 * n + p)).age →
    Does (.phaseAgeOut n p) s fun t =>
      t.get (phaseFld n p) = 0 ∧ OnlyRegs [R.CURn_STATUS n, R.CURn_DIAG_STATUS n] s t) ∧
  (∀ (n : AxisIx) (s : State), s.held = false → s.armed n = true → s.coil n = 1 → (s.ax n).still = true →
    s.msFrames (s.get (F.CURn_STANDSTILL_DELAY n)) ≤ (s.cur n).timer →
    Does (.standstillDelay n) s fun t =>
      t.coil n = 2 ∧ (t.cur n).aRun = s.rampStep n ∧ OnlyRegs [R.CURn_STATUS n] { s with curs := t.curs } t) ∧
  (∀ (n : AxisIx) (p : Fin 2) (s : State), s.held = false → s.get (F.CURn_DIAG_CFG_INTERVAL n) ≠ 0 →
    s.coilOn n = true → s.flag (settleFld n p) = false → 800 ≤ s.pwmP n →
    s.msFrames (s.get (F.CURn_DIAG_CFG_INTERVAL n)) ≤ (s.ph (2 * n + p)).noQual →
    (s.ph (2 * n + p)).stretch = false → (s.ph (2 * n + p)).stretchAge = 0 →
    Does (.stretchPulse n p) s fun t =>
      (t.ph (2 * n + p)).stretch = true ∧
      t.get (F.CURn_DIAG_STATUS_STRETCH_CNT n) =
        satAdd (F.CURn_DIAG_STATUS_STRETCH_CNT n).len (s.get (F.CURn_DIAG_STATUS_STRETCH_CNT n)) 1 ∧
      OnlyRegs [R.CURn_DIAG_STATUS n] { s with phases := t.phases } t) ∧
  (∀ (n : AxisIx) (s : State), s.held = false → n.val < 2 → s.armed n = false →
    Does (.guardRelease n) s fun t => (t.cur n).release = true ∧ t = { s with curs := t.curs }) ∧
  (∀ (n : AxisIx) (s : State), s.held = false → 2 ≤ n.val → Does (.guardRelease n) s fun t => t = s)

/-- The commutation offset (R139) is stored and CAL_OK set; a change of the encoder scale or of DIR_INV drops the calibration,
and CLOSED_LOOP without it is refused; ENC_CAL ends with the offset it found, or without CAL_OK (R140). What a failed
calibration leaves is the model's reading (log entry 23). -/
def Obligations.CommutationIsCalibrated : Prop :=
  (∀ (p : Path) (n : AxisIx) (w : Word) (s : State), s.held = false →
    Does (.commOffsetWrite p n w) s fun t =>
      t.get (F.CURn_COMM_OFFSET_OFFSET n) = bitsOf w 0 14 ∧ t.flag (F.CURn_STATUS_CAL_OK n) = true ∧
      OnlyRegs [R.CURn_COMM_OFFSET n, R.CURn_STATUS n] s t) ∧
  (∀ (p : Path) (n : AxisIx) (w : Word) (s : State), s.held = false → s.armed n = false → w ≠ 0 → w ≠ 0x80000000 →
    w ≠ s.rd (R.CURn_ENC_NUM n) →
    Does (.encScaleWrite p n 0 w) s fun t =>
      t.rd (R.CURn_ENC_NUM n) = w ∧ t.flag (F.CURn_STATUS_CAL_OK n) = false ∧ t.get (F.CURn_CFG_COMM n) = 0 ∧
      t.flag (F.OBSn_STATUS_DEV_REF_VALID n) = false ∧
      OnlyRegs [R.CURn_ENC_NUM n, R.CURn_STATUS n, R.CURn_CFG n, R.OBSn_STATUS n] s t) ∧
  (∀ (p : Path) (n : AxisIx) (w : Word) (s : State), s.held = false → s.armed n = true → p ≠ .image →
    w ≠ s.rd (R.CURn_ENC_DEN n) →
    Does (.encScaleWrite p n 1 w) s fun t => t = s) ∧
  (∀ (p : Path) (n : AxisIx) (w : Word) (s : State), s.held = false → bitsOf w 0 2 = 1 →
    s.flag (F.CURn_STATUS_CAL_OK n) = false →
    Does (.encScaleWrite p n 2 w) s fun t => t = s) ∧
  (∀ (n : AxisIx) (s : State) (k : EncCal) (m : Int) (i : Nat), s.held = false → (s.ax n).cal = some k →
    2 * encCalHalf ≤ k.ran → k.turn = some m → 16128 ≤ m → m ≤ 16640 → k.hi - k.lo ≤ 2048 →
    s.findAct 10 n = some i → i < 16 →
    Does (.encCalDone n) s fun t =>
      (t.get (F.CURn_COMM_OFFSET_OFFSET n) : Int) = convDiv k.sum k.count % 16384 ∧
      t.flag (F.CURn_STATUS_CAL_OK n) = true ∧ (t.ax n).cal = none ∧ (t.ax n).kin.x = k.start ∧
      t.slotBusy i = false ∧ t.flag F.FRM_IRQ_STATUS_MAINT_DONE = true ∧ OnlyAxis n s t) ∧
  (∀ (n : AxisIx) (s : State) (k : EncCal), s.held = false → (s.ax n).cal = some k →
    2 * encCalHalf ≤ k.ran → k.turn = none →
    Does (.encCalDone n) s fun t =>
      t.flag (F.CURn_STATUS_CAL_OK n) = false ∧ t.flag (evCur n 8).fld = true ∧ (t.ax n).cal = none ∧ OnlyAxis n s t)

/-- The counter of an axis passes zero (R165, R166): every channel of the axis loads its next set, and the period is counted; a
frame-aligned boundary starts the count of periods in the frame anew. A host commit of a disarmed axis' channel, or of an
auxiliary channel, in time for the next boundary is pending; a late one waits for the boundary after, is counted and raises
LATE_COMMIT (R165); of an armed axis it is refused (R167). The boundary is an event (log entries 4 and 24). -/
def Obligations.CommitsWaitForTheBoundary : Prop :=
  (∀ (n : AxisIx) (s : State), s.held = false →
     Does (.pwmBoundary n) s fun t =>
       (∀ j < 4, t.get (F.PWMk_ACT_RISE_VALUE (4 * n + j)) = (s.nextSet (4 * n + j)).1 % 2 ^ 21 ∧
         t.get (F.PWMk_ACT_FALL_VALUE (4 * n + j)) = (s.nextSet (4 * n + j)).2 % 2 ^ 21) ∧
       (t.pw n).periods = (s.pw n).periods + 1 ∧
       (t.pw n).idx = (if s.nextAligned n then 0 else (s.pw n).idx + 1) ∧
       (∀ m, m ≠ n.val → t.pw m = s.pw m)) ∧
  (∀ (p : Path) (k : BridgeIx) (cyc : Nat) (s : State), s.held = false → s.armed (k / 4) = false →
    cyc + 8 ≤ s.pwmP (k / 4) →
    Does (.pwmCommit p k cyc) s fun t =>
      (t.br k).pend = some ((s.rd (R.PWMk_CMP_RISE k)).toNat, (s.rd (R.PWMk_CMP_FALL k)).toNat) ∧
      t = { s with bridges := t.bridges } ∧ ∀ j, j ≠ k.val → t.br j = s.br j) ∧
  (∀ (p : Path) (k : BridgeIx) (cyc : Nat) (s : State), s.held = false → s.armed (k / 4) = false →
    s.pwmP (k / 4) < cyc + 8 →
    Does (.pwmCommit p k cyc) s fun t =>
      (t.br k).late = some ((s.rd (R.PWMk_CMP_RISE k)).toNat, (s.rd (R.PWMk_CMP_FALL k)).toNat) ∧
      t.get F.PWM_LATE_CNT_COUNT = satAdd F.PWM_LATE_CNT_COUNT.len (s.get F.PWM_LATE_CNT_COUNT) 1 ∧
      t.flag F.PWM_IRQ_STATUS_LATE_COMMIT = true ∧
      OnlyEvents [R.PWM_LATE_CNT, R.PWM_IRQ_STATUS] { s with bridges := t.bridges } t) ∧
  (∀ (p : Path) (k : BridgeIx) (cyc : Nat) (s : State), s.held = false → s.armed (k / 4) = true →
    Does (.pwmCommit p k cyc) s fun t => t = s) ∧
  (∀ (p : Path) (a : AuxIx) (cyc : Nat) (s : State), s.held = false →
    cyc + 8 ≤ s.pwmP (s.get (F.PWM_AUXa_CFG_SYNC_AXIS a)) →
    Does (.auxCommit p a cyc) s fun t =>
      (t.axu a).pend = some (s.get (F.PWM_AUXa_CMP_RISE_VALUE a), s.get (F.PWM_AUXa_CMP_FALL_VALUE a)) ∧
      t = { s with aux := t.aux })

/-- PWMkk_FORCE (R170): accepted, the channel takes the level, and its demand follows at once unless a fault latch takes it; a
force of an armed or latched axis is refused. -/
def Obligations.ForcesTakeTheChannel : Prop :=
  (∀ (p : Path) (k : BridgeIx) (w : Word) (s : State), s.held = false → bitsOf w 0 2 ≠ 0 → s.armed (k / 4) = false →
    s.shortLatched (k / 4) = false → s.latched (k / 4) = false →
    Does (.pwmForce p k w) s fun t =>
      t.latched (k / 4) = true ∨
        (t.get (F.PWMk_FORCE_LEVEL k) = bitsOf w 0 2 ∧ (t.br k).h = decide (bitsOf w 0 2 = 3) ∧
          (t.br k).l = decide (bitsOf w 0 2 = 2))) ∧
  (∀ (p : Path) (k : BridgeIx) (w : Word) (s : State), s.held = false → bitsOf w 0 2 = 0 →
    Does (.pwmForce p k w) s fun t => t.get (F.PWMk_FORCE_LEVEL k) = 0 ∧ OnlyAsync [] s t) ∧
  (∀ (p : Path) (k : BridgeIx) (w : Word) (s : State), s.held = false → Quiet s → bitsOf w 0 2 ≠ 0 →
    (s.armed (k / 4) = true ∨ s.latched (k / 4) = true) →
    Does (.pwmForce p k w) s fun t =>
      t.get (F.PWMk_FORCE_LEVEL k) = s.get (F.PWMk_FORCE_LEVEL k) ∧ OnlyAsync [] s t)

/-- Fault latches (R172 to R175): a source sets the latch of its group with its code, ends the forces of its channels and raises
FAULT; a source at a set latch joins the mask and leaves FIRST; a written 1 clears a latch whose levels are gone and is
refused while one stands. -/
def Obligations.FaultLatchesHoldTheirCause : Prop :=
  (∀ (n : AxisIx) (c : Fin 8) (s : State), s.held = false → s.latched n = false → c ≠ 0 →
    Does (.faultLatchSet n c) s fun t =>
      t.latched n = true ∧ t.get (F.PWM_FAULT_SRCn_FIRST n) = c.val ∧
      (t.get (F.PWM_FAULT_SRCn_MASK n)).testBit (c.val - 1) = true ∧
      (∀ j < 4, t.get (F.PWMk_FORCE_LEVEL (4 * n + j)) = 0) ∧ t.flag (evPwmFault n).fld = true ∧
      (s.armed n = true → (t.ax n).bridgeOff = true) ∧ OnlyAsync [] s t) ∧
  (∀ (n : AxisIx) (c : Fin 8) (s : State), s.held = false → s.latched n = true → c ≠ 0 →
    Does (.faultLatchSet n c) s fun t =>
      t.latched n = true ∧ t.get (F.PWM_FAULT_SRCn_FIRST n) = s.get (F.PWM_FAULT_SRCn_FIRST n) ∧
      (t.get (F.PWM_FAULT_SRCn_MASK n)).testBit (c.val - 1) = true ∧ OnlyAsync [] s t) ∧
  (∀ (p : Path) (w : Word) (s : State), s.held = false →
    Does (.pwmFaultForce p w) s fun t =>
      (∀ n < 8, w.getLsbD n = true → t.latched n = true ∧ (t.get (F.PWM_FAULT_SRCn_MASK n)).testBit 6 = true) ∧
      OnlyAsync [] s t) ∧
  (∀ (p : Path) (w : Word) (s : State), s.held = false → (∀ k, s.routesTo k = []) →
    Does (.faultLatchClear p w) s fun t =>
      (∀ n < 8, w.getLsbD n = true → s.latched n = true → s.faultLevels n = 0 →
        t.latched n = false ∧ t.rd (R.PWM_FAULT_SRCn n) = 0) ∧
      (∀ n < 8, w.getLsbD n = true → s.latched n = true → s.faultLevels n ≠ 0 →
        t.latched n = true ∧ t.flag F.PWM_IRQ_STATUS_CLEAR_REFUSED = true) ∧
      (∀ n < 8, w.getLsbD n = false → s.latched n = true → t.latched n = true) ∧ OnlyAsync [] s t)

/-- Auxiliary channels (R176) and timer events (R178): the end of a window clears the output, a compare edge gives it the level
of its interval; a timer event sets its bit and its kind, and OVF where the bit still stood. -/
def Obligations.AuxOutputsAndTimers : Prop :=
  (∀ (a : AuxIx) (s : State), s.held = false → Quiet s → s.get (F.PWM_AUXa_CFG_MODE a) = 2 →
    Does (.auxWindowEnd a) s fun t => t.flag (F.PWM_AUXa_STATUS_OUT a) = false ∧ OnlyAsync [] s t) ∧
  (∀ (a : AuxIx) (x : Nat) (s : State), s.held = false → s.get (F.PWM_AUXa_CFG_MODE a) = 1 →
    (s.axu a).changing = false →
    Does (.auxCompareEdge a x) s fun t =>
      t.flag (F.PWM_AUXa_STATUS_OUT a) = inside (highIntervals (s.steps (s.get (F.PWM_AUXa_CFG_SYNC_AXIS a)))
        (s.get (F.PWM_AUXa_ACT_RISE_VALUE a), s.get (F.PWM_AUXa_ACT_FALL_VALUE a))) x ∧ OnlyAsync [] s t) ∧
  (∀ (u : Fin 16) (s : State), s.held = false → s.flag (F.PWM_EVTu_CFG_ZERO_EN u) = true →
    s.timers.toList.getD u 0 = 0 →
    Does (.timerEvent u 0) s fun t =>
      t.flag ⟨R.PWM_EVT_STATUS, u, 1⟩ = true ∧ t.flag ⟨R.PWM_EVTu_CFG u, 4, 1⟩ = true ∧
      (s.flag ⟨R.PWM_EVT_STATUS, u, 1⟩ = true → t.flag ⟨R.PWM_EVT_STATUS, 16 + u, 1⟩ = true) ∧
      OnlyRegs [R.PWM_EVT_STATUS, R.PWM_EVTu_CFG u] s t)

/-- A demand edge of a running channel (R163, R164) turns its demands over: the high one inside its intervals, the low one
outside; a channel in another state keeps its demand. -/
def Obligations.DemandEdgesFollowThePattern : Prop :=
  (∀ (k : BridgeIx) (x : Nat) (s : State), s.held = false → Quiet s → s.chanState k = 4 →
    Does (.demandEdge k x) s fun t =>
      (t.br k).h = inside (s.runHigh k) x ∧ (t.br k).l = !inside (s.runHigh k) x ∧ OnlyAsync [] s t) ∧
  (∀ (k : BridgeIx) (x : Nat) (s : State), s.held = false → s.chanState k ≠ 4 → Quiet s →
    Does (.demandEdge k x) s fun t => (t.br k).h = (s.br k).h ∧ (t.br k).l = (s.br k).l ∧ OnlyAsync [] s t)

/-- The handshake of a half-bridge (R184 to R186): a waiting FET turns on once the complementary gate is below 1.5 V and the
dead time has run, and the time taken is shown; while the other gate has not fallen it stays off. A gate commanded off is
known low when it has fallen; a handshake that takes too long fails, and the group's latch sets (R185, R192). The gates'
levels are events (log entry 26). -/
def Obligations.HandshakeTurnsGatesOn : Prop :=
  (∀ (k : BridgeIx) (dt : Nat) (s : State), s.held = false → Quiet s → (s.br k).wait = some true →
    (s.br k).lsLow = true → (s.br k).lsOn = false → s.deadUnits k true ≤ dt → s.gateWant k true = true →
    Does (.gateTurnOn k dt) s fun t =>
      (t.br k).hsOn = true ∧ (t.br k).lsOn = false ∧ t.get (F.GDRk_STATUS_DT_H k) = Nat.min 255 dt ∧ OnlyAsync [] s t) ∧
  (∀ (k : BridgeIx) (dt : Nat) (s : State), s.held = false → Quiet s → (s.br k).wait = some false →
    (s.br k).hsLow = true → (s.br k).hsOn = false → s.deadUnits k false ≤ dt → s.gateWant k false = true →
    Does (.gateTurnOn k dt) s fun t =>
      (t.br k).lsOn = true ∧ (t.br k).hsOn = false ∧ t.get (F.GDRk_STATUS_DT_L k) = Nat.min 255 dt ∧ OnlyAsync [] s t) ∧
  (∀ (k : BridgeIx) (dt : Nat) (s : State), (s.br k).hsOn = false → (s.br k).lsLow = false →
    Does (.gateTurnOn k dt) s fun t => (t.br k).hsOn = false) ∧
  (∀ (k : BridgeIx) (s : State), (s.br k).hsOn = false →
    Does (.gateOffReached k true) s fun t =>
      t.br k = { s.br k with hsLow := true } ∧ t = { s with bridges := t.bridges } ∧ ∀ j, j ≠ k.val → t.br j = s.br j) ∧
  (∀ (k : BridgeIx) (s : State), s.held = false → (s.br k).wait = some true → (s.br k).lsLow = false →
    Does (.handshakeTimeout k) s fun t =>
      t.flag ⟨R.GDR_HS_FAIL, k, 1⟩ = true ∧ t.flag (evGdr (16 + k / 4) 0).fld = true ∧ t.latched (k / 4) = true ∧
      KeepsRegs (asyncRegs ++ [R.GDR_HS_FAIL, R.GDR_IRQ_STATUS]) s t)

/-- Bootstrap undervoltage (R188): the high side of a demanded bridge goes off for its period and the event is counted; the
eighth period in a row trips the group. A released monitor shows 0. VDS monitors (R190, R191): a qualified monitor of a
conducting FET sets its status, its latched bit and the event of its group; on the low side of a latched guard short it ends
the short (R198); a released monitor shows 0. The monitors are events (log entries 4 and 26). -/
def Obligations.GateMonitorsAct : Prop :=
  (∀ (k : BridgeIx) (s : State), s.held = false → (s.br k).h = true → (s.br k).uv = false →
    Does (.bstUvEvent k) s fun t =>
      (t.br k).hsOn = false ∧ (t.br k).uv = true ∧
      t.get (F.GDRk_STATUS_BST_UV_CNT k) = satAdd 8 (s.get (F.GDRk_STATUS_BST_UV_CNT k)) 1 ∧
      (8 ≤ (if (s.br k).uvSeen then (s.br k).uvRun else (s.br k).uvRun + 1) →
        t.flag ⟨R.GDR_BST_UV, k, 1⟩ = true ∧ t.latched (k / 4) = true ∧ t.flag (evGdr (8 + k / 4) 0).fld = true)) ∧
  (∀ (k : BridgeIx) (s : State), s.held = false →
    Does (.bstUvRelease k) s fun t => t.flag (F.GDRk_STATUS_BST_UV k) = false ∧ OnlyRegs [R.GDRk_STATUS k] s t) ∧
  (∀ (k : BridgeIx) (s : State), s.held = false → (s.br k).hsOn = true → s.sinkLevel (0x240 + 2 * k) = false →
    s.get (F.GDRk_VDS_TH_H k) ≠ 0 →
    Does (.vdsTrip k true) s fun t =>
      t.flag ⟨R.GDR_VDS_H, k, 1⟩ = true ∧ t.flag (evGdr (24 + k / 4) 0).fld = true ∧
      OnlyAsync [R.GDR_VDS_H, R.GDR_IRQ_STATUS] s t) ∧
  (∀ (k : BridgeIx) (s : State), s.held = false → (s.br k).lsOn = true → s.sinkLevel (0x241 + 2 * k) = false →
    s.get (F.GDRk_VDS_TH_L k) ≠ 0 → s.shortLatched (k / 4) = true →
    Does (.vdsTrip k false) s fun t =>
      t.flag ⟨R.GDR_VDS_L, k, 1⟩ = true ∧ t.shortLatched (k / 4) = false ∧
      t.flag (F.GDR_GUARDn_VDS_RELEASED (k / 4)) = true ∧ t.get (F.CURn_STATUS_COIL_STATE (k / 4)) = 0) ∧
  (∀ (k : BridgeIx) (high : Bool) (s : State), s.held = false →
    Does (.vdsRelease k high) s fun t =>
      t.flag (if high then F.GDRk_STATUS_VDS_H k else F.GDRk_STATUS_VDS_L k) = false ∧ OnlyAsync [] s t)

/-- DRV_EN low turns every gate off that the guard domain does not hold, and an armed axis' bridges stay off (R193); DRV_EN high
is shown with its event. FAULT_N low latches every group (R194); its rise leaves the latches as they are; a trip clears by a
written 1 once its cause has gone (R192). The asynchronous path settles in two passes (log entry 25). -/
def Obligations.GatePinsAndTripsAct : Prop :=
  (∀ s : State, s.held = false → s.flag F.GDR_STATUS_DRV_EN = true →
    Does .drvEnLow s fun t =>
      (∀ k < 32, (t.br k).hsOn = false ∧ (t.shortLatched (k / 4) = false → (t.br k).lsOn = false)) ∧
      t.flag F.GDR_STATUS_DRV_EN = false ∧ t.flag F.GDR_IRQ_STATUS_DRV_EN_LOW = true ∧
      (∀ n < 8, s.armed n = true → (t.ax n).bridgeOff = true) ∧
      (∀ n < 2, s.shortLatched n = true → s.drvenRel n = true → t.shortLatched n = false)) ∧
  (∀ s : State, s.held = false → s.flag F.GDR_STATUS_DRV_EN = false →
    Does .drvEnHigh s fun t =>
      t.flag F.GDR_STATUS_DRV_EN = true ∧ t.flag F.GDR_IRQ_STATUS_DRV_EN_HIGH = true ∧
      OnlyAsync [R.GDR_STATUS, R.GDR_IRQ_STATUS] s t) ∧
  (∀ s : State, s.held = true →
    Does .drvEnLow s fun t => t.flag F.GDR_STATUS_DRV_EN = false ∧ t.held = true ∧ OnlyAsync (R.GDR_STATUS :: (List.range 2).map R.CURn_GUARD) s t) ∧
  (∀ s : State, s.held = false → s.flag F.GDR_STATUS_FAULT_N = true →
    Does .faultNLow s fun t =>
      t.flag F.GDR_STATUS_FAULT_N = false ∧ t.flag F.GDR_IRQ_STATUS_FAULT_N_LOW = true ∧ (∀ n < 8, t.latched n = true) ∧
      OnlyAsync [R.GDR_STATUS, R.GDR_IRQ_STATUS] s t) ∧
  (∀ s : State, s.held = false →
    Does .faultNHigh s fun t =>
      t.flag F.GDR_STATUS_FAULT_N = true ∧ (∀ n < 8, s.latched n = true → t.latched n = true) ∧
      OnlyAsync [R.GDR_STATUS] s t) ∧
  (∀ (p : Path) (w : Word) (s : State), s.held = false →
    Does (.gdrTripClear p 0 w) s fun t =>
      (∀ k < 32, w.getLsbD k = true → s.flag (F.GDRk_STATUS_BST_UV k) = false → t.flag ⟨R.GDR_BST_UV, k, 1⟩ = false) ∧
      (∀ k < 32, s.flag (F.GDRk_STATUS_BST_UV k) = true →
        t.flag ⟨R.GDR_BST_UV, k, 1⟩ = s.flag ⟨R.GDR_BST_UV, k, 1⟩) ∧ OnlyAsync [R.GDR_BST_UV] s t) ∧
  (∀ (p : Path) (w : Word) (s : State), s.held = false → w.getLsbD 1 = true →
    Does (.gdrTripClear p 2 w) s fun t =>
      t.flag F.GDR_STATUS_VDRV_TRIP = (s.flag F.GDR_STATUS_VDRV_TRIP && !s.flag F.GDR_STATUS_VDRV_OK) ∧
      OnlyAsync [R.GDR_STATUS] s t)

/-- An invariant that every step keeps, in every state and not only on runs from reset: the register map stays in its canonical
form (addresses rising, no entry equal to the reset word), and no half-bridge drives both of its gates, nor is asked to
(R184). -/
def Obligations.EveryStepKeepsTheBridgesSafe : Prop :=
  ∀ s t : State, SMap.wf resetWord s.regs = true → NoShootThrough s → step s = .next t →
    SMap.wf resetWord t.regs = true ∧ NoShootThrough t

/-- A fast output of a phase channel without a median (R207, R211, R214): valid, its result is the corrected value and joins the
window; while an event settles it is not valid, reads 0 and brings the count one nearer to its end. The converter's output
is an operand (log entry 27). -/
def Obligations.FastOutputsAreCorrectedAndWindowed : Prop :=
  (∀ (c : SenseIx) (raw : Int) (s : State), s.held = false → c.val < 16 → (s.ch c).median = 0 →
    s.get (F.CSAs_STATUS_FAST_LEFT c) = 0 → s.anaOk = true → satS 24 raw = raw → s.cmOut c = false →
    Does (.fastOutput c raw false) s fun t =>
      wordData (t.rd (R.CSAs_FAST c)) = correct raw (s.ch c).offset (s.ch c).gain ∧
      wordValid (t.rd (R.CSAs_FAST c)) = true ∧ wordClip (t.rd (R.CSAs_FAST c)) = false ∧
      (t.ch c).win.cnt = (s.ch c).win.cnt + 1 ∧
      (t.ch c).win.sum = (s.ch c).win.sum +
        correct raw (s.ch c).offset (s.ch c).gain * (2 ^ rangeShift (s.rangeNow c) : Nat) ∧
      (t.ch c).outs = (s.ch c).outs + 1 ∧ (∀ d, d ≠ c.val → t.ch d = s.ch d)) ∧
  (∀ (c : SenseIx) (raw : Int) (clip : Bool) (s : State), s.held = false → c.val < 16 →
    s.get (F.CSAs_STATUS_FAST_LEFT c) ≠ 0 →
    Does (.fastOutput c raw clip) s fun t =>
      wordValid (t.rd (R.CSAs_FAST c)) = false ∧ wordData (t.rd (R.CSAs_FAST c)) = 0 ∧
      t.get (F.CSAs_STATUS_FAST_LEFT c) + 1 = s.get (F.CSAs_STATUS_FAST_LEFT c) ∧
      (t.ch c).win.cnt = (s.ch c).win.cnt ∧ (t.ch c).win.sum = (s.ch c).win.sum)

/-- The common mode (R205), the settings of a channel (R213), a synchronising reset (R217), the analogue rail (R227): a change
of RANGE, INPUT or MEDIAN is stored and waits for its frame start, and INPUT stays as it is while the axis is armed. -/
def Obligations.SenseSettingsWaitForTheirFrame : Prop :=
  (∀ (c : SenseIx) (s : State), s.held = false → c.val < 16 → s.flag (F.CSAs_STATUS_CM_OUT c) = false →
    Does (.cmOut c) s fun t =>
      t.flag (F.CSAs_STATUS_CM_OUT c) = true ∧ t.flag (evCmOut c).fld = true ∧
      OnlyEvents [R.CSAs_STATUS c, R.CSA_EVT_MISC] s t) ∧
  (∀ (c : SenseIx) (s : State), s.held = false → c.val < 16 →
    Does (.cmOutClear c) s fun t => t.flag (F.CSAs_STATUS_CM_OUT c) = false ∧ OnlyRegs [R.CSAs_STATUS c] s t) ∧
  (∀ (p : Path) (c : SenseIx) (w : Word) (s : State), s.held = false → bitsOf w 10 2 ≠ 3 → bitsOf w 0 2 ≠ 3 →
    s.chanClaimed c = false → s.armed (chanAxis c) = false → bitsOf w 0 2 ≠ s.rangeNow c →
    Does (.csaCfgWrite p c w) s fun t =>
      t.get (F.CSAs_CFG_MEDIAN c) = bitsOf w 10 2 ∧ t.get (F.CSAs_CFG_INPUT c) = bitsOf w 6 2 ∧
      t.get (F.CSAs_CFG_RANGE c) = bitsOf w 0 2 ∧ t.flag (F.CSAs_STATUS_CHG_PENDING c) = true ∧
      (t.ch c).pending = true ∧ t.rangeNow c = s.rangeNow c ∧
      OnlyRegs [R.CSAs_CFG c, R.CSAs_STATUS c] { s with chans := t.chans } t) ∧
  (∀ (p : Path) (c : SenseIx) (w : Word) (s : State), s.held = false → s.armed (chanAxis c) = true → p ≠ .image →
    bitsOf w 6 2 ≠ s.get (F.CSAs_CFG_INPUT c) →
    Does (.csaCfgWrite p c w) s fun t => t = s) ∧
  (∀ (p : Path) (s : State), s.held = false →
    Does (.csaSync p) s fun t => t.flag F.CSA_STATUS_SYNC_PENDING = true ∧ OnlyRegs [R.CSA_STATUS] s t) ∧
  (∀ s : State, s.held = false → s.anaOk = false →
    Does (.anaOkChange true) s fun t =>
      t.anaOk = true ∧ t.flag F.CSA_STATUS_SYNC_PENDING = true ∧ OnlyAsync [R.CSA_STATUS] s t) ∧
  (∀ s : State, s.held = false → s.anaOk = true →
    Does (.anaOkChange false) s fun t => t.anaOk = false ∧ t.cmp.ready = false ∧ t.pmc.a = none ∧ t.pmc.b = none)

/-- A written DC estimate is clamped to its limit, with DCB_LIMIT where the clamp acted (R223, R224); a finished OFFSET_CAL
stores its mean, or sets CAL_FAIL, and INPUT is NORMAL again (R226). -/
def Obligations.EstimatesAndOffsetsAreStored : Prop :=
  (∀ (p : Path) (c : SenseIx) (w : Word) (s : State), s.held = false → 16 ≤ c.val → s.armed (chanAxis c) = false →
    -(s.estLimit (chanAxis c)) ≤ sext 24 (bitsOf w 0 24) * 65536 →
    sext 24 (bitsOf w 0 24) * 65536 ≤ s.estLimit (chanAxis c) →
    Does (.dcbEstWrite p c w) s fun t =>
      (t.ch c).est = sext 24 (bitsOf w 0 24) * 65536 ∧ t.get (F.CSAs_DCB_EST_EST c) = bitsOf w 0 24 ∧
      (∀ d, d ≠ c.val → t.ch d = s.ch d)) ∧
  (∀ (p : Path) (c : SenseIx) (w : Word) (s : State), s.held = false → 16 ≤ c.val → s.armed (chanAxis c) = false →
    s.estLimit (chanAxis c) < sext 24 (bitsOf w 0 24) * 65536 →
    Does (.dcbEstWrite p c w) s fun t =>
      (t.ch c).est = s.estLimit (chanAxis c) ∧ t.flag (F.CSA_DCBn_STATUS_AT_LIMIT (chanAxis c)) = true ∧
      t.flag (evDcbLimit (chanAxis c)).fld = true) ∧
  (∀ (c : SenseIx) (s : State) (k : OffCal), s.held = false → (s.ch c).cal = some k → k.zero = true →
    s.calCount ≤ k.cnt → k.bad = false → -2 ^ 23 ≤ convDiv k.sum k.cnt → convDiv k.sum k.cnt < 2 ^ 23 →
    Does (.offsetCalDone c) s fun t =>
      t.getS (F.CSAs_OFFSET_OFFSET c) = convDiv k.sum k.cnt ∧ (t.ch c).cal = none ∧
      t.get (F.CSAs_CFG_INPUT c) = 0 ∧ t.flag (F.CSAs_STATUS_CAL_FAIL c) = s.flag (F.CSAs_STATUS_CAL_FAIL c)) ∧
  (∀ (c : SenseIx) (s : State) (k : OffCal), s.held = false → (s.ch c).cal = some k → k.zero = true →
    s.calCount ≤ k.cnt → k.bad = true →
    Does (.offsetCalDone c) s fun t =>
      t.flag (F.CSAs_STATUS_CAL_FAIL c) = true ∧ (t.ch c).cal = none ∧
      t.get (F.CSAs_OFFSET_OFFSET c) = s.get (F.CSAs_OFFSET_OFFSET c))

/-- Incremental feedback (R232, R233): a legal transition counts by its direction and INV, both levels at once are a fault; an
index pulse captures position, frame and cycle, and a homing run takes its time. -/
def Obligations.QuadratureCounts : Prop :=
  (∀ (n : AxisIx) (cyc : Nat) (s : State), s.held = false → s.scanning = false → s.fbMode n = 1 →
    (s.fb n).ab = (false, false) → s.get (F.FBKn_CFG_QUAD_X n) = 0 → s.flag (F.FBKn_CFG_HYST_EN n) = false →
    Does (.quadTransition n true false cyc) s fun t =>
      (t.fb n).ab = (true, false) ∧ (t.fb n).raw = wrap48 ((s.fb n).raw + s.fbSign n) ∧
      t.fbPos n = wrap48 ((s.fb n).raw + s.fbSign n) ∧ (∀ m, m ≠ n.val → t.fb m = s.fb m)) ∧
  (∀ (n : AxisIx) (cyc : Nat) (s : State), s.held = false → s.scanning = false → s.fbMode n = 1 →
    (s.fb n).ab = (true, false) → s.get (F.FBKn_CFG_QUAD_X n) = 0 → s.flag (F.FBKn_CFG_HYST_EN n) = false →
    Does (.quadTransition n false false cyc) s fun t =>
      (t.fb n).raw = wrap48 ((s.fb n).raw - s.fbSign n) ∧ t.fbPos n = wrap48 ((s.fb n).raw - s.fbSign n)) ∧
  (∀ (n : AxisIx) (cyc : Nat) (s : State), s.held = false → s.scanning = false → s.fbMode n = 1 →
    (s.fb n).ab = (false, false) → s.flag ⟨R.FBKn_FAULT_MASK n, 0, 1⟩ = true →
    Does (.quadTransition n true true cyc) s fun t =>
      t.flag ⟨R.FBKn_FAULT n, 0, 1⟩ = true ∧ t.flag (F.FBKn_STATUS_FAULT n) = true ∧
      t.flag (F.FBKn_STATUS_POS_VALID n) = false ∧ t.flag (F.FBKn_STATUS_REF n) = false ∧
      t.get (F.FBKn_ERR_CNT_COUNT n) = satAdd (F.FBKn_ERR_CNT_COUNT n).len (s.get (F.FBKn_ERR_CNT_COUNT n)) 1 ∧
      t.flag (F.FBKn_IRQ_STATUS_FAULT n) = true ∧ t.fbPos n = s.fbPos n) ∧
  (∀ (n : AxisIx) (cyc : Nat) (s : State), s.held = false → s.scanning = false → s.fbMode n = 1 →
    cyc < 65536 → s.get (F.FBKn_INDEX_CHK_PERIOD n) = 0 →
    Does (.indexEvent n cyc) s fun t =>
      t.wideS 48 (R.FBKn_INDEX_POS n) = s.fbPos n ∧ t.get (F.FBKn_INDEX_FRAME_FRAME n) = s.frame ∧
      t.get (F.FBKn_INDEX_CYC_CYCLE n) = cyc % 2 ^ (F.FBKn_INDEX_CYC_CYCLE n).len ∧
      t.flag (F.FBKn_IRQ_STATUS_INDEX n) = true ∧ (t.fb n).newIndex = true ∧
      (t.ax n).index = some ((s.now + cyc : Nat) : Int) ∧ OnlyAxis n s t)

/-- The other decoders: a lost or weak sine and cosine signal (R235, R236), Hall states (R237) and SSI transfers (R239, R240)
declare their faults, count their sectors and take their values. The signals are events (log entry 28). -/
def Obligations.DecodersTakeTheirSignals : Prop :=
  (∀ (n : AxisIx) (s : State), s.held = false → s.fbMode n = 2 → 8 ≤ (s.fb n).idleFrames →
    (s.fb n).conds.testBit 11 = false → s.flag ⟨R.FBKn_FAULT_MASK n, 11, 1⟩ = true →
    Does (.noSignal n) s fun t =>
      t.flag ⟨R.FBKn_FAULT n, 11, 1⟩ = true ∧ t.flag (F.FBKn_STATUS_FAULT n) = true ∧
      t.flag (F.FBKn_STATUS_POS_VALID n) = false ∧ (t.fb n).conds.testBit 11 = true ∧
      OnlyEvents [R.FBKn_FAULT n, R.FBKn_STATUS n, R.FBKn_ERR_CNT n, R.FBKn_IRQ_STATUS n] { s with fbks := t.fbks } t) ∧
  (∀ (n : AxisIx) (s : State), s.held = false → s.fbMode n = 2 → s.get (F.FBKn_CFG_AMP_CNT n) ≤ (s.fb n).ampRun →
    s.flag (F.FBKn_STATUS_AMP_BAD n) = false → (s.fb n).conds.testBit 3 = false →
    Does (.ampBad n) s fun t =>
      t.flag (F.FBKn_STATUS_AMP_BAD n) = true ∧ t.flag ⟨R.FBKn_FAULT n, 3, 1⟩ = true ∧
      t.flag (F.FBKn_STATUS_SPD_VALID n) = false ∧ (t.fb n).conds.testBit 3 = true) ∧
  (∀ (n : AxisIx) (cyc : Nat) (s : State), s.held = false → s.scanning = false → s.fbMode n = 3 →
    (s.fb n).sector = some 0 → s.flag (F.FBKn_CFG_HYST_EN n) = false →
    Does (.hallChange n true true false cyc) s fun t =>
      t.get (F.FBKn_STATUS_HALL_SECTOR n) = 1 ∧ (t.fb n).sector = some 1 ∧
      t.fbPos n = wrap48 ((s.fb n).raw + s.fbSign n)) ∧
  (∀ (n : AxisIx) (cyc : Nat) (s : State), s.held = false → s.scanning = false → s.fbMode n = 3 →
    Does (.hallChange n true true true cyc) s fun t =>
      t.get (F.FBKn_STATUS_HALL_SECTOR n) = 7 ∧ OnlyRegs [R.FBKn_STATUS n] { s with sub := t.sub } t) ∧
  (∀ (n : AxisIx) (s : State), s.held = false → s.fbMode n = 3 → s.get (F.FBKn_STATUS_HALL_SECTOR n) = 7 →
    (s.fb n).conds.testBit 4 = false →
    Does (.hallInvalid n) s fun t =>
      t.flag ⟨R.FBKn_FAULT n, 4, 1⟩ = true ∧ (t.fb n).conds.testBit 4 = true ∧ t.fbPos n = s.fbPos n) ∧
  (∀ (n : AxisIx) (bits : List Bool) (x : Nat) (s : State), s.held = false → (s.fb n).transfer = some x →
    s.fbMode n = 4 →
    Does (.ssiTransferDone n false bits) s fun t =>
      t.flag ⟨R.FBKn_FAULT n, 6, 1⟩ = true ∧ (t.fb n).transfer = none ∧ t.fbPos n = s.fbPos n ∧
      t.rd (R.FBKn_SSI_RAW n) = BitVec.ofNat 32 (ofBits bits)) ∧
  (∀ (n : AxisIx) (bits : List Bool) (x : Nat) (s : State), s.held = false → (s.fb n).transfer = some x →
    s.fbMode n = 4 → s.rd (R.FBKn_SSI_CFG n) = 24 → s.get (F.FBKn_SSI_JUMP_LIMIT n) = 0 →
    s.flag (F.FBKn_CFG_HYST_EN n) = false → bits.length = 24 → (s.fb n).offset = 0 →
    Does (.ssiTransferDone n true bits) s fun t =>
      (t.fb n).value = some (ofBits bits) ∧ t.fbPos n = wrap48 (s.fbSign n * ofBits bits))

/-- Writes of chapter 9 and standstill (R230, R243, R246, R249): a position is taken at rest and referenced, selecting a decoder
starts it at 0 without reference, a cleared last fault ends the fault state, and a channel that has not moved stands still.
Writes of chapter 10: SYNC captures the deviation reference at rest and is refused elsewhere (R267); MOTOR_R also sets
R_EST, and 0 is refused (R261). The cycle of the standstill is an operand (log entries 28 and 29). -/
def Obligations.PositionsAndReferencesAreSet : Prop :=
  (∀ (p : Path) (n : AxisIx) (v : BitVec 48) (s : State), s.held = false → s.fbClaimed n = false → s.atRest n = true →
    Does (.fbkPosWrite p n v) s fun t =>
      t.fbPos n = v.toInt ∧ t.flag (F.FBKn_STATUS_REF n) = true ∧ (t.fb n).raw = v.toInt ∧
      t.flag (F.FBKn_STATUS_STANDSTILL n) = true ∧ t.flag (F.OBSn_STATUS_DEV_REF_VALID n) = true) ∧
  (∀ (p : Path) (n : AxisIx) (v : BitVec 48) (s : State), s.held = false → s.atRest n = false →
    Does (.fbkPosWrite p n v) s fun t => t = s) ∧
  (∀ (p : Path) (n : AxisIx) (w : Word) (s : State), s.held = false → bitsOf w 0 3 = 0 → bitsOf w 6 2 ≠ 3 →
    bitsOf w 24 8 ≠ 0 → s.fbClaimed n = false → s.armed n = false →
    Does (.fbkModeWrite p n w) s fun t =>
      t.fbMode n = 0 ∧ t.fbPos n = 0 ∧ t.flag (F.FBKn_STATUS_REF n) = false ∧
      t.flag (F.FBKn_STATUS_POS_VALID n) = false ∧ t.flag (F.OBSn_STATUS_DEV_REF_VALID n) = false) ∧
  (∀ (n : AxisIx) (cyc : Nat) (s : State), s.held = false → (s.fb n).hist = [] →
    s.flag (F.FBKn_STATUS_STANDSTILL n) = false →
    Does (.fbkStandstill n cyc) s fun t =>
      t.flag (F.FBKn_STATUS_STANDSTILL n) = true ∧ t.flag (F.FBKn_STATUS_SPD_VALID n) = false ∧
      t.wideS 40 (R.FBKn_SPEED n) = 0 ∧ t.flag (F.FBKn_IRQ_STATUS_STANDSTILL_IN n) = true ∧
      OnlyEvents [R.FBKn_STATUS n, R.FBKn_SPEED n, R.FBKn_SPEED n + 4, R.FBKn_IRQ_STATUS n] { s with sub := t.sub } t) ∧
  (∀ (p : Path) (n : AxisIx) (w : Word) (b : Fin 12) (s : State), s.held = false →
    s.get (F.FBKn_FAULT_FAULTS n) = 2 ^ b.val → w.getLsbD b = true → (s.fb n).conds.testBit b = false →
    Does (.fbkFaultClear p n w) s fun t =>
      t.get (F.FBKn_FAULT_FAULTS n) = 0 ∧ t.flag (F.FBKn_STATUS_FAULT n) = false ∧
      t.flag (F.FBKn_IRQ_STATUS_FAULT_CLEARED n) = true) ∧
  (∀ (p : Path) (n : AxisIx) (w : Word) (b : Fin 12) (s : State), s.held = false →
    s.get (F.FBKn_FAULT_FAULTS n) = 2 ^ b.val → (s.fb n).conds.testBit b = true →
    Does (.fbkFaultClear p n w) s fun t => t.get (F.FBKn_FAULT_FAULTS n) = 2 ^ b.val ∧ OnlyRegs [R.FBKn_FAULT n] s t) ∧
  (∀ (p : Path) (n : AxisIx) (w : Word) (s : State), s.held = false → bitsOf w 0 8 ≠ 0 → bitsOf w 27 1 = 1 →
    s.atRest n = true → s.armed n = false →
    Does (.devSync p n w) s fun t =>
      t.flag (F.OBSn_STATUS_DEV_REF_VALID n) = true ∧
      t.wideS 48 (R.OBSn_DEV_REF n) = sext 48 (unsext 48 (t.pos n - t.xFb n)) ∧
      OnlyRegs [R.OBSn_DEV_CFG n, R.OBSn_DEV_REF n, R.OBSn_DEV_REF n + 4, R.OBSn_STATUS n] s t) ∧
  (∀ (p : Path) (n : AxisIx) (w : Word) (s : State), s.held = false → bitsOf w 27 1 = 1 → s.atRest n = false →
    Does (.devSync p n w) s fun t => t = s) ∧
  (∀ (p : Path) (n : AxisIx) (w : Word) (s : State), s.held = false → bitsOf w 0 16 ≠ 0 →
    Does (.motorRWrite p n w) s fun t =>
      t.get (F.OBSn_MOTOR_R_VALUE n) = bitsOf w 0 16 ∧ t.get (F.OBSn_R_EST_R n) = bitsOf w 0 16 ∧
      (t.ob n).rEst = bitsOf w 0 16 * 256 ∧ OnlyRegs [R.OBSn_MOTOR_R n, R.OBSn_R_EST n] { s with obss := t.obss } t) ∧
  (∀ (p : Path) (n : AxisIx) (w : Word) (s : State), s.held = false → bitsOf w 0 16 = 0 →
    Does (.motorRWrite p n w) s fun t => t = s)

/-- Starts of the precision converter (R278 to R281): a start on an idle converter A begins with the lowest entry of its mask;
one that meets a running conversion pends, and a second is missed; an urgent one that meets a conversion is dropped; STOP
ends it. What a start meets is the model's reading of the order within a write (log entry 30). -/
def Obligations.ScansStartPendAndStop : Prop :=
  (∀ (s : State) (e : Nat) (rest : List Nat), s.held = false → s.get F.PMC_SCAN_CFG_MODE = 0 → s.pmc.a = none →
    maskEntries (s.rd R.PMC_SCAN_MASK) = e :: rest →
    Does .scanTrigger s fun t =>
      (t.pmc.a.map fun c => (c.kind, c.entry, c.cfg)) = some (.scan rest, e, s.rd (R.PMC_CFGe e)) ∧
      t.flag F.PMC_STATUS_BUSY_A = true ∧ t.pmc.b = s.pmc.b) ∧
  (∀ s : State, s.held = false → s.get F.PMC_SCAN_CFG_MODE = 0 → s.pmc.a.isSome = true →
    s.flag F.PMC_STATUS_PEND = false →
    Does .scanTrigger s fun t => t.flag F.PMC_STATUS_PEND = true ∧ t.pmc = s.pmc ∧ OnlyAsync [R.PMC_STATUS] s t) ∧
  (∀ s : State, s.held = false → s.get F.PMC_SCAN_CFG_MODE = 0 → s.pmc.a.isSome = true →
    s.flag F.PMC_STATUS_PEND = true →
    Does .scanTrigger s fun t =>
      t.get F.PMC_SCAN_MISS_COUNT = satAdd 16 (s.get F.PMC_SCAN_MISS_COUNT) 1 ∧
      t.flag F.PMC_IRQ_STATUS_SCAN_MISS = true ∧ t.pmc = s.pmc) ∧
  (∀ (p : Path) (s : State) (e : Nat) (rest : List Nat), s.held = false → s.flag F.PMC_STATUS_RUN = false →
    s.get F.PMC_SCAN_CFG_MODE = 0 → s.pmc.a = none → maskEntries (s.rd R.PMC_SCAN_MASK) = e :: rest →
    Does (.pmcStart p) s fun t =>
      (t.pmc.a.map fun c => (c.kind, c.entry, c.cfg)) = some (.scan rest, e, s.rd (R.PMC_CFGe e)) ∧
      t.flag F.PMC_STATUS_RUN = false) ∧
  (∀ (p : Path) (s : State), s.held = false → s.flag F.PMC_STATUS_RUN = false → s.get F.PMC_SCAN_CFG_MODE = 2 →
    Does (.pmcStart p) s fun t => t.flag F.PMC_STATUS_RUN = true ∧ t.pmc = s.pmc ∧ OnlyAsync [R.PMC_STATUS] s t) ∧
  (∀ (p : Path) (s : State), s.held = false → s.flag F.PMC_STATUS_RUN = true →
    Does (.pmcStart p) s fun t => OnlyAsync [] s t) ∧
  (∀ (p : Path) (s : State), s.held = false →
    Does (.pmcStop p) s fun t =>
      t.flag F.PMC_STATUS_RUN = false ∧ t.flag F.PMC_STATUS_PEND = false ∧ t.pmc.a = none ∧ t.pmc.b = none ∧
      t.flag F.PMC_STATUS_BUSY_A = false ∧
      (∀ c, s.pmc.a = some c → c.entry < 32 → wordValid (t.rd (R.PMC_RESe c.entry)) = false)) ∧
  (∀ (p : Path) (s : State) (e : Nat) (rest : List Nat), s.held = false → s.pmc.a = none →
    maskEntries (s.rd R.PMC_URG_MASK) = e :: rest →
    Does (.pmcUrgent p) s fun t =>
      (t.pmc.a.map fun c => (c.kind, c.entry)) = some (.urgent rest, e) ∧ t.flag F.PMC_STATUS_URGENT = true) ∧
  (∀ (s : State) (e : Nat) (rest : List Nat), s.held = false → s.pmc.a = none →
    maskEntries (s.rd R.PMC_URG_MASK) = e :: rest →
    Does .urgentTrigger s fun t =>
      (t.pmc.a.map fun c => (c.kind, c.entry)) = some (.urgent rest, e) ∧ t.flag F.PMC_STATUS_URGENT = true) ∧
  (∀ s : State, s.held = false → s.pmc.a.isSome = true →
    Does .urgentTrigger s fun t =>
      t.get F.PMC_URG_DROP_COUNT = satAdd 16 (s.get F.PMC_URG_DROP_COUNT) 1 ∧
      t.flag F.PMC_IRQ_STATUS_URG_DROP = true ∧ t.pmc = s.pmc)

/-- A conversion ends (R278, R282): its corrected value is the entry's valid result, the scan goes on with the next entry and
raises SCAN_DONE after the last; the interleaved converter B starts half a conversion after A (R285); settings are stored
and clear the histories, reserved ones are refused (R277). The converted value is an operand (log entry 30). -/
def Obligations.ConversionsShowTheirResult : Prop :=
  (∀ (x : Int) (cyc : Nat) (s : State) (c : Conv) (e : Nat) (rest : List Nat), s.held = false → s.pmc.a = some c →
    c.kind = .scan (e :: rest) → c.entry < 32 → bitsOf c.cfg 12 2 = 0 → satS 24 x = x → s.anaOk = true →
    Does (.conversionDone false x cyc) s fun t =>
      wordData (t.rd (R.PMC_RESe c.entry)) =
        correct x (s.getS (F.PMC_OFFSETe_VALUE c.entry)) (s.get (F.PMC_GAINe_VALUE c.entry)) ∧
      wordValid (t.rd (R.PMC_RESe c.entry)) = true ∧ wordClip (t.rd (R.PMC_RESe c.entry)) = false ∧
      (t.pmc.a.map fun d => (d.kind, d.entry)) = some (.scan rest, e) ∧ t.pmc.b = s.pmc.b) ∧
  (∀ (x : Int) (cyc : Nat) (s : State) (c : Conv), s.held = false → s.pmc.a = some c → c.kind = .scan [] →
    Does (.conversionDone false x cyc) s fun t => t.flag F.PMC_IRQ_STATUS_SCAN_DONE = true) ∧
  (∀ (x : Int) (cyc : Nat) (s : State), s.held = false → s.pmc.a = none →
    Does (.conversionDone false x cyc) s fun t => OnlyAsync [] { s with sub := t.sub } t) ∧
  (∀ s : State, s.held = false → s.interleaving = true → s.pmc.a.isSome = true → s.pmc.b = none →
    s.pmcbClaimed = false →
    Does .interleaveBStart s fun t =>
      (t.pmc.b.map fun c => (c.kind, c.entry)) = some (.interleave, s.get F.PMC_SCAN_CFG_ENTRY) ∧ t.pmc.a = s.pmc.a ∧
      t.flag F.PMC_STATUS_BUSY_B = true) ∧
  (∀ (p : Path) (e : EntryIx) (w : Word) (s : State), s.held = false → bitsOf w 18 2 ≠ 3 → bitsOf w 12 2 = 0 →
    e.val < 16 → bitsOf w 4 1 = 0 → w &&& 0xF3717 ≠ s.rd (R.PMC_CFGe e) →
    Does (.pmcCfgWrite p e w) s fun t =>
      t.rd (R.PMC_CFGe e) = w &&& 0xF3717 ∧ t.pmc.hist.toList.getD e [] = [] ∧ t.pmc.prev.toList.getD e none = none ∧
      OnlyRegs [R.PMC_CFGe e] { s with pmc := t.pmc } t) ∧
  (∀ (p : Path) (e : EntryIx) (w : Word) (s : State), s.held = false → bitsOf w 12 2 = 3 →
    Does (.pmcCfgWrite p e w) s fun t => t = s)

/-- The reference (R287 to R294): a settled buffer is ready; a new selection clears REF_READY, and a FAILED reference cannot be
selected; a cross-check with all pairs in agreement is good, with none it has no majority, and an odd reference that is not
in use fails; FAILED clears where its pairs agree. The deviations are operands (log entry 31). -/
def Obligations.ReferencesAreCrossChecked : Prop :=
  (∀ (cyc : Nat) (s : State), s.held = false → s.flag F.PMC_REF_CFG_BUF_EN = true →
    s.flag F.PMC_STATUS_REF_READY = false →
    Does (.refReady cyc) s fun t =>
      t.flag F.PMC_STATUS_REF_READY = true ∧ t.flag F.PMC_IRQ_STATUS_REF_READY = true ∧ t.pmc.selChange = false ∧
      OnlyEvents [R.PMC_STATUS, R.PMC_IRQ_STATUS] { s with pmc := t.pmc, sub := t.sub } t) ∧
  (∀ (p : Path) (w : Word) (s : State), s.held = false → bitsOf w 4 2 ≠ 3 →
    bitsOf (s.rd R.PMC_REF_STATUS) (8 + bitsOf w 4 2) 1 = 0 → bitsOf w 8 1 = s.get F.PMC_REF_CFG_EXT →
    bitsOf w 4 2 ≠ s.get F.PMC_REF_CFG_SEL →
    Does (.refSelect p w) s fun t =>
      t.get F.PMC_REF_CFG_SEL = bitsOf w 4 2 ∧ t.flag F.PMC_STATUS_REF_READY = false ∧ t.pmc.selChange = true ∧
      OnlyRegs [R.PMC_REF_CFG, R.PMC_STATUS] { s with pmc := t.pmc } t) ∧
  (∀ (p : Path) (w : Word) (s : State), s.held = false →
    bitsOf (s.rd R.PMC_REF_STATUS) (8 + bitsOf w 4 2) 1 = 1 →
    Does (.refSelect p w) s fun t => t = s) ∧
  (∀ (ab ac bc : Nat) (s : State) (i : Nat), s.held = false → s.findAct 4 0 = some i → ab ≤ 1000000 → ac ≤ 1000000 →
    bc ≤ 1000000 →
    Does (.refXcheckDone ab ac bc) s fun t =>
      t.get F.PMC_REF_STATUS_STATE = 0 ∧ t.get F.PMC_REF_GOOD_FRAME = s.pmc.checkFrame % 2 ^ 32 ∧
      t.pmc.goodSeq = s.pmc.checkSeq ∧ t.get F.PMC_REF_DEV_DEV_AB = devUnits ab ∧ t.get F.PMC_REF_STATUS_WARN = 0 ∧
      t.slotBusy i = false) ∧
  (∀ (ab ac bc : Nat) (s : State) (i : Nat), s.held = false → s.findAct 4 0 = some i → 2500000 < ab → 2500000 < ac →
    2500000 < bc →
    Does (.refXcheckDone ab ac bc) s fun t =>
      t.get F.PMC_REF_STATUS_STATE = 2 ∧ t.flag F.PMC_IRQ_STATUS_REF_NO_MAJORITY = true ∧ t.slotBusy i = false) ∧
  (∀ (ab ac bc : Nat) (s : State) (i : Nat), s.held = false → s.findAct 4 0 = some i → 2500000 < ab → ac ≤ 2500000 →
    2500000 < bc → s.get F.PMC_REF_CFG_SEL = 0 →
    Does (.refXcheckDone ab ac bc) s fun t =>
      t.flag ⟨R.PMC_REF_STATUS, 9, 1⟩ = true ∧ t.get F.PMC_REF_STATUS_STATE = 0 ∧
      t.flag F.PMC_IRQ_STATUS_REF_FAIL = true ∧ t.get F.PMC_REF_CFG_SEL = 0) ∧
  (∀ (p : Path) (w : Word) (s : State), s.held = false → (∀ i < 3, s.pmc.pairs.toList.getD i false = false) →
    Does (.refFailedClear p w) s fun t =>
      (∀ m < 3, bitsOf w (8 + m) 1 = 1 → t.flag ⟨R.PMC_REF_STATUS, 8 + m, 1⟩ = false) ∧
      OnlyRegs [R.PMC_REF_STATUS] s t) ∧
  (∀ (p : Path) (w : Word) (s : State), s.held = false → (∀ i < 3, s.pmc.pairs.toList.getD i false = true) →
    Does (.refFailedClear p w) s fun t => t = s)

/-- A comparator's decision (R300 to R303): an enabled one shows its level, and with its output released, not blanked and not
under test the output follows and the trip is recorded; a disabled one stays 0. The outputs are released with the analogue
rail (R311). The comparator's decision is an event (log entry 32). -/
def Obligations.ComparatorsTripAndRelease : Prop :=
  (∀ (c : CmpIx) (cyc : Nat) (s : State), s.held = false → s.flag (F.CMPc_CFG_EN c) = true → s.cmp.ready = true →
    s.cmp.saved = [] → s.cmp.hold = [] → (∀ k, s.routesTo k = []) → s.flag (F.CMPc_STATUS_OUT c) = false →
    Does (.cmpTrip c cyc) s fun t =>
      t.flag (F.CMPc_STATUS_RAW c) = true ∧ t.flag (F.CMPc_STATUS_OUT c) = true ∧
      t.flag ⟨if c.val < 32 then R.CMP_OUT_LO else R.CMP_OUT_HI, c % 32, 1⟩ = true ∧ t.flag (evCmpTrip c).fld = true ∧
      OnlyAsync [] { s with sub := t.sub } t) ∧
  (∀ (c : CmpIx) (cyc : Nat) (s : State), s.held = false → s.flag (F.CMPc_CFG_EN c) = false →
    Does (.cmpTrip c cyc) s fun t =>
      t.flag (F.CMPc_STATUS_RAW c) = s.flag (F.CMPc_STATUS_RAW c) ∧ OnlyAsync [] { s with sub := t.sub } t) ∧
  (∀ (c : CmpIx) (cyc : Nat) (s : State), s.held = false → s.cmp.hold = [] →
    Does (.cmpRelease c cyc) s fun t =>
      t.flag (F.CMPc_STATUS_RAW c) = false ∧ t.flag (F.CMPc_STATUS_OUT c) = false ∧
      OnlyAsync [] { s with sub := t.sub } t) ∧
  (∀ s : State, s.held = false → s.anaOk = true →
    Does .cmpOutputsEnabled s fun t => t.cmp.ready = true ∧ t.pmc = s.pmc) ∧
  (∀ s : State, s.held = false → s.anaOk = false → Does .cmpOutputsEnabled s fun t => OnlyAsync [] s t)

/-- Thresholds, settings and self-tests (R305, R308 to R310): a threshold is stored unless the arbiter holds the comparator; a
test switch is refused on an armed axis; a self-test ends with its result and the saved settings, a readback with the
verdict on its code. What a self-test leaves in RAW is the model's reading (log entry 33). -/
def Obligations.ComparatorSettingsAndTests : Prop :=
  (∀ (p : Path) (c : CmpIx) (w : Word) (s : State), s.held = false → s.cmpClaimed c = false →
    Does (.cmpDacWrite p c w) s fun t => t.get (F.CMPc_DAC_CODE c) = bitsOf w 0 10 ∧ OnlyRegs [R.CMPc_DAC c] s t) ∧
  (∀ (p : Path) (c : CmpIx) (w : Word) (s : State), s.held = false → s.cmpClaimed c = true →
    Does (.cmpDacWrite p c w) s fun t => t = s) ∧
  (∀ (p : Path) (c : CmpIx) (w : Word) (s : State), s.held = false → s.cmpClaimed c = false → bitsOf w 13 3 ≤ 4 →
    s.cmpLocked c = false →
    Does (.cmpTestWrite p c w) s fun t =>
      t.get (F.CMPc_CFG_TEST c) = bitsOf w 13 3 ∧ t.get (F.CMPc_CFG_DEG c) = bitsOf w 8 2 ∧
      t.get (F.CMPc_CFG_HYST c) = bitsOf w 4 2 ∧ t.get (F.CMPc_CFG_EN c) = bitsOf w 0 1 ∧
      (bitsOf w 0 1 = 0 → t.flag (F.CMPc_STATUS_RAW c) = false) ∧ OnlyAsync [R.CMPc_CFG c] s t) ∧
  (∀ (p : Path) (c : CmpIx) (w : Word) (s : State), s.held = false → c.val < 32 → s.armed (c / 4) = true →
    bitsOf w 13 3 ≠ 0 →
    Does (.cmpTestWrite p c w) s fun t => OnlyAsync [] s t) ∧
  (∀ (c : CmpIx) (s : State) (i : Nat) (e : Nat × Nat), s.held = false → s.findAct 2 c = some i →
    s.cmp.saved = [(c.val, e)] →
    Does (.cmpSelftestDone c 0) s fun t =>
      t.get (F.CMPc_STATUS_ST_RESULT c) = 1 ∧ t.get (F.CMPc_STATUS_ST_STEP c) = 0 ∧
      t.get (F.CMPc_DAC_CODE c) = e.1 % 1024 ∧ t.get (F.CMPc_CFG_HYST c) = e.2 % 4 ∧ t.get (F.CMPc_CFG_TEST c) = 0 ∧
      t.cmp.saved = [] ∧ t.slotBusy i = false) ∧
  (∀ (c : CmpIx) (f : Fin 6) (s : State) (i : Nat), s.held = false → s.findAct 2 c = some i → f ≠ 0 →
    Does (.cmpSelftestDone c f) s fun t =>
      t.get (F.CMPc_STATUS_ST_RESULT c) = 2 ∧ t.get (F.CMPc_STATUS_ST_STEP c) = f.val ∧
      t.flag (F.CMPc_STATUS_SELFTEST_FAIL c) = true ∧ t.slotBusy i = false) ∧
  (∀ (c : CmpIx) (x : Int) (s : State) (i : Nat), s.held = false → s.findAct 3 c = some i → s.anaOk = true →
    s.cmp.rbBad = false → s.readyThen (s.frm.slotStart.toList.getD i 0 + 40000) = true →
    s.get F.PMC_REF_STATUS_STATE ≠ 2 → satS 24 x = x →
    (x - convDiv (((s.get (F.CMPc_DAC_CODE c) : Int) - 512) * 65536) 10).natAbs ≤ 13107 →
    Does (.dacReadbackDone c x) s fun t =>
      t.get (F.CMPc_STATUS_RB_RESULT c) = 1 ∧ wordData (t.rd (R.CMPc_DAC_RB c)) = x ∧ t.slotBusy i = false) ∧
  (∀ (c : CmpIx) (x : Int) (s : State) (i : Nat), s.held = false → s.findAct 3 c = some i → s.anaOk = true →
    s.cmp.rbBad = false → s.readyThen (s.frm.slotStart.toList.getD i 0 + 40000) = true →
    s.get F.PMC_REF_STATUS_STATE ≠ 2 → satS 24 x = x →
    13107 < (x - convDiv (((s.get (F.CMPc_DAC_CODE c) : Int) - 512) * 65536) 10).natAbs →
    Does (.dacReadbackDone c x) s fun t =>
      t.get (F.CMPc_STATUS_RB_RESULT c) = 2 ∧ t.flag (F.CMPc_STATUS_RB_FAIL c) = true ∧ t.slotBusy i = false)

/-- Links (R313, R317, R334, R338, R342): a port that comes up trains, a wrong link mode or no common version is refused with
its reason, and a lost link takes the port down, counts and ends a session bound to it. A TRAIN request is answered 10 us
later, a response is a delay sample, three of each direction complete the training; errors count in their counters. What the
receiver decodes is an operand (log entry 34). -/
def Obligations.LinksTrainAndFail : Prop :=
  (∀ (q : PortIx) (s : State), s.held = false → s.portState q = 1 →
    Does (.linkUp q) s fun t =>
      t.portState q = 2 ∧ t.get (F.NETp_STATUS_LINK_VER q) = 0 ∧ (t.np q).sent = 0 ∧ (t.np q).recv = 0 ∧
      OnlyRegs [R.NETp_STATUS q] { s with net := t.net } t) ∧
  (∀ (q : PortIx) (s : State), s.held = false → s.portState q = 1 →
    Does (.linkModeRefused q) s fun t =>
      t.portState q = 3 ∧ t.get (F.NETp_STATUS_REASON q) = 1 ∧ OnlyRegs [R.NETp_STATUS q] { s with net := t.net } t) ∧
  (∀ (q : PortIx) (s : State), s.held = false → s.portState q ≠ 1 →
    Does (.linkUp q) s fun t => OnlyRegs [] { s with net := t.net } t) ∧
  (∀ (q : PortIx) (s : State), s.held = false → (s.portState q = 2 ∨ s.portState q = 4 ∨ s.portState q = 5) →
    s.cfg.port = none →
    Does (.linkLost q) s fun t =>
      t.portState q = 1 ∧ t.get (F.NETp_STATUS_LINK_VER q) = 0 ∧ t.flag (F.NETp_STATUS_DELAY_VALID q) = false ∧
      t.flag (F.NETp_STATUS_OFFSET_VALID q) = false ∧ t.np q = restPort ∧
      t.get (F.NETp_CNT_COUNT q 0) = satAdd 16 (s.get (F.NETp_CNT_COUNT q 0)) 1 ∧
      OnlyRegs [R.NETp_STATUS q, R.NETp_CNT q 0] { s with net := t.net } t) ∧
  (∀ (q : PortIx) (src : Nat) (s : State), s.held = false → s.portState q = 5 → s.cfg.port = some (.ring q src) →
    s.loader ≠ 6 →
    Does (.linkLost q) s fun t =>
      t.portState q = 1 ∧ t.cfg.port = none ∧ t.get F.CFG_RESULT_CODE = 0x15 ∧ t.loader = 0) ∧
  (∀ (q : PortIx) (b : List Byte) (g : Nat) (s : State), s.held = false → s.portState q = 2 → b.length = 24 →
    s.get (F.NETp_STATUS_LINK_VER q) = 0 → commonVersion (rdN b 8 2) = 0 →
    Does (.trainReceived q b g) s fun t =>
      t.portState q = 3 ∧ t.get (F.NETp_STATUS_REASON q) = 2 ∧ OnlyRegs [R.NETp_STATUS q] { s with net := t.net } t) ∧
  (∀ (q : PortIx) (b : List Byte) (g : Nat) (s : State), s.held = false → s.portState q = 4 → b.length = 24 →
    s.get (F.NETp_STATUS_LINK_VER q) ≠ 0 → rdN b 11 1 / 2 % 2 = 0 → 24000 < g →
    Does (.trainReceived q b g) s fun t =>
      t.net.tx = [⟨q, 10000, (mkSeg 0x10 (s.trainBody q)).bytes⟩] ∧ t.portState q = 4 ∧
      OnlyRegs [R.NETp_STATUS q] { s with net := t.net } t) ∧
  (∀ (q : PortIx) (b : List Byte) (x : Nat) (s : State), s.held = false → s.portState q = 4 → b.length = 24 →
    s.get (F.NETp_STATUS_LINK_VER q) ≠ 0 → rdN b 11 1 / 2 % 2 = 0 → x ≤ 4000 →
    Does (.trainReceived q b (20000 + x)) s fun t =>
      (t.np q).samples = ((x : Int) :: (s.np q).samples).take 16 ∧
      t.get (F.NETp_DELAY_DELAY q) =
        (convDiv (sumI (t.np q).samples) (4 * (t.np q).samples.length)).toNat % 65536 ∧
      (2 ≤ (t.np q).samples.length → t.flag (F.NETp_STATUS_DELAY_VALID q) = true) ∧ t.net.tx = [] ∧
      OnlyRegs [R.NETp_STATUS q, R.NETp_DELAY q] { s with net := t.net } t) ∧
  (∀ (q : PortIx) (b : List Byte) (x : Nat) (s : State), s.held = false → s.portState q = 2 → b.length = 24 →
    s.get (F.NETp_STATUS_LINK_VER q) ≠ 0 → rdN b 11 1 = 1 → rdN b 12 1 = s.get (F.NETp_STATUS_LINK_VER q) →
    3 ≤ (s.np q).sent → 2 ≤ (s.np q).recv → x ≤ 4000 →
    Does (.trainReceived q b (20000 + x)) s fun t => t.portState q = 4) ∧
  (∀ (q : PortIx) (s : State), s.held = false → s.portState q = 4 →
    Does (.trainInterval q) s fun t =>
      t.net.tx = [⟨q, if (s.np q).backoff then 50000 else 0, (mkSeg 0x10 (s.trainBody q)).bytes⟩] ∧
      (t.np q).backoff = false ∧ OnlyRegs [] { s with net := t.net } t) ∧
  (∀ (q : PortIx) (s : State), s.held = false → s.portState q = 2 →
    Does (.trainTimeout q) s fun t =>
      t.portState q = 2 ∧ t.get (F.NETp_STATUS_LINK_VER q) = 0 ∧ (t.np q).sent = 0 ∧ (t.np q).recv = 0 ∧
      t.get (F.NETp_CNT_COUNT q 4) = satAdd 16 (s.get (F.NETp_CNT_COUNT q 4)) 1 ∧
      OnlyRegs [R.NETp_STATUS q, R.NETp_CNT q 4] { s with net := t.net } t) ∧
  (∀ (q : PortIx) (s : State), s.held = false → s.portState q = 4 →
    Does (.trainTimeout q) s fun t =>
      t.portState q = 2 ∧ t.get (F.NETp_STATUS_LINK_VER q) = 0 ∧
      OnlyRegs [R.NETp_STATUS q] { s with net := t.net } t) ∧
  (∀ (q : PortIx) (s : State), s.held = false → (s.np q).looping = true → s.portState q = 6 →
    Does (.loopReqTimeout q) s fun t =>
      t.portState q = 2 ∧ (t.np q).looping = false ∧ OnlyRegs [R.NETp_STATUS q] { s with net := t.net } t) ∧
  (∀ (q : PortIx) (s : State), s.held = false →
    Does (.invalidCodeGroup q) s fun t =>
      t.get (F.NETp_CNT_COUNT q 3) = satAdd 16 (s.get (F.NETp_CNT_COUNT q 3)) 1 ∧
      OnlyRegs [R.NETp_CNT q 3] { s with net := t.net } t) ∧
  (∀ (q : PortIx) (s : State), s.held = false → s.prbsOn q = true →
    Does (.prbsLock q) s fun t => (t.np q).prbs = true ∧ OnlyRegs [] { s with net := t.net } t) ∧
  (∀ (q : PortIx) (s : State), s.held = false → s.prbsOn q = true → (s.np q).prbs = true →
    Does (.prbsLockLost q) s fun t =>
      (t.np q).prbs = false ∧ t.get (F.NETp_CNT_COUNT q 8) = satAdd 16 (s.get (F.NETp_CNT_COUNT q 8)) 1 ∧
      OnlyRegs [R.NETp_CNT q 8] { s with net := t.net } t) ∧
  (∀ (q : PortIx) (s : State), s.held = false → s.prbsOn q = true → (s.np q).prbs = true →
    Does (.prbsBitError q) s fun t =>
      t.get (F.NETp_CNT_COUNT q 7) = satAdd 16 (s.get (F.NETp_CNT_COUNT q 7)) 1 ∧
      OnlyRegs [R.NETp_CNT q 7] { s with net := t.net } t)

/-- Forwarding (R321 to R325, R333, R334): a segment on an OPEN port goes on, one forwarding latency later, on the next OPEN
port in the cyclic order; an errored one goes on with the complement of its FCS and counts; TRAIN is never forwarded;
nothing goes on from a port that is not OPEN. The first pass of a cycle is remembered, and the node is no longer isolated. A
written path offset is valid (R343). Segments are operands (log entry 34). -/
def Obligations.SegmentsAreForwarded : Prop :=
  (∀ (q : PortIx) (b : List Byte) (s : State), s.held = false → s.isOpen q = true → s.rootHere = false →
    ((parseSeg b).typ = 2 ∨ (parseSeg b).typ = 4 ∨ (parseSeg b).typ = 0x11 ∨ (parseSeg b).typ = 0x12) →
    (parseSeg b).st = .good →
    Does (.segmentReceived q b) s fun t =>
      t.net.tx = [⟨((othersOf q).find? s.isOpen).getD q, s.get F.NET_NODE_FWD_LAT, (parseSeg b).bytes⟩] ∧
      OnlyRegs [] { s with net := t.net } t) ∧
  (∀ (q : PortIx) (b : List Byte) (s : State), s.held = false → s.isOpen q = true → s.rootHere = false →
    (parseSeg b).typ = 2 → (parseSeg b).st = .bad → (s.np q).errPrev = false →
    Does (.segmentReceived q b) s fun t =>
      t.net.tx = [⟨((othersOf q).find? s.isOpen).getD q, s.get F.NET_NODE_FWD_LAT,
        (parseSeg b).head ++ (parseSeg b).body ++
          leBytes 4 (0xFFFFFFFF - crc32 ((parseSeg b).head ++ (parseSeg b).body))⟩] ∧
      t.get (F.NETp_CNT_COUNT q 1) = satAdd 16 (s.get (F.NETp_CNT_COUNT q 1)) 1 ∧ (t.np q).errNow = true ∧
      OnlyRegs [R.NETp_CNT q 1] { s with net := t.net } t) ∧
  (∀ (q : PortIx) (b : List Byte) (s : State), s.held = false → (parseSeg b).typ = 0x10 →
    Does (.segmentReceived q b) s fun t => t.net.tx = [] ∧ OnlyRegs [] { s with net := t.net } t) ∧
  (∀ (q : PortIx) (b : List Byte) (s : State), s.held = false → s.isOpen q = false → (parseSeg b).typ ≠ 1 →
    Does (.segmentReceived q b) s fun t => t.net.tx = [] ∧ OnlyRegs [] { s with net := t.net } t) ∧
  (∀ (q : PortIx) (b : List Byte) (hdrH : Int) (cyc : Nat) (ready : List (Nat × Nat)) (s : State), s.held = false →
    (parseSeg b).isHeader = true → s.isOpen q = true → s.rootHere = false → s.net.reopen = none →
    (parseHdr (parseSeg b).body).nodes ≠ 0 → s.net.cycle ≠ some (parseHdr (parseSeg b).body).cycleNo →
    Does (.ringPass q [b] hdrH cyc ready) s fun t =>
      t.net.cycle = some (parseHdr (parseSeg b).body).cycleNo ∧
      t.net.root = some (parseHdr (parseSeg b).body).root ∧ t.net.arrival = some q.val ∧
      t.flag F.NET_RING_ISOLATED = false ∧ t.get F.NET_RING_RING_VER = (parseHdr (parseSeg b).body).ver % 16 ∧
      t.net.tx = [⟨((othersOf q).find? s.isOpen).getD q, s.get F.NET_NODE_FWD_LAT, (parseSeg b).bytes⟩] ∧
      t = { s with sub := t.sub, regs := t.regs, log := t.log, net := t.net, axes := t.axes, herds := t.herds }) ∧
  (∀ (p : Path) (q : PortIx) (w : Word) (s : State), s.held = false →
    Does (.netOffsetWrite p q w) s fun t =>
      t.rd (R.NETp_OFFSET q) = w ∧ t.flag (F.NETp_STATUS_OFFSET_VALID q) = true ∧
      OnlyRegs [R.NETp_OFFSET q, R.NETp_STATUS q] { s with net := t.net } t)

/-- The root and the loss of the ring (R337, R341, R344, R347, R358, R359): a root starts each cycle with the next number and
LIFE and sends its HEADER on its first OPEN port; one that yields stops; a loop found stops the normal cycles. An isolated
candidate becomes root; loss of supervision, isolation and the end of holdover are shown with their events; TIME_SET slews
by a small difference and steps by a large one. The root's commands and searches are the model's reading (log entries 35 and
38). -/
def Obligations.RootCyclesAndRingLoss : Prop :=
  (∀ (cmds : List (List Byte)) (src : List Byte) (s : State), s.held = false → s.rootHere = true →
    s.net.rs.yield = false → s.net.rs.stage = .normal → s.net.rs.want = false → s.net.rs.step = none →
    s.net.reopen = none →
    Does (.rootCycleStart cmds src) s fun t =>
      t.net.rs.cycleNo = (s.net.rs.cycleNo + 1) % 2 ^ 32 ∧ t.net.rs.life = (s.net.rs.life + 1) % 256 ∧
      t.net.rs.nextTime = s.net.rs.nextTime + 2 * s.get F.NET_ROOT_CYCLE_LEN ∧
      t.net.rs.first = (List.range 3).find? s.isOpen ∧
      (∀ p, (List.range 3).find? s.isOpen = some p → ∃ (h : Hdr) (rest : List Tx),
        t.net.tx = ⟨p, 0, (mkSeg 1 h.bytes).bytes⟩ :: rest ∧ h.cycleNo = (s.net.rs.cycleNo + 1) % 2 ^ 32 ∧
        h.len = s.get F.NET_ROOT_CYCLE_LEN ∧ h.time = s.net.rs.nextTime / 2 ∧ h.root = s.node)) ∧
  (∀ (cmds : List (List Byte)) (src : List Byte) (s : State), s.held = false → s.rootHere = true →
    s.net.rs.yield = true →
    Does (.rootCycleStart cmds src) s fun t =>
      t.rootHere = false ∧ t.net.root = none ∧ OnlyAsync [R.NET_RING] { s with net := t.net } t) ∧
  (∀ (q : PortIx) (b1 b2 : List Byte) (ns : Nat) (s : State), s.held = false → s.rootHere = true → s.isOpen q = true →
    s.outPort q = none → (parseSeg b1).isHeader = true → (parseHdr (parseSeg b1).body).nodes ≠ 0 →
    (parseHdr (parseSeg b1).body).prio = s.get F.NET_CFG_PRIO → (parseHdr (parseSeg b1).body).root = s.node →
    (parseSeg b2).typ = 5 → (parseSeg b2).st = .good → (parseSeg b2).body.length = 16 →
    rdN (parseSeg b2).body 12 2 % 2 = 1 →
    Does (.rootPassReturn q [b1, b2] ns) s fun t =>
      t.net.rs.stage = .loopWait ∧ t.flag (evNet 10).fld = true ∧ OnlyAsync [] { s with net := t.net } t) ∧
  (∀ s : State, s.held = false → s.rootHere = false → s.flag F.NET_RING_ISOLATED = false → s.cfg.port = none →
    Does .isolated s fun t =>
      t.flag F.NET_RING_ISOLATED = true ∧ t.flag (evNet 4).fld = true ∧ t.flag F.NET_RING_SUP_LOST = true ∧
      t.net.root = none ∧ t.net.life = none ∧
      OnlyEvents [R.NET_RING] { s with net := t.net, axes := t.axes } t) ∧
  (∀ s : State, s.held = false → s.flag F.NET_RING_ISOLATED = true → s.rootHere = false → 1 ≤ s.get F.NET_CFG_PRIO →
    Does .becomeRoot s fun t =>
      t.rootHere = true ∧ t.flag F.NET_RING_ISOLATED = false ∧ t.net.root = some s.node ∧ t.locked = true ∧
      t.net.rs.want = true ∧
      OnlyEvents [R.NET_RING, R.NET_ROOT_CYCLE, R.NET_TIME_STATUS] { s with net := t.net } t) ∧
  (∀ s : State, s.held = false → s.get F.NET_CFG_SUP_MISS ≤ s.net.misses → s.flag F.NET_RING_SUP_LOST = false →
    Does .supLost s fun t =>
      t.flag F.NET_RING_SUP_LOST = true ∧ t.flag (evNet 3).fld = true ∧
      (∀ n < 8, bitsOf (s.rd R.NET_CFG) n 1 = 1 → s.armed n = true → (t.ax n).causes = (s.ax n).causes ++ [(4, 0)]) ∧
      OnlyEvents [R.NET_RING] { s with net := t.net, axes := t.axes } t) ∧
  (∀ s : State, s.held = false → s.locked = true → s.flag F.NET_TIME_STATUS_HOLDOVER = true →
    Does .holdoverExpiry s fun t =>
      t.locked = false ∧ t.flag F.NET_TIME_STATUS_HOLDOVER = false ∧ t.flag (evNet 1).fld = true ∧
      (∀ n < 8, ∀ j < 4, t.slotBusyT n j = false) ∧
      OnlyEvents (R.NET_TIME_STATUS :: ((List.range 8).flatMap fun n =>
        R.MOTn_TCMD_DROP_CNT n :: R.MOTn_GEAR_IRQ_STATUS n :: (List.range 4).map (R.MOTn_TCMD_SLOTj n)))
        { s with net := t.net } t) ∧
  (∀ (p : Path) (s : State) (d : Int), s.held = false → s.rootHere = true →
    d = 2 * (s.wide 64 R.NET_TIME_SET_LO : Int) - ((s.net.timeH : Int) + 5 * s.sub) →
    d.natAbs < s.get F.NET_TIME_CFG_STEP_THR * 2000000 →
    Does (.timeSet p false) s fun t =>
      t.net.rs.slew = d ∧ t.net.rs.step = none ∧ t.flag F.NET_TIME_STATUS_SLEWING = decide (d ≠ 0) ∧
      OnlyRegs [R.NET_TIME_STATUS] { s with net := t.net } t) ∧
  (∀ (p : Path) (s : State) (d : Int), s.held = false → s.rootHere = true →
    d = 2 * (s.calTime : Int) - ((s.net.timeH : Int) + 5 * s.sub) →
    s.get F.NET_TIME_CFG_STEP_THR * 2000000 ≤ d.natAbs →
    Does (.timeSet p true) s fun t =>
      t.net.rs.slew = 0 ∧ t.net.rs.step = some d ∧ t.flag F.NET_TIME_STATUS_SLEWING = false ∧
      OnlyRegs [R.NET_TIME_STATUS] { s with net := t.net } t) ∧
  (∀ (p : Path) (s : State), s.held = false → s.rootHere = true →
    Does (.enumerate p) s fun t => t = { s with net := { s.net with rs := { s.net.rs with want := true } } }) ∧
  (∀ (p : Path) (s : State), s.held = false → s.rootHere = false → Does (.enumerate p) s fun t => t = s)

/-- Management requests (R331, R332, R354, R355): an admitted READ is answered with the word of the register, a WRITE stores its
word, a ROLE_SET of another code advances the epoch, a ROLE_GET returns the role; the reserved mode, an endpoint that does
not exist and a stale role epoch are refused with their status. The order of the checks is the model's reading (log entry
37). -/
def Obligations.ManagementRequestsAreAnswered : Prop :=
  (∀ (q : PortIx) (m : Mbx) (s : State) (a : Nat), s.held = false → Admitted (Req.withOp q m 1 s) s →
    (Req.withOp q m 1 s).mode = 0 → (Req.withOp q m 1 s).cnt = 1 → (Req.withOp q m 1 s).adr = a → a < 0x7800 →
    wideAt a = none → wideOfHi a = none → (∀ r, findRow a = some r → r.rc = 0) →
    Does (.mgmtRead q m) s fun t =>
      t.net.resp = s.net.resp ++ [newMbx 2 (nodeAddr m.src) 0 m.tag
        (leBytes 1 0 ++ leBytes 1 1 ++ leBytes 2 a ++ leBytes 4 (s.derived (.ring q m.src) a).toNat)] ∧
      OnlyAsync [] { s with net := t.net, staged := t.staged, snaps := t.snaps } t) ∧
  (∀ (q : PortIx) (m : Mbx) (s : State), s.held = false → Admitted (Req.withOp q m 2 s) s →
    (Req.withOp q m 2 s).mode = 0 → (Req.withOp q m 2 s).cnt = 1 → (Req.withOp q m 2 s).adr = R.FRM_IRQ_ENABLE →
    Does (.mgmtWrite q m) s fun t =>
      t.get F.FRM_IRQ_ENABLE_ENABLE = (Req.withOp q m 2 s).word 0 % 256 ∧
      t.net.resp = s.net.resp ++ [newMbx 2 (nodeAddr m.src) 0 m.tag
        (leBytes 1 0 ++ leBytes 1 1 ++ leBytes 2 R.FRM_IRQ_ENABLE)] ∧
      OnlyAsync [R.FRM_IRQ_ENABLE] { s with net := t.net, staged := t.staged, snaps := t.snaps } t) ∧
  (∀ (q : PortIx) (m : Mbx) (s : State) (code : Nat), s.held = false → Admitted (Req.withOp q m 3 s) s →
    (Req.withOp q m 3 s).mode = 0 → code = (Req.withOp q m 3 s).word 0 % 65536 → code ≠ 0xFFFF →
    (s.role (Req.withOp q m 3 s).low).toNat / 65536 ≠ code →
    Does (.roleSet q m) s fun t =>
      t.role (Req.withOp q m 3 s).low =
        BitVec.ofNat 32 (code * 65536 + nextEpoch ((s.role (Req.withOp q m 3 s).low).toNat % 65536)) ∧
      t.net.resp = s.net.resp ++ [newMbx 2 (nodeAddr m.src) 0 m.tag
        (leBytes 1 0 ++ leBytes 1 (Req.withOp q m 3 s).cnt ++ leBytes 2 (Req.withOp q m 3 s).adr)] ∧
      OnlyAsync [R.NVS_STATUS] { s with net := t.net, nvs := t.nvs } t) ∧
  (∀ (q : PortIx) (m : Mbx) (s : State), s.held = false → Admitted (Req.withOp q m 4 s) s →
    (Req.withOp q m 4 s).mode = 0 →
    Does (.roleGet q m) s fun t =>
      t.net.resp = s.net.resp ++ [newMbx 2 (nodeAddr m.src) 0 m.tag
        (leBytes 1 0 ++ leBytes 1 (Req.withOp q m 4 s).cnt ++ leBytes 2 (Req.withOp q m 4 s).adr ++
          leBytes 4 (s.role (Req.withOp q m 4 s).low).toNat)] ∧
      OnlyAsync [] { s with net := t.net } t) ∧
  (∀ (q : PortIx) (m : Mbx) (s : State), s.held = false → (Req.withOp q m 4 s).mode = 3 →
    Does (.roleGet q m) s fun t =>
      (∃ r : Mbx, t.net.resp = s.net.resp ++ [r] ∧ rdN r.payload 0 1 = 3) ∧ OnlyAsync [] { s with net := t.net } t) ∧
  (∀ (q : PortIx) (m : Mbx) (s : State), s.held = false → (Req.withOp q m 1 s).mode = 0 →
    endpointOk (Req.withOp q m 1 s).low = false →
    Does (.mgmtRead q m) s fun t =>
      (∃ r : Mbx, t.net.resp = s.net.resp ++ [r] ∧ rdN r.payload 0 1 = 2) ∧ OnlyAsync [] { s with net := t.net } t) ∧
  (∀ (q : PortIx) (m : Mbx) (s : State), s.held = false → (Req.withOp q m 2 s).mode = 0 →
    endpointOk (Req.withOp q m 2 s).low = true → s.authOn = false → s.needsTag (Req.withOp q m 2 s) = false →
    s.roleStale (Req.withOp q m 2 s) = true →
    Does (.mgmtWrite q m) s fun t =>
      (∃ r : Mbx, t.net.resp = s.net.resp ++ [r] ∧ rdN r.payload 0 1 = 1 ∧
        rdN r.payload 4 4 = (s.role (Req.withOp q m 2 s).low).toNat) ∧
      t.flag (evNet 7).fld = true ∧ t.get F.NET_NAK_CNT_STALE = satAdd 16 (s.get F.NET_NAK_CNT_STALE) 1 ∧
      OnlyAsync [R.NET_NAK_CNT] { s with net := t.net } t)

/-- Records (R362 to R369): LOAD shows the copy in use, a host COMMIT of a record that the host may write is queued, ACK clears
DIV, SAVE_STATE queues the axis record; each refusal has its code. A commit starts when the supply, the arbiter and the
energy allow it and ends with three equal copies under the next generation; refused device commits are retried. The start-up
read sets DIV and LOST as the selection says. When NVS_RESULT shows its code is the model's reading (log entry 40). -/
def Obligations.RecordsAreCommittedAndSelected : Prop :=
  (∀ (p : Path) (id : Byte) (s : State) (c : RecCopy), s.held = false → recordId id.toNat = true →
    s.copies id.toNat = [some c, some c, some c] → c.intact id.toNat = true →
    Does (.nvsLoad p id) s fun t =>
      t.rd R.NVS_RESULT = 0x100 ∧ t.get F.NVS_REC_LEN_VALUE = c.payload.length ∧
      t.get F.NVS_REC_GEN_VALUE = c.gen % 2 ^ 32 ∧ t.flag (divFld id.toNat) = c.restored ∧
      t.flag (lostFld id.toNat) = false ∧
      (∀ i < c.payload.length, t.bufByte i = (shownPayload id.toNat c.payload).getD i 0) ∧
      OnlyRegs [R.NVS_RESULT, R.NVS_REC_LEN, R.NVS_REC_GEN, R.NVS_REC_DIV, R.NVS_REC_DIV_HI, R.NVS_REC_LOST,
        R.NVS_REC_LOST_HI] { s with nvs := { s.nvs with bufBytes := t.nvs.bufBytes } } t) ∧
  (∀ (p : Path) (id : Byte) (s : State), s.held = false → recordId id.toNat = false →
    Does (.nvsLoad p id) s fun t => t.rd R.NVS_RESULT = 0x103 ∧ OnlyRegs [R.NVS_RESULT] s t) ∧
  (∀ (p : Path) (id : Byte) (s : State), s.held = false → 0x20 ≤ id.toNat → id.toNat ≤ 0x3E → s.powerFail = false →
    s.hostBusy = false → s.nvs.queue.length < 16 →
    Does (.nvsCommit p id) s fun t =>
      t.rd R.NVS_RESULT = 0x200 ∧ t.flag F.NVS_STATUS_HOST_BUSY = true ∧
      t.nvs = { s.nvs with queue := s.nvs.queue ++ [⟨id.toNat, true, s.bufTake (s.get F.NVS_REC_LEN_VALUE), none, false⟩] } ∧
      OnlyRegs [R.NVS_RESULT, R.NVS_STATUS] { s with nvs := t.nvs } t) ∧
  (∀ (p : Path) (id : Byte) (s : State), s.held = false → id.toNat ≤ 0x12 →
    Does (.nvsCommit p id) s fun t => t.rd R.NVS_RESULT = 0x204 ∧ OnlyRegs [R.NVS_RESULT] s t) ∧
  (∀ (p : Path) (id : Byte) (s : State) (c : RecCopy), s.held = false → recordId id.toNat = true →
    s.flag (divFld id.toNat) = true → s.inUse id.toNat = some c → s.nvs.queue = [] →
    Does (.nvsAck p id) s fun t =>
      t.rd R.NVS_RESULT = 0x300 ∧ t.flag (divFld id.toNat) = false ∧
      t.nvs = { s.nvs with queue := [⟨id.toNat, false, c.payload, none, false⟩] } ∧
      OnlyRegs [R.NVS_RESULT, R.NVS_STATUS, R.NVS_REC_DIV, R.NVS_REC_DIV_HI] { s with nvs := t.nvs } t) ∧
  (∀ (p : Path) (id : Byte) (s : State), s.held = false → recordId id.toNat = true →
    s.flag (divFld id.toNat) = false → s.flag (lostFld id.toNat) = false →
    Does (.nvsAck p id) s fun t => t.rd R.NVS_RESULT = 0x307 ∧ OnlyRegs [R.NVS_RESULT] s t) ∧
  (∀ (p : Path) (id : Byte) (s : State), s.held = false → id.toNat < 8 → s.nvs.queue = [] →
    Does (.saveState p id) s fun t =>
      t.rd R.NVS_RESULT = 0x400 ∧ t.nvs = { s.nvs with queue := [⟨id.toNat, false, [], none, false⟩] } ∧
      OnlyRegs [R.NVS_RESULT, R.NVS_STATUS] { s with nvs := t.nvs } t) ∧
  (∀ (p : Path) (id : Byte) (s : State), s.held = false → 8 ≤ id.toNat →
    Does (.saveState p id) s fun t => t.rd R.NVS_RESULT = 0x403 ∧ OnlyRegs [R.NVS_RESULT] s t) ∧
  (∀ (s : State) (c : Commit) (rest : List Commit), s.held = false → s.nvs.running = none → s.nvs.queue = c :: rest →
    c.host = true → c.keep = none → s.powerFail = false → s.findAct 8 0 = none →
    s.energyOk (recordTime c.payload.length) = true →
    Does .recordCommitStart s fun t =>
      t.nvs = { s.nvs with queue := rest, running := some c } ∧ t.flag F.NVS_STATUS_BUSY = true ∧
      OnlyRegs [R.NVS_STATUS, R.NVS_HOLD] { s with nvs := t.nvs } t) ∧
  (∀ (s : State) (c : Commit) (rest : List Commit), s.held = false → s.nvs.running = none → s.nvs.queue = c :: rest →
    c.host = true → c.keep = none → s.powerFail = false → s.findAct 8 0 = none →
    s.energyOk (recordTime c.payload.length) = false →
    Does .recordCommitStart s fun t =>
      t.nvs = { s.nvs with queue := rest } ∧ t.rd R.NVS_RESULT = 0x201 ∧ t.flag F.NVS_IRQ_STATUS_ENERGY_LOW = true ∧
      t.get F.NVS_ENERGY_CNT_COUNT = satAdd 16 (s.get F.NVS_ENERGY_CNT_COUNT) 1 ∧
      OnlyEvents [R.NVS_STATUS, R.NVS_HOLD, R.NVS_RESULT, R.NVS_ENERGY_CNT] { s with nvs := t.nvs } t) ∧
  (∀ (s : State) (c : Commit), s.held = false → s.nvs.running = some c → c.host = true → c.keep = none →
    c.restored = false → 0x20 ≤ c.id → c.id ≤ 0x3E →
    Does (.recordCommitDone 0) s fun t =>
      (∃ x, t.copies c.id = [some x, some x, some x] ∧ x.payload = c.payload ∧ x.id = c.id ∧ x.gen = s.commitGen c) ∧
      (∀ id, id ≠ c.id → t.copies id = s.copies id) ∧ t.nvs.running = none ∧ t.rd R.NVS_RESULT = 0x200 ∧
      t.get F.NVS_REC_GEN_VALUE = s.commitGen c % 2 ^ 32 ∧ t.flag F.NVS_IRQ_STATUS_COMMIT_DONE = true ∧
      OnlyEvents [R.NVS_STATUS, R.NVS_SPARE, R.NVS_RESULT, R.NVS_REC_GEN, R.NVS_REC_DIV_HI, R.NVS_REC_LOST_HI]
        { s with nvs := t.nvs } t) ∧
  (∀ (s : State) (c : Commit), s.held = false → s.nvs.retry = [c] → s.nvs.queue = [] →
    Does .energyRetry s fun t =>
      t.nvs = { s.nvs with queue := [c], retry := [] } ∧ OnlyRegs [R.NVS_STATUS] { s with nvs := t.nvs } t) ∧
  (∀ (n : AxisIx) (s : State), s.held = false → n.val ∈ s.nvs.safetyDirty → s.nvs.queue = [] →
    Does (.safetyAutosave n) s fun t =>
      n.val ∉ t.nvs.safetyDirty ∧ t.nvs.queue = [⟨8 + n.val, false, [], none, false⟩] ∧
      OnlyRegs [R.NVS_STATUS] { s with nvs := t.nvs } t) ∧
  (∀ s : State, s.held = false →
    Does .recordRead s fun t => ∀ id, recordId id = true →
      t.flag (divFld id) = (decide ((selectCopy id (s.copies id)).2 = .diverged) ||
        (((selectCopy id (s.copies id)).1.map (·.restored)).getD false)) ∧
      t.flag (lostFld id) = decide ((selectCopy id (s.copies id)).2 = .lost) ∧ t.copies id = s.copies id)

/-- The power-loss store and the log (R370 to R375, R377, R368): the snapshot is written once no commit runs, then it is the
store that PLS_STATUS shows, and it is consumed by an NV commit of its own. Waiting log entries move to the log area in
their order. A scrub counts its corrections; a hold-up measurement gives C_MEAS and the capacitance in use. -/
def Obligations.PowerLossStoreAndLog : Prop :=
  (∀ s : State, s.held = false → s.nvs.plsPhase = .snapped → s.nvs.running = none →
    Does .plsWriteStart s fun t => t = { s with nvs := { s.nvs with plsPhase := .writing } }) ∧
  (∀ (s : State) (x : PlsStore), s.held = false → s.nvs.plsPhase = .writing → s.nvs.snapshot = some x →
    s.plsLatest = none →
    Does .plsDone s fun t =>
      t.nvs.pls[0] = some x ∧ t.nvs.snapshot = none ∧ t.flag F.NVS_IRQ_STATUS_PLS_DONE = true ∧
      t.flag F.NVS_STATUS_PLS_PENDING = !x.consumed ∧ t.get F.NVS_PLS_STATUS_SEQ = x.seq % 2 ^ 28 ∧
      (s.get F.SUP_STATUS_STATE = 3 → t.get F.SUP_STATUS_STATE = 4) ∧
      OnlyEvents [R.SUP_STATUS, R.NVS_STATUS, R.NVS_PLS_STATUS, R.NVS_LOG_HEAD, R.NVS_LOG_TAIL]
        { s with nvs := t.nvs } t) ∧
  (∀ (s : State) (i : Nat) (x : PlsStore), s.held = false → s.plsLatest = some (i, x) → x.consumed = false →
    s.frm.claimStart = false → s.powerFail = false → s.findAct 8 0 = none → s.energyOk (blockTime 64) = true →
    Does .consumedMark s fun t =>
      t.plsLatest = some (i, { x with consumed := true }) ∧ t.flag F.NVS_PLS_STATUS_CONSUMED = true ∧
      t.flag F.NVS_STATUS_PLS_PENDING = false ∧
      OnlyRegs [R.NVS_STATUS, R.NVS_PLS_STATUS, R.NVS_HOLD] { s with nvs := t.nvs } t) ∧
  (∀ s : State, s.held = false → 64 ≤ s.log.buf.length → s.log.area.length + 64 ≤ 1048576 →
    Does (.logChunkWrite 0) s fun t =>
      t.log = { s.log with buf := s.log.buf.drop 64, area := s.log.area ++ s.log.buf.take 64 } ∧
      OnlyRegs [R.NVS_SPARE, R.NVS_LOG_HEAD, R.NVS_LOG_TAIL] { s with log := t.log } t) ∧
  (∀ (k : Nat) (s : State), s.held = false → s.log.buf.length < 64 → Does (.logChunkWrite k) s fun t => t = s) ∧
  (∀ s : State, s.held = false → s.log.area.length + s.log.buf.length ≤ 1048576 →
    Does .logFlushTimer s fun t =>
      t.log = { s.log with buf := [], area := s.log.area ++ s.log.buf } ∧
      OnlyRegs [R.NVS_LOG_HEAD, R.NVS_LOG_TAIL] { s with log := t.log } t) ∧
  (∀ (ce i : Nat) (s : State), s.held = false → s.findAct 5 0 = some i →
    Does (.scrubDone ce []) s fun t =>
      t.get F.NVS_SCRUB_CNT_CE_CNT = satAdd 16 (s.get F.NVS_SCRUB_CNT_CE_CNT) ce ∧
      t.flag F.NVS_IRQ_STATUS_SCRUB_DONE = true ∧ t.slotBusy i = false ∧ t.nvs.recs = s.nvs.recs) ∧
  (∀ (dv1 dv2 us i nf : Nat) (s : State), s.held = false → s.findAct 8 0 = some i → dv1 * us < dv2 * 10000 →
    nf = (convDiv ((us : Int) * 100000000000) (dv2 * 10000 - dv1 * us)).toNat → 100000 ≤ nf → nf ≤ 40000000 →
    Does (.choldMeasureDone dv1 dv2 us) s fun t =>
      t.get F.NVS_CHOLD_STATE = 1 ∧ t.get F.NVS_CHOLD_C_MEAS = (convDiv nf 1000).toNat ∧
      t.nvs = { s.nvs with cUseNf := nf * 9 / 10 } ∧ t.flag F.NVS_IRQ_STATUS_CHOLD_DONE = true ∧
      t.slotBusy i = false ∧ t.frm.claimStart = false ∧
      OnlyEvents [R.NVS_CHOLD, R.FRM_MAINT_SLOTn i, R.FRM_IRQ_STATUS] { s with nvs := t.nvs, frm := t.frm } t)

/-- Replicas (R379 to R382): an own replica is placed by ACCEPT, moves on after a DECLINE or a timeout, is COMPLETE when every
block is acknowledged, and is sent again when its digest differs. A holder accepts an OFFER into a free slot or declines it
with its reason, stages chunks, completes, verifies, serves FETCH and drops its replica on RELEASE or when the owner stays
away. A restore asks every node and takes the best offer, or fails. The order of the candidates is the model's reading (log
entry 42). -/
def Obligations.ReplicasArePlacedHeldAndRestored : Prop :=
  (∀ (daily : Bool) (s : State) (i : Nat), s.held = false → s.findAct 7 0 = some i → s.replicaOn = true →
    (∀ k < 2, s.get (F.NVS_REP_OWNk_STATE k) ≠ 0 ∧
      ∀ b ∈ s.ownBlocks, (b.1, crc32 b.2) ∈ (s.ownRep k).acked) →
    Does (.replicaRefreshRun daily) s fun t =>
      t.nvs.repDirty = false ∧ t.slotBusy i = false ∧
      t.net.rep.length = s.net.rep.length + (if daily then 2 else 0) ∧
      OnlyEvents [R.FRM_MAINT_SLOTn i, R.FRM_IRQ_STATUS] { s with nvs := t.nvs, net := t.net } t) ∧
  (∀ (m : RepMsg) (s : State) (j : Nat), s.held = false → s.nvs.restore = none → s.judgeOffer m = .ok j → j < 3 →
    Does (.replicaOffer m) s fun t =>
      t.heldState j = 1 ∧ t.get (F.NVS_REP_HELDj_OWNER j) = m.owner % 4096 ∧
      (t.heldRep j).serial = rdN m.body 8 8 ∧ (t.heldRep j).version = m.version ∧
      (∃ r : Mbx, t.net.rep = s.net.rep ++ [r] ∧ r.dst = nodeAddr m.src ∧ rdN r.payload 0 1 = 2) ∧
      OnlyRegs [R.NVS_REP_HELDj j, R.NVS_STATUS] { s with nvs := t.nvs, net := t.net } t) ∧
  (∀ (m : RepMsg) (s : State) (c : Nat), s.held = false → s.nvs.restore = none → s.judgeOffer m = .error c →
    Does (.replicaOffer m) s fun t =>
      (∃ r : Mbx, t.net.rep = s.net.rep ++ [r] ∧ r.dst = nodeAddr m.src ∧ rdN r.payload 0 1 = 3 ∧
        rdN r.payload 8 1 = c % 256) ∧ t = { s with net := t.net }) ∧
  (∀ (m : RepMsg) (s : State), s.held = false → m.owner = s.node → s.nvs.restore = none → (s.ownRep 0).offered = true →
    s.candidate 0 (s.ownRep 0).candidate = some m.src →
    Does (.replicaAccept m) s fun t =>
      t.get (F.NVS_REP_OWNk_STATE 0) = 1 ∧ t.get (F.NVS_REP_OWNk_HOLDER 0) = m.src % 4096 ∧
      (t.ownRep 0).offered = false ∧ t.ownRep 1 = s.ownRep 1 ∧
      OnlyRegs [R.NVS_REP_OWNk 0, R.NVS_STATUS] { s with nvs := t.nvs } t) ∧
  (∀ (m : RepMsg) (s : State) (k : Nat), s.held = false → s.repAt m.src = some k → (s.ownRep k).offered = true →
    (∀ p < 8, (s.ownRep k).candidate < p → s.candidate k p = none) →
    Does (.replicaDecline m) s fun t =>
      (t.ownRep k).offered = false ∧ t.flag F.NVS_IRQ_STATUS_REPLICA_UNPLACED = true ∧
      OnlyEvents [] { s with nvs := t.nvs } t) ∧
  (∀ (k : Fin 2) (s : State) (c p node : Nat), s.held = false → (s.ownRep k).offered = true →
    (s.ownRep k).candidate = c → c < p → p < 8 → s.candidate k p = some node →
    (∀ x, c < x → x < p → s.candidate k x = none) →
    Does (.offerTimeout k) s fun t =>
      (t.ownRep k).candidate = p ∧ (t.ownRep k).offered = true ∧
      (∃ r : Mbx, t.net.rep = s.net.rep ++ [r] ∧ r.dst = nodeAddr node ∧ rdN r.payload 0 1 = 1) ∧
      (c < 3 → 4 ≤ p → t.flag F.NVS_IRQ_STATUS_REPLICA_UNPLACED = true)) ∧
  (∀ (m : RepMsg) (s : State) (j : Nat), s.held = false → s.nvs.restore = none → s.heldFor m = some j →
    (s.heldRep j).stageBlock ≠ m.block →
    Does (.replicaData m) s fun t =>
      (t.heldRep j).staging = [(m.chunk, padTo 24 m.body)] ∧ (t.heldRep j).stageBlock = m.block ∧
      (t.heldRep j).blocks = (s.heldRep j).blocks ∧ t.heldState j = 1 ∧
      OnlyRegs [R.NVS_REP_HELDj j] { s with nvs := t.nvs } t) ∧
  (∀ (m : RepMsg) (s : State) (k : Nat), s.held = false → s.repAt m.src = some k → (s.ownRep k).offered = false →
    (s.ownRep k).sent = [(m.block, rdN m.body 0 4)] → (s.ownRep k).acked = [] →
    Does (.replicaBlockAck m) s fun t =>
      t.get (F.NVS_REP_OWNk_STATE k) = 2 ∧ t.get (F.NVS_REP_OWNk_VERSION k) = m.version % 65536 ∧
      (t.ownRep k).acked = [(m.block, rdN m.body 0 4)] ∧
      (∃ r : Mbx, t.net.rep = s.net.rep ++ [r] ∧ r.dst = nodeAddr m.src ∧ rdN r.payload 0 1 = 7) ∧
      OnlyRegs [R.NVS_REP_OWNk k, R.NVS_STATUS] { s with nvs := t.nvs, net := t.net } t) ∧
  (∀ (m : RepMsg) (s : State) (k : Nat), s.held = false → s.repAt m.src = some k →
    Does (.replicaBlockNak m) s fun t =>
      (∀ e, e ∈ (t.ownRep k).acked ↔ e ∈ (s.ownRep k).acked ∧ e.1 ≠ m.block) ∧ t = { s with nvs := t.nvs }) ∧
  (∀ (m : RepMsg) (s : State) (j : Nat), s.held = false → s.nvs.restore = none → s.heldFor m = some j →
    s.heldOf m.owner = [j] →
    Does (.replicaComplete m) s fun t =>
      t.heldState j = 2 ∧ t.get (F.NVS_REP_HELDj_VERSION j) = m.version % 65536 ∧ (t.heldRep j).version = m.version ∧
      OnlyRegs [R.NVS_REP_HELDj j, R.NVS_STATUS] { s with nvs := t.nvs } t) ∧
  (∀ (m : RepMsg) (s : State) (j : Nat), s.held = false → s.heldFor m = some j →
    Does (.replicaVerify m) s fun t =>
      (∃ r : Mbx, t.net.rep = s.net.rep ++ [r] ∧ r.dst = nodeAddr m.src ∧ rdN r.payload 0 1 = 9 ∧
        slice r.payload 8 24 = padTo 24 ((blocksDigest (s.heldRep j).blocks).take 24)) ∧ t = { s with net := t.net }) ∧
  (∀ (m : RepMsg) (s : State) (k : Nat), s.held = false → s.repAt m.src = some k →
    m.body.take 24 ≠ (blocksDigest s.ownBlocks).take 24 →
    Does (.replicaVerifyAck m) s fun t =>
      (t.ownRep k).acked = [] ∧ t.get (F.NVS_REP_OWNk_STATE k) = 3 ∧
      OnlyRegs [R.NVS_REP_OWNk k] { s with nvs := t.nvs } t) ∧
  (∀ (m : RepMsg) (s : State) (j : Nat), s.held = false → m.src = m.owner → s.heldOf m.owner = [j] →
    Does (.replicaRelease m) s fun t =>
      t.heldState j = 0 ∧ t.heldRep j = freeHeld ∧ t.flag F.NVS_IRQ_STATUS_REPLICA_DROPPED = true ∧
      OnlyEvents [R.NVS_REP_HELDj j, R.NVS_STATUS] { s with nvs := t.nvs } t) ∧
  (∀ (m : RepMsg) (s : State) (j : Nat), s.held = false → s.heldOf m.owner = [j] → s.heldState j = 2 →
    s.replicaOn = true →
    Does (.replicaFetch m) s fun t =>
      (∃ r : Mbx, t.net.rep = s.net.rep ++ [r] ∧ r.dst = nodeAddr m.src ∧ rdN r.payload 0 1 = 1) ∧
      t = { s with net := t.net }) ∧
  (∀ (j : Fin 3) (s : State), s.held = false → s.heldState j ≠ 0 →
    (∀ e ∈ s.net.nodes, e.2 ≠ s.get (F.NVS_REP_HELDj_OWNER j)) →
    Does (.replicaKeepExpiry j) s fun t =>
      t.heldState j = 0 ∧ t.heldRep j = freeHeld ∧ t.flag F.NVS_IRQ_STATUS_REPLICA_DROPPED = true ∧
      OnlyEvents [R.NVS_REP_HELDj j, R.NVS_STATUS] { s with nvs := t.nvs } t) ∧
  (∀ (p : Path) (id : Byte) (s : State), s.held = false → s.anyArmed = false → s.replicaOn = true →
    s.nvs.restore = none →
    Does (.restore p id) s fun t =>
      t.rd R.NVS_RESULT = 0x500 ∧ t.flag F.NVS_STATUS_RESTORING = true ∧ t.get F.NVS_REP_STATUS_STATE = 1 ∧
      t.nvs.restore.isSome = true ∧
      (∃ r : Mbx, t.net.rep = s.net.rep ++ [r] ∧ r.dst = everyAddr ∧ rdN r.payload 0 1 = 0x0B) ∧
      OnlyRegs [R.NVS_RESULT, R.NVS_STATUS, R.NVS_REP_STATUS] { s with nvs := t.nvs, net := t.net } t) ∧
  (∀ (p : Path) (id : Byte) (s : State), s.held = false → s.anyArmed = true →
    Does (.restore p id) s fun t => t.rd R.NVS_RESULT = 0x505 ∧ OnlyRegs [R.NVS_RESULT] s t) ∧
  (∀ s : State, s.held = false → s.flag F.NVS_CFG_AUTO_RESTORE = true → s.flag F.CFG_STATUS_BANK0_VALID = false →
    s.flag F.CFG_STATUS_BANK1_VALID = false → s.numbered = true → s.replicaOn = true → s.nvs.restore = none →
    Does .blankRestoreStart s fun t =>
      t.flag F.NVS_STATUS_RESTORING = true ∧ t.get F.NVS_REP_STATUS_STATE = 1 ∧
      (∃ r : Mbx, t.net.rep = s.net.rep ++ [r] ∧ r.dst = everyAddr ∧ rdN r.payload 0 1 = 0x0B) ∧
      OnlyRegs [R.NVS_STATUS, R.NVS_REP_STATUS] { s with nvs := t.nvs, net := t.net } t) ∧
  (∀ (s : State) (r : Restore) (o : Nat × Nat × Nat), s.held = false → s.get F.NVS_REP_STATUS_STATE = 1 →
    s.nvs.restore = some r → bestOffer r.offers = some o →
    Does .restoreOfferWindow s fun t =>
      t.get F.NVS_REP_STATUS_STATE = 2 ∧ t.get F.NVS_REP_STATUS_SOURCE = o.1 % 4096 ∧
      (t.nvs.restore.bind (·.source)) = some o.1 ∧
      (∃ m : Mbx, t.net.rep = s.net.rep ++ [m] ∧ m.dst = nodeAddr o.1 ∧ rdN m.payload 0 1 = 2) ∧
      OnlyRegs [R.NVS_REP_STATUS] { s with nvs := t.nvs, net := t.net } t) ∧
  (∀ (s : State) (r : Restore), s.held = false → s.get F.NVS_REP_STATUS_STATE = 1 → s.get F.NVS_REP_STATUS_CODE = 0 →
    s.nvs.restore = some r → r.offers = [] →
    Does .restoreOfferWindow s fun t =>
      t.get F.NVS_REP_STATUS_STATE = 5 ∧ t.get F.NVS_REP_STATUS_CODE = 0xE1 ∧ t.flag F.NVS_STATUS_RESTORING = false ∧
      t.nvs.restore = none ∧ t.flag F.NVS_IRQ_STATUS_RESTORE_FAILED = true ∧
      OnlyEvents [R.NVS_STATUS, R.NVS_REP_STATUS] { s with nvs := t.nvs } t)

/-- R376: a SEQ written to NVS_LOG_SEL shows the entry that is held in MRAM or in the buffer, word by word, with FOUND; for one
that is not held, or whose CRC fails, FOUND and the words read 0. -/
def Obligations.SelectedLogEntriesAreShown : Prop :=
  (∀ (p : Path) (w : Word) (s : State) (e : LogEntry), s.held = false →
    (s.log.area ++ s.log.buf).find? (fun e => decide (e.seq = w.toNat) && !s.log.badSeqs.contains e.seq) = some e →
    Does (.logSelect p w) s fun t =>
      t.flag F.NVS_LOG_LOST_FOUND = true ∧ t.rd R.NVS_LOG_SEL = w ∧
      (∀ i < 8, t.rd (R.NVS_LOG_ENTRYw i) = BitVec.ofNat 32 (rdN e.bytes (4 * i) 4)) ∧
      OnlyRegs ([R.NVS_LOG_SEL, R.NVS_LOG_LOST] ++ (List.range 8).map R.NVS_LOG_ENTRYw) s t) ∧
  (∀ (p : Path) (w : Word) (s : State), s.held = false →
    (∀ e ∈ s.log.area ++ s.log.buf, e.seq = w.toNat → e.seq ∈ s.log.badSeqs) →
    Does (.logSelect p w) s fun t =>
      t.flag F.NVS_LOG_LOST_FOUND = false ∧ (∀ i < 8, t.rd (R.NVS_LOG_ENTRYw i) = 0))

/-- Resets and the watchdog (R391 to R393, R395, R401, R403, R404): each cause resets the control die and is recorded; the
release lets it run while the converters do. The watchdog starts once, restarts at a kick and resets at its deadline.
Shedding stops the converters until the bus recovers. A supply reset after VM_FAIL enters the guard short; the guard
domain's own reset clears its latches. Deadlines are judged within a frame (log entries 4 and 43). -/
def Obligations.ResetsAreRecordedAndReleased : Prop :=
  (∀ s : State, s.held = false → Does .rstNReset s fun t => ControlReset 4 true s t) ∧
  (∀ s : State, s.held = false → s.sup.power = true → s.flag F.SUP_STATUS_VM_FAIL = false → s.backup.stopped = false →
    Does .supplyReset s fun t => ControlReset 2 false s t) ∧
  (∀ s : State, s.held = false → s.sup.power = true → s.flag F.SUP_STATUS_VM_FAIL = true →
    s.guard.pfShort.testBit 0 = true → s.flag F.GDR_STATUS_VGRD_OK = true → s.flag F.GDR_STATUS_DRV_EN = true →
    Does .supplyReset s fun t => t.held = true ∧ t.shortLatched 0 = true ∧ t.guard = s.guard) ∧
  (∀ s : State, s.held = false → s.flag F.SUP_WDT_CFG_EN = true →
    s.dueBy (s.sup.wdtAt + s.get F.SUP_WDT_CFG_TIMEOUT * 400000) = true →
    Does .watchdogExpire s fun t => ControlReset 5 true s t) ∧
  (∀ s : State, s.held = false → s.flag F.SUP_WDT_CFG_EN = false → Does .watchdogExpire s fun t => t = s) ∧
  (∀ s : State, s.held = true → s.sup.power = true →
    Does .resetRelease s fun t => t.held = false ∧ t.sup = s.sup ∧ OnlyAsync [] { s with held := false } t) ∧
  (∀ s : State, s.sup.power = false → s.held = true → Does .resetRelease s fun t => t = s) ∧
  (∀ s : State, s.sup.power = false → s.guard.shed = none →
    Does .powerUp s fun t =>
      t.sup = { s.sup with power := true } ∧ t.flag F.CAL_STATUS_SRC = s.backup.stopped ∧
      OnlyRegs [R.CAL_STATUS] { s with sup := t.sup } t) ∧
  (∀ (p : Path) (w : Word) (s : State), s.held = false → s.flag F.SUP_WDT_CFG_EN = false → bitsOf w 0 16 ≠ 0 →
    Does (.watchdogStart p w) s fun t =>
      t.get F.SUP_WDT_CFG_TIMEOUT = bitsOf w 0 16 ∧ t.get F.SUP_WDT_CFG_EN = bitsOf w 31 1 ∧
      t.sup = { s.sup with wdtAt := s.now + s.sub } ∧ OnlyRegs [R.SUP_WDT_CFG] { s with sup := t.sup } t) ∧
  (∀ (p : Path) (w : Word) (s : State), s.held = false → s.flag F.SUP_WDT_CFG_EN = true →
    Does (.watchdogStart p w) s fun t => t = s) ∧
  (∀ (p : Path) (s : State), s.held = false →
    Does (.watchdogKick p 0x5AC3) s fun t => t = { s with sup := { s.sup with wdtAt := s.now + s.sub } }) ∧
  (∀ (p : Path) (w : Word) (s : State), s.held = false → w ≠ 0x5AC3 → Does (.watchdogKick p w) s fun t => t = s) ∧
  (∀ s : State, s.held = false → s.flag F.SUP_PF_CFG_SHED = true → s.get F.SUP_STATUS_STATE = 4 →
    s.flag F.SUP_STATUS_VM_GOOD = false →
    Does .shed s fun t =>
      t.held = true ∧ t.sup.power = false ∧ t.rd R.SUP_RST_CAUSE = 3 ∧
      t.guard.shed = some (100 * s.get F.SUP_VM_CFG_FAIL + 250 * 2 ^ bitsOf (s.rd R.SUP_VM_CFG) 16 2)) ∧
  (∀ s : State, s.guard.shed.isSome = true → s.sup.power = false →
    Does .shedRestart s fun t => t.guard.shed = none ∧ t.sup = { s.sup with power := true }) ∧
  (∀ s : State, s.held = false →
    Does .guardDomainReset s fun t =>
      t.shortLatched 0 = false ∧ t.shortLatched 1 = false ∧ t.flag F.GDR_STATUS_VGRD_OK = false ∧
      t.guard = ⟨0, 0, none⟩ ∧
      KeepsRegs (asyncRegs ++ [R.GDR_STATUS, R.CURn_GUARD 0, R.CURn_GUARD 1, R.CURn_STATUS 0, R.CURn_STATUS 1]) s t) ∧
  (∀ s : State, s.held = false →
    Does .vgrdOk s fun t => t.flag F.GDR_STATUS_VGRD_OK = true ∧ OnlyAsync [R.GDR_STATUS] s t) ∧
  (∀ s : State, s.held = true →
    Does .backupPor s fun t =>
      t.backup.sec = 0 ∧ t.backup.staged = none ∧ t.get F.SUP_RST_CAUSE_CAUSE = 1 ∧ t.rd R.CAL_STATUS = 0 ∧
      t.sup = { s.sup with power := false })

/-- The monitors (R387 to R390, R396, R398, R400, R410, R443): each shows its level and raises its event where it comes to hold.
VM_FAIL takes the device to power-fail handling and drops the commits that have not started, VM_GOOD brings it back; a fall
of VDRV trips every group; the converter comes back only enabled, powered, below 150 C and past its overvoltage stop. The
monitors are events (log entries 4 and 43). -/
def Obligations.SuppliesAreMonitored : Prop :=
  (∀ s : State, s.held = false → s.flag F.SUP_STATUS_VM_GOOD = true →
    Does .vmFail s fun t =>
      t.flag F.SUP_STATUS_VM_GOOD = false ∧ t.flag F.SUP_STATUS_VM_FAIL = true ∧ t.get F.SUP_STATUS_STATE = 3 ∧
      t.flag (evSup 0).fld = true ∧ t.nvs.queue = [] ∧ t.nvs.retry = []) ∧
  (∀ s : State, s.held = false → s.flag F.SUP_STATUS_VM_GOOD = false → 3 ≤ s.get F.SUP_STATUS_STATE → s.sup.reached ≤ 2 →
    Does .vmGood s fun t =>
      t.flag F.SUP_STATUS_VM_GOOD = true ∧ t.flag F.SUP_STATUS_VM_FAIL = false ∧ t.flag (evSup 1).fld = true ∧
      t.get F.SUP_STATUS_STATE = s.sup.reached ∧
      OnlyEvents [R.SUP_STATUS, R.SUP_IRQ_STATUS] { s with nvs := t.nvs } t) ∧
  (∀ (high : Bool) (s : State),
    Does (.vmOv high) s fun t =>
      t.flag F.SUP_STATUS_VM_OV = high ∧
      (high = true → s.flag F.SUP_STATUS_VM_OV = false → s.held = false → t.flag (evSup 2).fld = true) ∧
      OnlyEvents [R.SUP_STATUS, R.SUP_IRQ_STATUS] s t) ∧
  (∀ (high : Bool) (s : State), s.held = false → s.flag F.SUP_STATUS_VDRV_OK = true →
    Does (.vdrvFail high) s fun t =>
      t.flag F.SUP_STATUS_VDRV_OK = false ∧ t.flag F.GDR_STATUS_VDRV_OK = false ∧ t.flag (evSup 3).fld = true ∧
      t.flag F.GDR_STATUS_VDRV_TRIP = true ∧ (∀ n < 8, t.latched n = true) ∧ (high = true → t.sup.ovStop = true) ∧
      OnlyAsync [R.SUP_STATUS, R.GDR_STATUS, R.SUP_IRQ_STATUS, R.GDR_IRQ_STATUS] { s with sup := t.sup } t) ∧
  (∀ s : State, s.held = false → s.flag F.SUP_VDRV_CFG_EN = true → s.sup.power = true →
    s.flag F.SUP_STATUS_TSD = false → s.sup.ovStop = false →
    Does .vdrvReady s fun t =>
      t.flag F.SUP_STATUS_VDRV_OK = true ∧ t.flag F.GDR_STATUS_VDRV_OK = true ∧
      OnlyAsync [R.SUP_STATUS, R.GDR_STATUS] s t) ∧
  (∀ s : State, s.held = false →
    (s.flag F.SUP_VDRV_CFG_EN = false ∨ s.flag F.SUP_STATUS_TSD = true ∨ s.sup.ovStop = true) →
    Does .vdrvReady s fun t => OnlyAsync [] s t) ∧
  (∀ s : State, Does .vdrvOvRestart s fun t => t = { s with sup := { s.sup with ovStop := false } }) ∧
  (∀ (p : Path) (w : Word) (s : State), s.held = false → s.anyArmed = false → codesOk R.SUP_VDRV_CFG w = true →
    Does (.vdrvEnWrite p w) s fun t =>
      t.get F.SUP_VDRV_CFG_EN = bitsOf w 8 1 ∧
      (bitsOf w 8 1 = 0 → t.flag F.SUP_STATUS_VDRV_OK = false) ∧
      (bitsOf w 8 1 = 1 → OnlyAsync [R.SUP_VDRV_CFG] s t)) ∧
  (∀ s : State, s.held = false →
    Does .tsd s fun t =>
      t.flag F.SUP_STATUS_TSD = true ∧ t.flag F.SUP_STATUS_VDRV_OK = false ∧
      (s.flag F.SUP_STATUS_TSD = false → t.flag (evSup 6).fld = true)) ∧
  (∀ s : State, Does .tsdClear s fun t => t.flag F.SUP_STATUS_TSD = false ∧ OnlyRegs [R.SUP_STATUS] s t) ∧
  (∀ (warn : Bool) (s : State), s.held = false →
    Does (.tempWarn warn) s fun t =>
      t.flag F.SUP_STATUS_TEMP_WARN = warn ∧
      (warn = true → s.flag F.SUP_STATUS_TEMP_WARN = false → t.flag (evSup 5).fld = true) ∧
      OnlyEvents [R.SUP_STATUS, R.SUP_IRQ_STATUS] s t) ∧
  (∀ s : State, s.held = false → s.frm.claimStart = false →
    Does .huReady s fun t =>
      t.flag F.SUP_STATUS_HU_READY = true ∧
      (s.flag F.SUP_STATUS_HU_READY = false → t.flag (evSup 4).fld = true) ∧
      OnlyEvents [R.SUP_STATUS, R.SUP_IRQ_STATUS] s t) ∧
  (∀ s : State, s.held = false →
    Does .huReadyClear s fun t => t.flag F.SUP_STATUS_HU_READY = false ∧ OnlyRegs [R.SUP_STATUS] s t) ∧
  (∀ (s : State) (i : Nat), s.held = false → s.frm.claimStart = true → s.runsAny 8 = false → s.powerFail = false →
    s.judgeMaint 8 0 reqDevice = (0, i, 0) →
    Does .choldStartTimeout s fun t => t.slotBusy i = true ∧ t.slotAct i = 8) ∧
  (∀ s : State, s.held = false → s.frm.claimStart = false → Does .choldStartTimeout s fun t => t = s) ∧
  (∀ (low : Bool) (s : State),
    Does (.vbatLow low) s fun t =>
      t.flag F.SUP_STATUS_VBAT_LOW = low ∧
      (low = true → s.flag F.SUP_STATUS_VBAT_LOW = false → s.held = false → t.flag (evSup 7).fld = true) ∧
      OnlyEvents [R.SUP_STATUS, R.SUP_IRQ_STATUS] s t) ∧
  (∀ (ok : Bool) (s : State),
    Does (.vioChange ok) s fun t => t.flag F.SUP_STATUS_VIO_OK = ok ∧ OnlyRegs [R.SUP_STATUS] s t)

/-- The calendar (R404 to R409): it counts seconds modulo 2^48, takes a staged value at the first boundary after two ticks and
the network second where it follows network time; a read of CAL_SEC_LO latches every calendar register; the crystal's stop
and return are shown. A second's start is the event CAL_SECOND (log entries 4 and 44). -/
def Obligations.CalendarRunsAndIsSet : Prop :=
  (∀ (cyc : Nat) (s : State), s.held = false → s.sup.power = true → s.backup.sync = false → s.backup.staged = none →
    Does (.calSecond cyc) s fun t =>
      t.backup.sec = (s.backup.sec + 1) % 2 ^ 48 ∧ t.backup.secAt = s.now + Nat.max s.sub cyc ∧
      t = { s with sub := t.sub, backup := t.backup }) ∧
  (∀ (cyc v : Nat) (s : State), s.held = false → s.sup.power = true → s.backup.sync = false →
    s.backup.staged = some v → s.backup.stagedAt + 24415 ≤ s.now + Nat.max s.sub cyc →
    Does (.calSecond cyc) s fun t =>
      t.backup.sec = v % 2 ^ 48 ∧ t.backup.staged = none ∧ t.flag F.CAL_STATUS_PENDING = false ∧
      t.flag F.CAL_STATUS_TIME_VALID = true ∧ t.flag (evSup 9).fld = true ∧
      OnlyEvents [R.CAL_STATUS, R.SUP_IRQ_STATUS] { s with sub := t.sub, backup := t.backup } t) ∧
  (∀ (cyc v : Nat) (s : State), s.held = false → s.sup.power = true → s.backup.sync = false →
    s.backup.staged = some v → s.now + Nat.max s.sub cyc < s.backup.stagedAt + 24415 →
    Does (.calSecond cyc) s fun t =>
      t.backup.sec = (s.backup.sec + 1) % 2 ^ 48 ∧ t.backup.staged = some v ∧
      t = { s with sub := t.sub, backup := t.backup }) ∧
  (∀ (cyc : Nat) (s : State), s.held = false → s.sup.power = true → s.backup.sync = true → s.calFollows = true →
    Does (.calSecond cyc) s fun t =>
      t.backup.sec = (s.net.timeH / 2 + 500000000) / 1000000000 % 2 ^ 48 ∧ t.backup.sync = false ∧
      t.flag F.CAL_STATUS_TIME_VALID = true ∧ t.flag (evSup 10).fld = true) ∧
  (∀ (cyc : Nat) (s : State), s.sup.power = false → s.backup.stopped = true →
    Does (.calSecond cyc) s fun t => t.backup = s.backup ∧ t.regs = s.regs) ∧
  (∀ (p : Path) (w : Word) (s : State), s.held = false → s.calFollows = false →
    Does (.calSet p w) s fun t =>
      t.rd R.CAL_SET_LO = w ∧ t.flag F.CAL_STATUS_PENDING = true ∧
      t.backup = { s.backup with staged := some (w.toNat + 2 ^ 32 * bitsOf (s.rd R.CAL_SET_HI) 0 16),
                                 stagedAt := s.now + s.sub } ∧
      OnlyRegs [R.CAL_SET_LO, R.CAL_STATUS] { s with backup := t.backup } t) ∧
  (∀ (p : Path) (w : Word) (s : State), s.held = false → s.calFollows = true → Does (.calSet p w) s fun t => t = s) ∧
  (∀ (p : Path) (s : State), s.held = false →
    Does (.calSnapshot p) s fun t =>
      t.rd R.CAL_SEC_LO = BitVec.ofNat 32 s.backup.sec ∧ (t.rd R.CAL_SEC_HI).toNat = s.backup.sec / 2 ^ 32 % 65536 ∧
      (t.rd R.CAL_SUBSEC).toNat = Nat.min 32767 ((s.now + s.sub - s.backup.secAt) * 32768 / 400000000) ∧
      t.rd R.CAL_DATE = BitVec.ofNat 32 (calDate s.backup.sec) ∧
      t.rd R.CAL_TIME = BitVec.ofNat 32 (calClock s.backup.sec) ∧
      OnlyRegs [R.CAL_SEC_LO, R.CAL_SEC_HI, R.CAL_SUBSEC, R.CAL_DATE, R.CAL_TIME] s t) ∧
  (∀ s : State, s.held = false → s.calFollows = true → 1953125 < ((s.calTime : Int) - (s.netTime : Int)).natAbs →
    Does .calNetSync s fun t => t = { s with backup := { s.backup with sync := true } }) ∧
  (∀ s : State, s.held = false → s.calFollows = false → Does .calNetSync s fun t => t = s) ∧
  (∀ s : State, s.held = false → s.sup.power = true →
    Does .oscStop s fun t =>
      t.backup = { s.backup with stopped := true } ∧ t.flag F.CAL_STATUS_OSC_STOP = true ∧
      t.flag F.CAL_STATUS_SRC = true ∧ t.flag (evSup 8).fld = true ∧
      OnlyEvents [R.CAL_STATUS, R.SUP_IRQ_STATUS] { s with backup := t.backup } t) ∧
  (∀ s : State,
    Does .oscResume s fun t =>
      t.backup = { s.backup with stopped := false } ∧ t.flag F.CAL_STATUS_SRC = false ∧
      OnlyRegs [R.CAL_STATUS] { s with backup := t.backup } t)

/-- R394: a write of SUP_RST_CMD with its key and RESET resets the control die with cause SOFTWARE; while an axis is armed, or
with another key or command, it is refused and nothing changes. -/
def Obligations.SoftwareResetNeedsItsKeyAndRest : Prop :=
  (∀ (p : Path) (w : Word) (s : State), s.held = false → bitsOf w 24 8 = 0x96 → bitsOf w 0 8 = 1 → s.anyArmed = false →
    Does (.softwareReset p w) s fun t => ControlReset 6 true s t) ∧
  (∀ (p : Path) (w : Word) (s : State), s.held = false →
    (bitsOf w 24 8 ≠ 0x96 ∨ bitsOf w 0 8 ≠ 1 ∨ s.anyArmed = true) →
    Does (.softwareReset p w) s fun t => t = s ∧ writeReg p R.SUP_RST_CMD w s = (false, s))

/-- Host port H (R411 to R416): a good READ sends its words with their CRC and a status byte that HOST_TSTAT keeps; a good WRITE
executes its words in order, a WRITE_FIXED all of them at one offset; a wrong header or data CRC executes nothing and
counts; an offset that is not aligned is refused; a cut READ has executed what it read. Without VIO, or too soon after a
write, the header is ignored. A transaction is one command (log entry 45). -/
def Obligations.HostTransactionsExecute : Prop :=
  (∀ (a : BitVec 16) (crc : Byte) (cyc : Nat) (s : State), s.held = false → s.flag F.SUP_STATUS_VIO_OK = true →
    s.host.freeAt ≤ s.now + cyc → cyc ≤ s.sub → headerOk 0 a crc = true → a.toNat % 4 = 0 → a.toNat < 0x7800 →
    wideAt a.toNat = none → wideOfHi a.toNat = none → (∀ r, findRow a.toNat = some r → r.rc = 0) →
    Does (.hostRead a 0 crc cyc) s fun t =>
      t.host.words = [s.derived .host a.toNat] ∧
      t.host.out = leBytes 1 (s.get F.HOST_TSTAT_STATUS) ++
        dataOut [s.derived .host a.toNat] (0xA0 + 16 * b2n (!s.intN)) ∧
      t.get F.HOST_TSTAT_STATUS = 0xA0 + 16 * b2n (!s.intN) ∧ t.get F.HOST_TSTAT_EXEC = 1 ∧
      OnlyRegs [R.HOST_TSTAT] { s with host := t.host } t) ∧
  (∀ (a : BitVec 16) (n : Fin 64) (crc : Byte) (cyc : Nat) (s : State), s.held = false →
    s.flag F.SUP_STATUS_VIO_OK = true → s.host.freeAt ≤ s.now + cyc → headerOk n a crc = false →
    Does (.hostRead a n crc cyc) s fun t =>
      t.get F.HOST_ERR_CNT_COUNT = satAdd 16 (s.get F.HOST_ERR_CNT_COUNT) 1 ∧ t.get F.HOST_TSTAT_EXEC = 0 ∧
      OnlyRegs [R.HOST_ERR_CNT, R.HOST_TSTAT] { s with sub := t.sub, host := t.host } t) ∧
  (∀ (a : BitVec 16) (n : Fin 64) (crc : Byte) (cyc : Nat) (s : State), s.held = false →
    s.flag F.SUP_STATUS_VIO_OK = true → s.host.freeAt ≤ s.now + cyc → headerOk n a crc = true → a.toNat % 4 ≠ 0 →
    Does (.hostRead a n crc cyc) s fun t =>
      bitsOf (t.rd R.HOST_TSTAT) 0 1 = 1 ∧ t.get F.HOST_TSTAT_EXEC = 0 ∧
      OnlyRegs [R.HOST_TSTAT] { s with sub := t.sub, host := t.host } t) ∧
  (∀ (a : BitVec 16) (n : Fin 64) (crc : Byte) (cyc : Nat) (s : State), s.held = false →
    s.flag F.SUP_STATUS_VIO_OK = false → Does (.hostRead a n crc cyc) s fun t => t = s) ∧
  (∀ (a : BitVec 16) (n : Fin 64) (crc : Byte) (cyc : Nat) (s : State), s.held = false →
    s.flag F.SUP_STATUS_VIO_OK = true → s.now + cyc < s.host.freeAt →
    Does (.hostRead a n crc cyc) s fun t => OnlyRegs [] { s with sub := t.sub, host := t.host } t) ∧
  (∀ (w : Word) (crcH crcD : Byte) (cyc fin : Nat) (s : State), s.held = false →
    s.flag F.SUP_STATUS_VIO_OK = true → s.host.freeAt ≤ s.now + cyc → headerOk 64 (BitVec.ofNat 16 R.FRM_IRQ_ENABLE) crcH = true →
    crc8 (wordBytes [w]) = crcD.toNat →
    Does (.hostWrite (BitVec.ofNat 16 R.FRM_IRQ_ENABLE) [w] crcH crcD cyc fin) s fun t =>
      t.get F.FRM_IRQ_ENABLE_ENABLE = w.toNat % 256 ∧ t.get F.HOST_TSTAT_EXEC = 1 ∧
      bitsOf (t.rd R.HOST_TSTAT) 0 4 = 0 ∧ t.host.freeAt = s.now + fin + 48 ∧
      OnlyAsync [R.FRM_IRQ_ENABLE, R.HOST_TSTAT] { s with sub := t.sub, host := t.host, net := t.net } t) ∧
  (∀ (a : BitVec 16) (ws : List Word) (crcH crcD : Byte) (cyc fin : Nat) (s : State), s.held = false →
    s.flag F.SUP_STATUS_VIO_OK = true → s.host.freeAt ≤ s.now + cyc → ws ≠ [] → ws.length ≤ 64 →
    headerOk (64 + ws.length - 1) a crcH = true → a.toNat % 4 = 0 → a.toNat + 4 * ws.length ≤ 0x10000 →
    crc8 (wordBytes ws) ≠ crcD.toNat →
    Does (.hostWrite a ws crcH crcD cyc fin) s fun t =>
      t.get F.HOST_ERR_CNT_COUNT = satAdd 16 (s.get F.HOST_ERR_CNT_COUNT) 1 ∧ t.get F.HOST_TSTAT_EXEC = 0 ∧
      bitsOf (t.rd R.HOST_TSTAT) 1 1 = 1 ∧
      OnlyAsync [R.HOST_ERR_CNT, R.HOST_TSTAT] { s with sub := t.sub, host := t.host, net := t.net } t) ∧
  (∀ (v w : Word) (crcH crcD : Byte) (cyc fin : Nat) (s : State), s.held = false →
    s.flag F.SUP_STATUS_VIO_OK = true → s.host.freeAt ≤ s.now + cyc →
    headerOk 129 (BitVec.ofNat 16 R.FRM_IRQ_ENABLE) crcH = true → crc8 (wordBytes [v, w]) = crcD.toNat →
    Does (.hostWriteFixed (BitVec.ofNat 16 R.FRM_IRQ_ENABLE) [v, w] crcH crcD cyc fin) s fun t =>
      t.get F.FRM_IRQ_ENABLE_ENABLE = w.toNat % 256 ∧ t.get F.HOST_TSTAT_EXEC = 2 ∧
      OnlyAsync [R.FRM_IRQ_ENABLE, R.HOST_TSTAT] { s with sub := t.sub, host := t.host, net := t.net } t) ∧
  (∀ (crc : Byte) (cyc : Nat) (s : State), s.held = false → s.flag F.SUP_STATUS_VIO_OK = true →
    s.host.freeAt ≤ s.now + cyc → headerOk 0 (BitVec.ofNat 16 R.NVS_ENERGY_CNT) crc = true →
    Does (.hostAbort 0 (BitVec.ofNat 16 R.NVS_ENERGY_CNT) crc 1 cyc) s fun t =>
      t.get F.NVS_ENERGY_CNT_COUNT = 0 ∧ OnlyRegs [R.NVS_ENERGY_CNT] { s with sub := t.sub, host := t.host } t) ∧
  (∀ (cmd : Byte) (a : BitVec 16) (crc : Byte) (k cyc : Nat) (s : State), s.held = false → 64 ≤ cmd.toNat →
    Does (.hostAbort cmd a crc k cyc) s fun t => OnlyRegs [] { s with sub := t.sub, host := t.host } t)

/-- Debug and test (R420 to R426): HALT, RESUME and STEP ask for their condition, HALT with SAFE also takes every channel to its
safe level, RESET is a reset of the control die; the debug lock shuts them and the debug access. A test mode is entered
where its condition holds and left by NONE; TABLE_WRITE leaves the table to be reloaded. The condition of the debug lock is
read as VM_GOOD = 0 (log entry 46). -/
def Obligations.DebugAndTestModes : Prop :=
  (∀ (p : Path) (s : State), s.held = false → s.dbgLocked = false →
    Does (.dbgHalt p) s fun t =>
      t.dbg = { s.dbg with halt := true, resumeAt := none } ∧ OnlyAsync [] { s with dbg := t.dbg } t) ∧
  (∀ (p : Path) (s : State), s.held = false → s.dbgLocked = true → Does (.dbgHalt p) s fun t => OnlyAsync [] s t) ∧
  (∀ (p : Path) (s : State), s.held = false → s.dbgLocked = false →
    Does (.dbgHaltSafe p) s fun t =>
      t.dbg.halt = true ∧ (∀ n < 8, t.latched n = true) ∧ OnlyAsync [] { s with dbg := t.dbg } t) ∧
  (∀ (p : Path) (s : State), s.held = false → s.dbg.halt = true →
    Does (.dbgResume p) s fun t =>
      t.dbg = { s.dbg with resumeAt := some (s.now + s.sub + 400) } ∧
      (s.testMode = 1 → t.flag F.DBG_STATUS_TABLE_RELOAD = true) ∧ OnlyAsync [R.DBG_STATUS] { s with dbg := t.dbg } t) ∧
  (∀ (p : Path) (s : State), s.held = false → s.dbgLocked = false → s.halted = true → s.anyArmed = false →
    Does (.dbgStep p) s fun t =>
      t.dbg = { s.dbg with step := true } ∧ OnlyAsync [] { s with dbg := t.dbg } t) ∧
  (∀ (p : Path) (s : State), s.held = false → s.anyArmed = true → Does (.dbgStep p) s fun t => OnlyAsync [] s t) ∧
  (∀ (p : Path) (s : State), s.held = false → s.dbgLocked = false → s.anyArmed = false →
    Does (.dbgReset p) s fun t => ControlReset 7 true s t) ∧
  (∀ (p : Path) (w : Word) (s : State), s.held = false → bitsOf w 24 8 = 0xA5 → bitsOf w 0 1 = 1 → s.anyArmed = false →
    s.flag F.SUP_STATUS_VM_GOOD = true →
    Does (.dbgLock p w) s fun t => t.dbgLocked = true ∧ OnlyRegs [R.DBG_STATUS] s t) ∧
  (∀ (p : Path) (w : Word) (s : State), s.held = false → bitsOf w 24 8 ≠ 0xA5 →
    Does (.dbgLock p w) s fun t => t = s) ∧
  (∀ (p : Path) (w : Word) (s : State), s.held = false → bitsOf w 24 8 = 0xC3 → s.dbgLocked = false → s.testMode = 0 →
    s.halted = true → s.anyArmed = false →
    Does (.testTableWrite p w) s fun t => t.testMode = 1 ∧ OnlyRegs [R.TEST_CTRL] s t) ∧
  (∀ (p : Path) (w : Word) (s : State), s.held = false → s.testMode = 0 → s.halted = false →
    Does (.testTableWrite p w) s fun t => t = s) ∧
  (∀ (p : Path) (w : Word) (s : State), s.held = false → bitsOf w 24 8 = 0xC3 → s.dbgLocked = false → s.testMode = 0 →
    s.flag F.GDR_STATUS_DRV_EN = true →
    (∀ n < 8, bitsOf w (16 + n) 1 = 1 → s.armed n = false ∧ s.latched n = false) →
    Does (.testPwmDrive p w) s fun t =>
      (t.testMode = 2 ∨ ∃ n < 8, bitsOf w (16 + n) 1 = 1 ∧ t.latched n = true) ∧
      t.get F.TEST_CTRL_AXES = bitsOf w 16 8 ∧ OnlyAsync [] s t) ∧
  (∀ (p : Path) (w : Word) (s : State), s.held = false → bitsOf w 24 8 = 0xC3 → s.dbgLocked = false → s.testMode = 0 →
    s.anyArmed = false →
    Does (.testMramAccess p w) s fun t => t.testMode = 3 ∧ OnlyRegs [R.TEST_CTRL] s t) ∧
  (∀ (p : Path) (w : Word) (s : State), s.held = false → bitsOf w 24 8 = 0xC3 →
    Does (.testNone p w) s fun t =>
      t.testMode = 0 ∧ (s.testMode = 1 → t.flag F.DBG_STATUS_TABLE_RELOAD = true) ∧
      OnlyAsync [R.TEST_CTRL, R.DBG_STATUS] s t) ∧
  (∀ s : State, s.held = false → s.flag F.DBG_STATUS_TABLE_RELOAD = true →
    Does .tableReloadDone s fun t =>
      t.frm.table = tableOf s.cfg.run s.frm.tasks ∧ t.flag F.DBG_STATUS_TABLE_RELOAD = false ∧
      OnlyRegs [R.DBG_STATUS] { s with frm := t.frm } t)

/-- The test access port (R422 to R424): each instruction selects its data register. EXTEST, CLAMP and HIGHZ halt the device in
its safe state; with an axis armed they act as BYPASS and that is shown. DBG_ACCESS carries an access of host port H out and
shifts the result of the one before; behind the debug lock it acts as BYPASS. That TAP_RESET puts IDCODE in force is
presumed from IEEE 1149.1 (log entry 47). -/
def Obligations.TestAccessPort : Prop :=
  (∀ s : State, s.held = false →
    Does .jtagIdcode s fun t => t.dbg = { s.dbg with tap := 1, dr := 0x1814056F } ∧ OnlyAsync [] { s with dbg := t.dbg } t) ∧
  (∀ s : State, s.held = false →
    Does .tapReset s fun t => t.dbg = { s.dbg with tap := 1, dr := 0x1814056F } ∧ OnlyAsync [] { s with dbg := t.dbg } t) ∧
  (∀ s : State, s.held = false →
    Does .jtagBypass s fun t => t.dbg = { s.dbg with tap := 0xFF, dr := 0 } ∧ OnlyAsync [] { s with dbg := t.dbg } t) ∧
  (∀ (cells : List Bool) (s : State), s.held = false →
    Does (.jtagSamplePreload cells) s fun t =>
      t.dbg.tap = 2 ∧ t.dbg.cells = cells ∧ OnlyAsync [] { s with dbg := t.dbg } t) ∧
  (∀ s : State, s.held = false → s.dbgLocked = false → s.anyArmed = false →
    Does .jtagExtest s fun t =>
      t.dbg.tap = 0 ∧ t.dbg.halt = true ∧ t.dbg.cells = s.dbg.cells ∧ (∀ n < 8, t.latched n = true) ∧
      OnlyAsync [] { s with dbg := t.dbg } t) ∧
  (∀ s : State, s.held = false → s.dbgLocked = false → s.anyArmed = false →
    Does .jtagClamp s fun t =>
      t.dbg.tap = 3 ∧ t.dbg.halt = true ∧ t.dbg.cells = s.dbg.cells ∧ (∀ n < 8, t.latched n = true) ∧
      OnlyAsync [] { s with dbg := t.dbg } t) ∧
  (∀ s : State, s.held = false → s.dbgLocked = false → s.anyArmed = false →
    Does .jtagHighz s fun t =>
      t.dbg.tap = 4 ∧ t.dbg.halt = true ∧ t.dbg.cells = s.dbg.cells ∧ (∀ n < 8, t.latched n = true) ∧
      OnlyAsync [] { s with dbg := t.dbg } t) ∧
  (∀ s : State, s.held = false → s.dbgLocked = false → s.anyArmed = true →
    Does .jtagExtest s fun t =>
      t.dbg = { s.dbg with tap := 0xFF, dr := 0 } ∧ t.flag F.DBG_STATUS_BSCAN_BLOCKED = true ∧
      OnlyAsync [R.DBG_STATUS] { s with dbg := t.dbg } t) ∧
  (∀ (a : BitVec 16) (s : State), s.held = false → s.dbgLocked = false → a.toNat % 4 = 0 → a.toNat < 0x7800 →
    wideAt a.toNat = none → wideOfHi a.toNat = none → (∀ r, findRow a.toNat = some r → r.rc = 0) →
    Does (.dbgAccessRead a) s fun t =>
      t.dbg.result = (0, s.derived .dbg a.toNat) ∧ t.dbg.tap = 0x10 ∧ t.dbg.dr = dbgWord s.dbg.result ∧
      OnlyAsync [] { s with dbg := t.dbg, net := t.net } t) ∧
  (∀ (w : Word) (s : State), s.held = false → s.dbgLocked = false →
    Does (.dbgAccessWrite (BitVec.ofNat 16 R.FRM_IRQ_ENABLE) w) s fun t =>
      t.get F.FRM_IRQ_ENABLE_ENABLE = w.toNat % 256 ∧ t.dbg.result = (0, 0) ∧ t.dbg.dr = dbgWord s.dbg.result ∧
      OnlyAsync [R.FRM_IRQ_ENABLE] { s with dbg := t.dbg, net := t.net } t) ∧
  (∀ s : State, s.held = false → s.dbgLocked = false →
    Does .dbgAccessFetch s fun t =>
      t.dbg.result = s.dbg.result ∧ t.dbg.dr = dbgWord s.dbg.result ∧
      OnlyAsync [] { s with dbg := t.dbg, net := t.net } t) ∧
  (∀ (a : BitVec 16) (w : Word) (s : State), s.held = false → s.dbgLocked = true →
    Does (.dbgAccessWrite a w) s fun t =>
      t.dbg = { s.dbg with tap := 0xFF, dr := 0 } ∧ OnlyAsync [] { s with dbg := t.dbg, net := t.net } t)

/-- The register space (R4, R5, R9 to R12, R439, R440): an RW field takes a written word, an RWL field only while its owner is
disarmed; W1C bits clear where 1 is written; a read clears RC fields; a low word of a wide value commits with the staged
upper word of its path and latches the upper word when read; undefined and unaligned offsets have no effect. A digital ball
shows its level. Staging is empty at first (log entries 3 and 49). -/
def Obligations.RegistersFollowTheirAccessTypes : Prop :=
  (∀ (p : Path) (w : Word) (s : State), s.held = false →
    Does (.registerWrite p (BitVec.ofNat 16 R.FRM_IRQ_ENABLE) w) s fun t =>
      t.get F.FRM_IRQ_ENABLE_ENABLE = w.toNat % 256 ∧ OnlyAsync [R.FRM_IRQ_ENABLE] { s with net := t.net } t) ∧
  (∀ (p : Path) (w : Word) (s : State), s.held = false → s.anyArmed = false → codesOk R.NVS_PLS_CFG w = true →
    Does (.registerWrite p (BitVec.ofNat 16 R.NVS_PLS_CFG) w) s fun t =>
      t.get F.NVS_PLS_CFG_WAIT = bitsOf w 0 7 ∧ OnlyAsync [R.NVS_PLS_CFG] { s with net := t.net } t) ∧
  (∀ (p : Path) (w : Word) (s : State), s.held = false → p ≠ .image → s.anyArmed = true →
    bitsOf w 0 7 ≠ s.get F.NVS_PLS_CFG_WAIT →
    Does (.registerWrite p (BitVec.ofNat 16 R.NVS_PLS_CFG) w) s fun t => OnlyAsync [] { s with net := t.net } t) ∧
  (∀ (p : Path) (a : BitVec 16) (w : Word) (s : State), s.held = false → a.toNat < 0x7800 → findRow a.toNat = none →
    wideAt a.toNat = none → wideOfHi a.toNat = none →
    Does (.registerWrite p a w) s fun t => OnlyAsync [] { s with net := t.net, nvs := t.nvs } t) ∧
  (∀ (p : Path) (a : BitVec 16) (w : Word) (s : State), s.held = false → a.toNat % 4 ≠ 0 →
    Does (.registerWrite p a w) s fun t => OnlyAsync [] { s with net := t.net } t) ∧
  (∀ (p : Path) (w : Word) (s : State), s.held = false →
    Does (.w1cWrite p (BitVec.ofNat 16 R.SUP_IRQ_STATUS) w) s fun t =>
      (∀ k < 11, (t.rd R.SUP_IRQ_STATUS).getLsbD k = ((s.rd R.SUP_IRQ_STATUS).getLsbD k && !w.getLsbD k)) ∧
      OnlyAsync [R.SUP_IRQ_STATUS] { s with net := t.net } t) ∧
  (∀ (p : Path) (s : State), s.held = false →
    Does (.rcRead p (BitVec.ofNat 16 R.NVS_ENERGY_CNT)) s fun t =>
      t.get F.NVS_ENERGY_CNT_COUNT = 0 ∧ OnlyRegs [R.NVS_ENERGY_CNT] s t) ∧
  (∀ (p : Path) (a : BitVec 16) (width : Nat) (sg : Bool) (s : State), s.held = false → a.toNat % 4 = 0 →
    wideAt a.toNat = some (width, sg) → a.toNat ≠ R.CAL_SEC_LO →
    Does (.wideLowRead p a) s fun t =>
      findEntry p (a.toNat + 4) t.snaps = some (upperWord (s.derived p (a.toNat + 4)) width sg) ∧
      t = { s with snaps := t.snaps }) ∧
  (∀ (p : Path) (w hi : Word) (s : State), s.held = false → findEntry p R.NET_TIME_SET_HI s.staged = some hi →
    Does (.wideLowWrite p (BitVec.ofNat 16 R.NET_TIME_SET_LO) w) s fun t =>
      t.wide 64 R.NET_TIME_SET_LO = w.toNat + 2 ^ 32 * hi.toNat ∧ findEntry p R.NET_TIME_SET_HI t.staged = none ∧
      OnlyAsync [R.NET_TIME_SET_LO, R.NET_TIME_SET_HI] { s with staged := t.staged, net := t.net } t) ∧
  (∀ (p : Path) (w : Word) (s : State), s.held = false → findEntry p R.NET_TIME_SET_HI s.staged = none →
    Does (.wideLowWrite p (BitVec.ofNat 16 R.NET_TIME_SET_LO) w) s fun t =>
      t.wide 64 R.NET_TIME_SET_LO = w.toNat + 2 ^ 32 * (s.rd R.NET_TIME_SET_HI).toNat) ∧
  (∀ (ball : Nat) (level : Bool) (s : State), s.held = false → s.scanning = false → 0x200 ≤ ball → ball < 0x258 →
    ball ≠ 0x230 →
    Does (.digitalBallChange ball level) s fun t =>
      SMap.get (fun _ => false) t.balls ball = level ∧
      (∀ b, b ≠ ball → SMap.get (fun _ => false) t.balls b = SMap.get (fun _ => false) s.balls b) ∧
      OnlyAsync [] { s with balls := t.balls } t) ∧
  (∀ (ball : Nat) (level : Bool) (s : State), s.held = false → s.scanning = true →
    Does (.digitalBallChange ball level) s fun t => OnlyAsync [] s t)

/-- R417: whatever its N and address, REREAD sends the data, CRC-8 and status that the last executed READ sent, and reads no
register; before any READ it sends one word of 0. -/
def Obligations.RereadRepeatsTheLastRead : Prop :=
  (∀ (a b : BitVec 16) (n m : Fin 64) (crc crc2 : Byte) (cyc cyc2 : Nat) (s t : State), s.held = false →
    s.flag F.SUP_STATUS_VIO_OK = true → s.host.freeAt ≤ s.now + cyc → headerOk n a crc = true → a.toNat % 4 = 0 →
    a.toNat + 4 * (n.val + 1) ≤ 0x10000 → exec (.hostRead a n crc cyc) s = .next t → t.held = false →
    t.flag F.SUP_STATUS_VIO_OK = true → t.host.freeAt ≤ t.now + cyc2 → headerOk (192 + m.val) b crc2 = true →
    Does (.hostReread b m crc2 cyc2) t fun u =>
      u.host.out = leBytes 1 (t.get F.HOST_TSTAT_STATUS) ++ t.host.out.drop 1 ∧
      u.get F.HOST_TSTAT_STATUS = t.get F.HOST_TSTAT_STATUS ∧
      OnlyRegs [R.HOST_TSTAT] { t with sub := u.sub, host := u.host } u) ∧
  (∀ (b : BitVec 16) (m : Fin 64) (crc : Byte) (cyc : Nat) (s : State), s.held = false →
    s.flag F.SUP_STATUS_VIO_OK = true → s.host = State.reset.host → headerOk (192 + m.val) b crc = true →
    Does (.hostReread b m crc cyc) s fun u =>
      u.host.out = leBytes 1 (s.get F.HOST_TSTAT_STATUS) ++ dataOut [0] State.reset.host.readStatus ∧
      OnlyRegs [R.HOST_TSTAT] { s with sub := u.sub, host := u.host } u)
end

