-- ==== Sys2Proof/Laws/Bits.lean ====
section
/-!
SUPPORT. Laws of bit fields and of sparse maps: what a field reads after a write, and that every map operation keeps the
canonical form.
-/
namespace Sys2Proof.Machine

/-! ## Bit fields -/

theorem testBit_bitsOf (w : Word) (lo len i : Nat) :
    (bitsOf w lo len).testBit i = (decide (i < len) && w.getLsbD (lo + i)) := by
  unfold bitsOf
  rw [Nat.testBit_mod_two_pow, ← Nat.shiftRight_eq_div_pow, Nat.testBit_shiftRight]
  rfl

theorem bitsOf_lt (w : Word) (lo len : Nat) : bitsOf w lo len < 2 ^ len := Nat.mod_lt _ (Nat.two_pow_pos _)

theorem getLsbD_maskN (lo len i : Nat) (hi : i < 32) :
    (maskN lo len).getLsbD i = (decide (lo ≤ i) && decide (i < lo + len)) := by
  unfold maskN
  rw [BitVec.getLsbD_ofNat, Nat.testBit_mul_two_pow, Nat.testBit_two_pow_sub_one]
  by_cases h : lo ≤ i <;> simp [h, hi]
  omega

theorem getLsbD_fieldWord (lo len v i : Nat) (hi : i < 32) :
    (BitVec.ofNat 32 (v % 2 ^ len * 2 ^ lo)).getLsbD i =
      (decide (lo ≤ i) && decide (i < lo + len) && v.testBit (i - lo)) := by
  rw [BitVec.getLsbD_ofNat, Nat.testBit_mul_two_pow, Nat.testBit_mod_two_pow]
  have e : decide (i - lo < len) = decide (i < lo + len) ∨ i < lo := by
    by_cases h : lo ≤ i
    · exact Or.inl (by simp only [decide_eq_decide]; omega)
    · exact Or.inr (by omega)
  rcases e with e | e
  · rw [e, decide_eq_true hi, Bool.true_and]
    cases decide (lo ≤ i) <;> rfl
  · simp [Nat.not_le.mpr e]

/-- A bit of a word after a field write: the field takes the value, every other bit stays. -/
theorem getLsbD_setBits (w : Word) (lo len v i : Nat) (hi : i < 32) :
    (setBits w lo len v).getLsbD i =
      if lo ≤ i ∧ i < lo + len then v.testBit (i - lo) else w.getLsbD i := by
  unfold setBits
  rw [BitVec.getLsbD_or, BitVec.getLsbD_and, BitVec.getLsbD_not, getLsbD_maskN _ _ _ hi, getLsbD_fieldWord _ _ _ _ hi]
  by_cases h1 : lo ≤ i <;> by_cases h2 : i < lo + len <;> simp [h1, h2, hi]

/-- A field reads what was written to it. -/
theorem bitsOf_setBits_same (w : Word) (lo len v : Nat) (h : lo + len ≤ 32) :
    bitsOf (setBits w lo len v) lo len = v % 2 ^ len := by
  apply Nat.eq_of_testBit_eq
  intro i
  rw [testBit_bitsOf, Nat.testBit_mod_two_pow]
  by_cases hi : i < len
  · rw [getLsbD_setBits _ _ _ _ _ (by omega)]
    simp [hi]
  · simp [hi]

/-- A write of one field leaves every field that shares no bit with it. -/
theorem bitsOf_setBits_disjoint (w : Word) (lo len v lo' len' : Nat) (h : lo + len ≤ lo' ∨ lo' + len' ≤ lo) :
    bitsOf (setBits w lo len v) lo' len' = bitsOf w lo' len' := by
  apply Nat.eq_of_testBit_eq
  intro i
  rw [testBit_bitsOf, testBit_bitsOf]
  by_cases hi : i < len'
  · by_cases h32 : lo' + i < 32
    · rw [getLsbD_setBits _ _ _ _ _ h32, if_neg (by omega)]
    · rw [BitVec.getLsbD_of_ge _ _ (by omega), BitVec.getLsbD_of_ge _ _ (by omega)]
  · simp [hi]

/-! ## Sparse maps -/

section reads
variable {β : Type} (d : Nat → β)

theorem SMap.get_cons (a j : Nat) (v : β) (m : SMap β) :
    SMap.get d ((a, v) :: m) j = if a = j then v else SMap.get d m j := rfl

theorem SMap.get_insert (m : SMap β) (k j : Nat) (v : β) :
    SMap.get d (SMap.insert k v m) j = if j = k then v else SMap.get d m j := by
  induction m with
  | nil =>
    unfold SMap.insert
    rw [SMap.get_cons]
    by_cases h : j = k
    · rw [if_pos h, if_pos h.symm]
    · rw [if_neg h, if_neg (Ne.symm h)]
  | cons p m ih =>
    obtain ⟨a, w⟩ := p
    unfold SMap.insert
    split
    · next h =>
      subst h
      rw [SMap.get_cons, SMap.get_cons]
      by_cases hj : j = a
      · rw [if_pos hj, if_pos hj.symm]
      · rw [if_neg hj, if_neg (Ne.symm hj), if_neg (Ne.symm hj)]
    · split
      · rw [SMap.get_cons]
        by_cases hj : j = k
        · rw [if_pos hj, if_pos hj.symm]
        · rw [if_neg hj, if_neg (Ne.symm hj)]
      · next h _ =>
        rw [SMap.get_cons, SMap.get_cons, ih]
        by_cases hj : j = k
        · subst hj; rw [if_neg h, if_pos rfl, if_pos rfl]
        · rw [if_neg hj, if_neg hj]

theorem SMap.get_erase (m : SMap β) (k j : Nat) :
    SMap.get d (SMap.erase k m) j = if j = k then d k else SMap.get d m j := by
  induction m with
  | nil =>
    by_cases h : j = k
    · subst h; rw [if_pos rfl]; rfl
    · rw [if_neg h]; rfl
  | cons p m ih =>
    obtain ⟨a, w⟩ := p
    unfold SMap.erase
    split
    · next h =>
      subst h
      rw [ih, SMap.get_cons]
      by_cases hj : j = a
      · rw [if_pos hj, if_pos hj]
      · rw [if_neg hj, if_neg hj, if_neg (Ne.symm hj)]
    · next h =>
      rw [SMap.get_cons, SMap.get_cons, ih]
      by_cases hj : j = k
      · subst hj; rw [if_neg h, if_pos rfl, if_pos rfl]
      · rw [if_neg hj, if_neg hj]

/-- Keys that rise from `k` on. -/
def SMap.above (k : Nat) : SMap β → Bool
  | [] => true
  | (b, _) :: _ => decide (k < b)

theorem SMap.above_mono {j k : Nat} (m : SMap β) (h : j ≤ k) (hm : SMap.above k m = true) : SMap.above j m = true := by
  cases m with
  | nil => rfl
  | cons p m => simp [SMap.above] at *; omega

theorem SMap.above_insert {j : Nat} (m : SMap β) (k : Nat) (v : β) (hj : j < k) (hm : SMap.above j m = true) :
    SMap.above j (SMap.insert k v m) = true := by
  cases m with
  | nil => simpa [SMap.insert, SMap.above]
  | cons p m =>
    obtain ⟨a, w⟩ := p
    unfold SMap.insert
    split
    · simpa [SMap.above]
    · split
      · simpa [SMap.above]
      · simpa [SMap.above] using hm
end reads

section maps
variable {β : Type} [DecidableEq β] (d : Nat → β)

/-- A map reads what was written at a key, and as before at every other key. -/
theorem SMap.get_set (m : SMap β) (k j : Nat) (v : β) :
    SMap.get d (SMap.set d m k v) j = if j = k then v else SMap.get d m j := by
  unfold SMap.set
  split
  · next h => rw [SMap.get_erase, h]
  · rw [SMap.get_insert]

theorem SMap.get_set_same (m : SMap β) (k : Nat) (v : β) : SMap.get d (SMap.set d m k v) k = v := by
  rw [SMap.get_set, if_pos rfl]

theorem SMap.get_set_other (m : SMap β) (k j : Nat) (v : β) (h : j ≠ k) :
    SMap.get d (SMap.set d m k v) j = SMap.get d m j := by
  rw [SMap.get_set, if_neg h]

theorem SMap.wf_cons (a : Nat) (v : β) (m : SMap β) :
    SMap.wf d ((a, v) :: m) = true ↔ v ≠ d a ∧ SMap.above a m = true ∧ SMap.wf d m = true := by
  cases m <;> simp [SMap.wf, SMap.above, and_assoc]

theorem SMap.wf_insert (m : SMap β) (k : Nat) (v : β) (hv : v ≠ d k) (hm : SMap.wf d m = true) :
    SMap.wf d (SMap.insert k v m) = true := by
  induction m with
  | nil => simp [SMap.insert, SMap.wf, hv]
  | cons p m ih =>
    obtain ⟨a, w⟩ := p
    have h := (SMap.wf_cons d a w m).mp hm
    unfold SMap.insert
    split
    · next e => subst e; exact (SMap.wf_cons d _ _ _).mpr ⟨hv, h.2⟩
    · split
      · next e => exact (SMap.wf_cons d _ _ _).mpr ⟨hv, by simpa [SMap.above] using e, hm⟩
      · exact (SMap.wf_cons d _ _ _).mpr ⟨h.1, SMap.above_insert m k v (by omega) h.2.1, ih h.2.2⟩

theorem SMap.above_erase {j : Nat} (m : SMap β) (k : Nat) (hm : SMap.wf d m = true) (h : SMap.above j m = true) :
    SMap.above j (SMap.erase k m) = true := by
  induction m with
  | nil => rfl
  | cons p m ih =>
    obtain ⟨a, w⟩ := p
    have hw := (SMap.wf_cons d a w m).mp hm
    have ha : j < a := by simpa [SMap.above] using h
    unfold SMap.erase
    split
    · exact ih hw.2.2 (SMap.above_mono m (by omega) hw.2.1)
    · simpa [SMap.above] using ha

theorem SMap.wf_erase (m : SMap β) (k : Nat) (hm : SMap.wf d m = true) : SMap.wf d (SMap.erase k m) = true := by
  induction m with
  | nil => rfl
  | cons p m ih =>
    obtain ⟨a, w⟩ := p
    have h := (SMap.wf_cons d a w m).mp hm
    unfold SMap.erase
    split
    · exact ih h.2.2
    · exact (SMap.wf_cons d _ _ _).mpr ⟨h.1, SMap.above_erase d m k h.2.2 h.2.1, ih h.2.2⟩

/-- A write keeps the canonical form. -/
theorem SMap.wf_set (m : SMap β) (k : Nat) (v : β) (hm : SMap.wf d m = true) : SMap.wf d (SMap.set d m k v) = true := by
  unfold SMap.set
  split
  · exact SMap.wf_erase d m k hm
  · next h => exact SMap.wf_insert d m k v h hm

/-- Several writes keep the canonical form. -/
theorem SMap.wf_setMany (l : List (Nat × β)) (m : SMap β) (hm : SMap.wf d m = true) :
    SMap.wf d (SMap.setMany d m l) = true := by
  unfold SMap.setMany
  induction l generalizing m with
  | nil => exact hm
  | cons p l ih => exact ih _ (SMap.wf_set d m p.1 p.2 hm)
end maps
end Sys2Proof.Machine
end

