-- ==== Sys2Proof/Laws/Ops.lean ====
section
/-!
SUPPORT. Laws of the register operations and of raising an event: what a write leaves, what an event changes and what
it leaves.
-/
namespace Sys2Proof.Machine

/-! ## Register reads after writes -/

theorem rd_wr (s : State) (a b : Nat) (w : Word) : (s.wr a w).rd b = if b = a then w else s.rd b :=
  SMap.get_set resetWord s.regs a b w

theorem rd_wr_same (s : State) (a : Nat) (w : Word) : (s.wr a w).rd a = w := by rw [rd_wr, if_pos rfl]

theorem rd_wr_other (s : State) (a b : Nat) (w : Word) (h : b ≠ a) : (s.wr a w).rd b = s.rd b := by
  rw [rd_wr, if_neg h]

theorem rd_put (s : State) (f : Fld) (v b : Nat) :
    (s.put f v).rd b = if b = f.addr then setBits (s.rd f.addr) f.lo f.len v else s.rd b := rd_wr _ _ _ _

theorem rd_put_other (s : State) (f : Fld) (v b : Nat) (h : b ≠ f.addr) : (s.put f v).rd b = s.rd b :=
  rd_wr_other _ _ _ _ h

/-- A field reads what was stored in it. -/
theorem get_put_same (s : State) (f : Fld) (v : Nat) (h : f.lo + f.len ≤ 32) : (s.put f v).get f = v % 2 ^ f.len := by
  unfold State.get
  rw [rd_put, if_pos rfl, bitsOf_setBits_same _ _ _ _ h]

/-- A field of another register, or one that shares no bit, is left. -/
theorem get_put_other (s : State) (f g : Fld) (v : Nat)
    (h : g.addr ≠ f.addr ∨ f.lo + f.len ≤ g.lo ∨ g.lo + g.len ≤ f.lo) : (s.put f v).get g = s.get g := by
  unfold State.get
  rw [rd_put]
  by_cases ha : g.addr = f.addr
  · rw [if_pos ha, ha, bitsOf_setBits_disjoint _ _ _ _ _ _ (h.resolve_left (not_not_intro ha))]
  · rw [if_neg ha]

theorem get_wr_other (s : State) (a : Nat) (w : Word) (g : Fld) (h : g.addr ≠ a) : (s.wr a w).get g = s.get g := by
  unfold State.get
  rw [rd_wr_other _ _ _ _ h]

theorem satU_lt (w x : Nat) : satU w x < 2 ^ w := by
  have := Nat.two_pow_pos w
  unfold satU
  split <;> omega

/-- A count field after it counts. -/
theorem get_bump_same (s : State) (f : Fld) (k : Nat) (h : f.lo + f.len ≤ 32) :
    (s.bump f k).get f = satAdd f.len (s.get f) k := by
  unfold State.bump
  rw [get_put_same _ _ _ h]
  exact Nat.mod_eq_of_lt (satU_lt _ _)

theorem get_putB_same (s : State) (f : Fld) (b : Bool) (h : f.lo + f.len ≤ 32) (hl : f.len = 1) :
    (s.putB f b).get f = b2n b := by
  unfold State.putB
  rw [get_put_same _ _ _ h, hl]
  cases b <;> rfl

theorem flag_putB_same (s : State) (f : Fld) (b : Bool) (h : f.lo + f.len ≤ 32) (hl : f.len = 1) :
    (s.putB f b).flag f = b := by
  unfold State.flag
  rw [get_putB_same _ _ _ h hl]
  cases b <;> rfl

theorem flag_put_other (s : State) (f g : Fld) (v : Nat)
    (h : g.addr ≠ f.addr ∨ f.lo + f.len ≤ g.lo ∨ g.lo + g.len ≤ f.lo) : (s.put f v).flag g = s.flag g := by
  unfold State.flag
  rw [get_put_other _ _ _ _ h]

theorem flag_put_same (s : State) (f : Fld) (v : Nat) (h : f.lo + f.len ≤ 32) :
    (s.put f v).flag f = decide (v % 2 ^ f.len = 1) := by
  unfold State.flag
  rw [get_put_same _ _ _ h]

theorem get_congr {s t : State} {f : Fld} (h : t.rd f.addr = s.rd f.addr) : t.get f = s.get f := by
  unfold State.get
  rw [h]

theorem flag_congr {s t : State} {f : Fld} (h : t.rd f.addr = s.rd f.addr) : t.flag f = s.flag f := by
  unfold State.flag
  rw [get_congr h]

/-! ## Which registers a change leaves -/

theorem KeepsRegs.refl (l : List Nat) (s : State) : KeepsRegs l s s := fun _ _ => rfl

theorem KeepsRegs.trans {l : List Nat} {s t u : State} (h : KeepsRegs l s t) (g : KeepsRegs l t u) : KeepsRegs l s u :=
  fun a ha => (g a ha).trans (h a ha)

theorem KeepsRegs.mono {l m : List Nat} {s t : State} (h : KeepsRegs l s t) (hm : ∀ a ∈ l, a ∈ m) : KeepsRegs m s t :=
  fun a ha => h a fun h' => ha (hm a h')

theorem KeepsRegs.of_regs {l : List Nat} {s t : State} (h : t.regs = s.regs) : KeepsRegs l s t := by
  intro a _
  unfold State.rd
  rw [h]

theorem keeps_wr {l : List Nat} (s : State) (a : Nat) (w : Word) (h : a ∈ l) : KeepsRegs l s (s.wr a w) := by
  intro b hb
  exact rd_wr_other _ _ _ _ fun e => hb (e ▸ h)

theorem keeps_put {l : List Nat} (s : State) (f : Fld) (v : Nat) (h : f.addr ∈ l) : KeepsRegs l s (s.put f v) :=
  keeps_wr _ _ _ h

/-- A fold of changes that each leave the registers outside `l` leaves them. -/
theorem keeps_foldl {α : Type} {l : List Nat} (f : State → α → State) (hf : ∀ s x, KeepsRegs l s (f s x)) (xs : List α)
    (s : State) : KeepsRegs l s (xs.foldl f s) := by
  induction xs generalizing s with
  | nil => exact KeepsRegs.refl l s
  | cons x xs ih => exact (hf s x).trans (ih _)

/-! ## Events -/

/-- A log entry changes the log, and of the registers only the count of lost entries. -/
theorem logRaw_eq (s : State) (kind ep bit reg : Nat) (data : Word) :
    s.logRaw kind ep bit reg data =
      { s with regs := (s.logRaw kind ep bit reg data).regs, log := (s.logRaw kind ep bit reg data).log } := by
  unfold State.logRaw
  dsimp only
  split <;> rfl

theorem logRaw_keeps (s : State) (kind ep bit reg : Nat) (data : Word) :
    KeepsRegs [R.NVS_LOG_LOST] s (s.logRaw kind ep bit reg data) := by
  unfold State.logRaw
  dsimp only
  split
  · exact KeepsRegs.of_regs rfl
  · refine (KeepsRegs.of_regs (t := { s with log := _ }) rfl).trans (keeps_put _ _ _ ?_)
    decide

/-- A notice changes the log and the queue, and of the registers only the count of lost messages. -/
theorem notify_eq (s : State) (ep bit reg : Nat) :
    s.notify ep bit reg = { s with regs := (s.notify ep bit reg).regs, log := (s.notify ep bit reg).log } := by
  unfold State.notify
  dsimp only
  split
  · split <;> rfl
  · rfl

theorem notify_keeps (s : State) (ep bit reg : Nat) : KeepsRegs [R.NET_MBX_STATUS] s (s.notify ep bit reg) := by
  unfold State.notify
  dsimp only
  split
  · split
    · exact KeepsRegs.of_regs rfl
    · refine (KeepsRegs.of_regs (t := { s with log := _ }) rfl).trans (keeps_put _ _ _ ?_)
      decide
  · exact KeepsRegs.of_regs rfl

/-! ## Changes of registers and the log -/

theorem OnlyEvents.refl (l : List Nat) (s : State) : OnlyEvents l s s := ⟨rfl, KeepsRegs.refl _ s⟩

theorem OnlyEvents.trans {l : List Nat} {s t u : State} (h : OnlyEvents l s t) (g : OnlyEvents l t u) :
    OnlyEvents l s u := by
  refine ⟨?_, h.2.trans g.2⟩
  have h1 := h.1
  have g1 := g.1
  rw [g1, h1]

theorem OnlyEvents.mono {l m : List Nat} {s t : State} (h : OnlyEvents l s t) (hm : ∀ a ∈ l, a ∈ m) :
    OnlyEvents m s t :=
  ⟨h.1, h.2.mono fun a ha => by
    rcases List.mem_append.mp ha with h' | h'
    · exact List.mem_append_left _ h'
    · exact List.mem_append_right _ (hm a h')⟩

theorem onlyEvents_wr {l : List Nat} (s : State) (a : Nat) (w : Word) (h : a ∈ eventRegs ++ l) :
    OnlyEvents l s (s.wr a w) := ⟨rfl, keeps_wr _ _ _ h⟩

theorem onlyEvents_put {l : List Nat} (s : State) (f : Fld) (v : Nat) (h : f.addr ∈ eventRegs ++ l) :
    OnlyEvents l s (s.put f v) := onlyEvents_wr _ _ _ h

theorem logRaw_only (s : State) (kind ep bit reg : Nat) (data : Word) (l : List Nat) :
    OnlyEvents l s (s.logRaw kind ep bit reg data) :=
  ⟨logRaw_eq .., KeepsRegs.mono (logRaw_keeps s kind ep bit reg data) fun a ha => by
    rw [List.mem_singleton.mp ha]; exact List.mem_append_left _ (by decide)⟩

theorem notify_only (s : State) (ep bit reg : Nat) (l : List Nat) : OnlyEvents l s (s.notify ep bit reg) :=
  ⟨notify_eq .., KeepsRegs.mono (notify_keeps s ep bit reg) fun a ha => by
    rw [List.mem_singleton.mp ha]; exact List.mem_append_left _ (by decide)⟩

/-- What holds once the bit is set, and is kept by a log entry and by a notice, holds after the event. -/
theorem raiseBit_ind (P : State → Prop) (s : State) (e : Ev) (h0 : P (s.put e.fld 1))
    (hl : ∀ u k ep b r d, P u → P (State.logRaw u k ep b r d)) (hn : ∀ u ep b r, P u → P (State.notify u ep b r)) :
    P (s.raiseBit e) := by
  have h2 : ∀ (c : Prop) [Decidable c] (u : State) (d : Word), P u →
      P (if c then u.logRaw 1 e.ep e.bit e.reg d else u) := by
    intro c _ u d hu
    split
    · exact hl _ _ _ _ _ _ hu
    · exact hu
  have h3 : ∀ (c : Prop) [Decidable c] (u : State), P u → P (if c then u.notify e.ep e.bit e.reg else u) := by
    intro c _ u hu
    split
    · exact hn _ _ _ _ hu
    · exact hu
  unfold State.raiseBit
  exact h3 _ _ (h2 _ _ _ h0)

/-- What the two overflow events keep holds after them. -/
theorem overflowEvents_ind (P : State → Prop) (s0 s : State) (h0 : P s)
    (h1 : ∀ u, P u → P (State.raiseBit u evLogLost)) (h2 : ∀ u, P u → P (State.raiseBit u evEvqOvf)) :
    P (State.overflowEvents s0 s) := by
  have k : ∀ (c : Prop) [Decidable c] (u : State) (e : Ev), (∀ u, P u → P (State.raiseBit u e)) → P u →
      P (if c then u.raiseBit e else u) := by
    intro c _ u e he hu
    split
    · exact he _ hu
    · exact hu
  unfold State.overflowEvents
  exact k _ _ _ h2 (k _ _ _ h1 h0)

theorem raiseBit_only (s : State) (e : Ev) (l : List Nat) (h : e.reg ∈ eventRegs ++ l) :
    OnlyEvents l s (s.raiseBit e) :=
  raiseBit_ind (OnlyEvents l s) s e (onlyEvents_put s e.fld 1 h)
    (fun _ _ _ _ _ _ hu => hu.trans (logRaw_only _ _ _ _ _ _ l)) (fun _ _ _ _ hu => hu.trans (notify_only _ _ _ _ l))

theorem overflowEvents_only (s0 s : State) (l : List Nat) : OnlyEvents l s (State.overflowEvents s0 s) :=
  overflowEvents_ind (OnlyEvents l s) s0 s (OnlyEvents.refl l s)
    (fun _ hu => hu.trans (raiseBit_only _ _ l (List.mem_append_left _ (by decide))))
    (fun _ hu => hu.trans (raiseBit_only _ _ l (List.mem_append_left _ (by decide))))

/-- Raising an event changes the log and the queue, its own status register, and the registers that count what was
turned away. -/
theorem raise_only (s : State) (e : Ev) (l : List Nat) (h : e.reg ∈ eventRegs ++ l) : OnlyEvents l s (s.raise e) :=
  (raiseBit_only s e l h).trans (overflowEvents_only _ _ l)

theorem raiseIf_only (s : State) (c : Bool) (e : Ev) (l : List Nat) (h : e.reg ∈ eventRegs ++ l) :
    OnlyEvents l s (s.raiseIf c e) := by
  unfold State.raiseIf
  split
  · exact raise_only s e l h
  · exact OnlyEvents.refl l s

theorem logEntry_only (s : State) (kind ep bit : Nat) (data : Word) (l : List Nat) :
    OnlyEvents l s (s.logEntry kind ep bit data) :=
  (logRaw_only s _ _ _ _ _ l).trans (overflowEvents_only _ _ l)

/-- A field outside the event registers is left by raising an event. -/
theorem raise_get (s : State) (e : Ev) (g : Fld) (h : g.addr ∉ e.reg :: eventRegs) : (s.raise e).get g = s.get g :=
  get_congr ((raise_only s e [e.reg] (by simp)).2 g.addr (by
    intro m
    rcases List.mem_append.mp m with m | m
    · exact h (List.mem_cons_of_mem _ m)
    · exact h (by rw [List.mem_singleton.mp m]; exact List.mem_cons_self ..)))

theorem logEntry_get (s : State) (kind ep bit : Nat) (data : Word) (g : Fld) (h : g.addr ∉ eventRegs) :
    (s.logEntry kind ep bit data).get g = s.get g :=
  get_congr ((logEntry_only s kind ep bit data []).2 g.addr (by simpa using h))

/-- Raising an event leaves everything but the registers and the log. -/
theorem raise_eq (s : State) (e : Ev) :
    s.raise e = { s with regs := (s.raise e).regs, log := (s.raise e).log } :=
  (raise_only s e [e.reg] (by simp)).1

theorem logEntry_eq (s : State) (kind ep bit : Nat) (data : Word) :
    s.logEntry kind ep bit data =
      { s with regs := (s.logEntry kind ep bit data).regs, log := (s.logEntry kind ep bit data).log } :=
  (logEntry_only s kind ep bit data []).1

/-! ## The flag of an event -/

theorem flag_put_one_same (s : State) (f : Fld) (hl : f.len = 1) (h : f.lo < 32) : (s.put f 1).flag f = true := by
  unfold State.flag
  rw [get_put_same s f 1 (by omega), hl]
  rfl

/-- Setting a bit leaves every set bit. -/
theorem flag_put_one (s : State) (f g : Fld) (hf : f.len = 1) (hg : g.len = 1) (h : f.lo < 32)
    (hs : s.flag g = true) : (s.put f 1).flag g = true := by
  by_cases hd : g.addr ≠ f.addr ∨ f.lo + f.len ≤ g.lo ∨ g.lo + g.len ≤ f.lo
  · unfold State.flag at *
    rw [get_put_other s f g 1 hd]
    exact hs
  · have ha : g.addr = f.addr := Classical.not_not.mp fun e => hd (Or.inl e)
    have hl : g.lo = f.lo := by
      have : ¬ (f.lo + f.len ≤ g.lo ∨ g.lo + g.len ≤ f.lo) := fun e => hd (Or.inr e)
      omega
    have e : g = f := by
      cases f; cases g; simp_all
    rw [e]
    exact flag_put_one_same s f hf h

theorem logRaw_flag (u : State) (k ep b r : Nat) (d : Word) (g : Fld) (h : g.addr ≠ R.NVS_LOG_LOST) :
    (u.logRaw k ep b r d).flag g = u.flag g :=
  flag_congr (logRaw_keeps u k ep b r d g.addr fun m => h (List.mem_singleton.mp m))

theorem notify_flag (u : State) (ep b r : Nat) (g : Fld) (h : g.addr ≠ R.NET_MBX_STATUS) :
    (u.notify ep b r).flag g = u.flag g :=
  flag_congr (notify_keeps u ep b r g.addr fun m => h (List.mem_singleton.mp m))

/-- A flag outside the counts of entries turned away, once set, stays set when an event is raised. -/
theorem raiseBit_flag (s : State) (e : Ev) (g : Fld) (hg : g.len = 1) (hb : e.bit < 32)
    (h1 : g.addr ≠ R.NVS_LOG_LOST) (h2 : g.addr ≠ R.NET_MBX_STATUS) (hs : s.flag g = true) :
    (s.raiseBit e).flag g = true :=
  raiseBit_ind (fun u => u.flag g = true) s e (flag_put_one s e.fld g rfl hg hb hs)
    (fun _ _ _ _ _ _ hu => (logRaw_flag _ _ _ _ _ _ g h1).trans hu) (fun _ _ _ _ hu => (notify_flag _ _ _ _ g h2).trans hu)

theorem raiseBit_sets (s : State) (e : Ev) (hb : e.bit < 32) (h1 : e.reg ≠ R.NVS_LOG_LOST)
    (h2 : e.reg ≠ R.NET_MBX_STATUS) : (s.raiseBit e).flag e.fld = true :=
  raiseBit_ind (fun u => u.flag e.fld = true) s e (flag_put_one_same s e.fld rfl hb)
    (fun _ _ _ _ _ _ hu => (logRaw_flag _ _ _ _ _ _ e.fld h1).trans hu)
    (fun _ _ _ _ hu => (notify_flag _ _ _ _ e.fld h2).trans hu)

theorem overflowEvents_flag (s0 s : State) (g : Fld) (hg : g.len = 1) (h1 : g.addr ≠ R.NVS_LOG_LOST)
    (h2 : g.addr ≠ R.NET_MBX_STATUS) (hs : s.flag g = true) : (State.overflowEvents s0 s).flag g = true :=
  overflowEvents_ind (fun u => u.flag g = true) s0 s hs
    (fun u hu => raiseBit_flag u evLogLost g hg (by decide) h1 h2 hu)
    (fun u hu => raiseBit_flag u evEvqOvf g hg (by decide) h1 h2 hu)

/-- Raising an event sets its flag. -/
theorem raise_sets (s : State) (e : Ev) (hb : e.bit < 32) (h1 : e.reg ≠ R.NVS_LOG_LOST)
    (h2 : e.reg ≠ R.NET_MBX_STATUS) : (s.raise e).flag e.fld = true :=
  overflowEvents_flag _ _ e.fld rfl h1 h2 (raiseBit_sets s e hb h1 h2)

/-- Raising an event clears no flag. -/
theorem raise_flag (s : State) (e : Ev) (g : Fld) (hg : g.len = 1) (hb : e.bit < 32) (h1 : g.addr ≠ R.NVS_LOG_LOST)
    (h2 : g.addr ≠ R.NET_MBX_STATUS) (hs : s.flag g = true) : (s.raise e).flag g = true :=
  overflowEvents_flag _ _ g hg h1 h2 (raiseBit_flag s e g hg hb h1 h2 hs)

end Sys2Proof.Machine
end

