-- ==== Sys2Proof/Laws/Settle.lean ====
section
/-!
SUPPORT. Laws of the asynchronous path: what `settle` may change, and that it never leaves both gates of a bridge on.
-/
namespace Sys2Proof.Machine

/-- What every change of a fold keeps holds after the fold. -/
theorem foldl_keeps {α : Type} (P : State → Prop) (f : State → α → State) (xs : List α)
    (hf : ∀ s x, x ∈ xs → P s → P (f s x)) (s : State) (h : P s) : P (xs.foldl f s) := by
  induction xs generalizing s with
  | nil => exact h
  | cons x xs ih =>
    exact ih (fun s y hy => hf s y (List.mem_cons_of_mem _ hy)) _ (hf s x (List.mem_cons_self ..) h)

theorem OnlyAsync.refl (l : List Nat) (s : State) : OnlyAsync l s s := ⟨rfl, KeepsRegs.refl _ s⟩

theorem OnlyAsync.trans {l : List Nat} {s t u : State} (h : OnlyAsync l s t) (g : OnlyAsync l t u) : OnlyAsync l s u := by
  refine ⟨?_, h.2.trans g.2⟩
  have h1 := h.1
  have g1 := g.1
  rw [g1, h1]

theorem OnlyAsync.mono {l m : List Nat} {s t : State} (h : OnlyAsync l s t) (hm : ∀ a ∈ l, a ∈ m) : OnlyAsync m s t :=
  ⟨h.1, h.2.mono fun a ha => by
    rcases List.mem_append.mp ha with h' | h'
    · exact List.mem_append_left _ h'
    · exact List.mem_append_right _ (hm a h')⟩

theorem OnlyEvents.async {l : List Nat} {s t : State} (h : OnlyEvents l s t) : OnlyAsync l s t := by
  refine ⟨?_, h.2.mono fun a ha => ?_⟩
  · rw [h.1]
  · rcases List.mem_append.mp ha with h' | h'
    · exact List.mem_append_left _ (by unfold asyncRegs; simp only [List.append_assoc]; exact List.mem_append_left _ h')
    · exact List.mem_append_right _ h'

theorem onlyAsync_wr {l : List Nat} (s : State) (a : Nat) (w : Word) (h : a ∈ asyncRegs ++ l) :
    OnlyAsync l s (s.wr a w) := ⟨rfl, keeps_wr _ _ _ h⟩

theorem onlyAsync_put {l : List Nat} (s : State) (f : Fld) (v : Nat) (h : f.addr ∈ asyncRegs ++ l) :
    OnlyAsync l s (s.put f v) := onlyAsync_wr _ _ _ h

theorem onlyAsync_raise (s : State) (e : Ev) (l : List Nat) (h : e.reg ∈ asyncRegs ++ l) : OnlyAsync l s (s.raise e) :=
  (OnlyEvents.async (raise_only s e [e.reg] (List.mem_append_right _ (List.mem_singleton.mpr rfl)))).1 |> fun h1 =>
    ⟨h1, (raise_only s e [e.reg] (List.mem_append_right _ (List.mem_singleton.mpr rfl))).2.mono fun a ha => by
      rcases List.mem_append.mp ha with h' | h'
      · exact List.mem_append_left _ (by unfold asyncRegs; simp only [List.append_assoc]; exact List.mem_append_left _ h')
      · rw [List.mem_singleton.mp h']; exact h⟩

theorem onlyAsync_modBr {l : List Nat} (s : State) (k : Nat) (f : Bridge → Bridge) : OnlyAsync l s (s.modBr k f) :=
  ⟨rfl, KeepsRegs.of_regs rfl⟩

theorem onlyAsync_modAx {l : List Nat} (s : State) (n : Nat) (f : Axis → Axis) : OnlyAsync l s (s.modAx n f) :=
  ⟨rfl, KeepsRegs.of_regs rfl⟩

/-! ## Addresses of the asynchronous path -/

theorem mem_async_latch (l : List Nat) : R.PWM_FAULT_LATCH ∈ asyncRegs ++ l := List.mem_append_left _ (by decide)

theorem mem_async_src (l : List Nat) {n : Nat} (h : n < 8) : R.PWM_FAULT_SRCn n ∈ asyncRegs ++ l :=
  List.mem_append_left _ (by
    unfold asyncRegs
    exact List.mem_append_left _ (List.mem_append_left _ (List.mem_append_left _ (List.mem_append_left _
      (List.mem_append_right _ (List.mem_map_of_mem (List.mem_range.mpr h)))))))

theorem mem_async_force (l : List Nat) {k : Nat} (h : k < 32) : R.PWMk_FORCE k ∈ asyncRegs ++ l :=
  List.mem_append_left _ (by
    unfold asyncRegs
    exact List.mem_append_left _ (List.mem_append_left _ (List.mem_append_left _ (List.mem_append_right _
      (List.mem_map_of_mem (List.mem_range.mpr h))))))

theorem mem_async_aux (l : List Nat) {a : Nat} (h : a < 8) : R.PWM_AUXa_STATUS a ∈ asyncRegs ++ l :=
  List.mem_append_left _ (by
    unfold asyncRegs
    exact List.mem_append_left _ (List.mem_append_left _ (List.mem_append_right _
      (List.mem_map_of_mem (List.mem_range.mpr h)))))

theorem mem_async_gdr (l : List Nat) {k : Nat} (h : k < 32) : R.GDRk_STATUS k ∈ asyncRegs ++ l :=
  List.mem_append_left _ (by
    unfold asyncRegs
    exact List.mem_append_left _ (List.mem_append_right _ (List.mem_map_of_mem (List.mem_range.mpr h))))

theorem mem_async_cmp (l : List Nat) {c : Nat} (h : c < 40) : R.CMPc_STATUS c ∈ asyncRegs ++ l :=
  List.mem_append_left _ (by
    unfold asyncRegs
    exact List.mem_append_right _ (List.mem_map_of_mem (List.mem_range.mpr h)))

/-! ## The parts of `settle` -/

theorem setLatch_async (s : State) (n code mask : Nat) (h : n < 8) (l : List Nat) :
    OnlyAsync l s (s.setLatch n code mask) := by
  unfold State.setLatch
  refine OnlyAsync.trans ?_ (onlyAsync_raise _ _ _ (List.mem_append_left _ (show R.PWM_IRQ_STATUS ∈ asyncRegs by decide)))
  refine OnlyAsync.trans ?_ (onlyAsync_modAx _ _ _)
  refine foldl_keeps (OnlyAsync l s) _ _ (fun u j hj hu => hu.trans (onlyAsync_put _ _ _ ?_)) _ ?_
  · exact mem_async_force l (by have := List.mem_range.mp hj; omega)
  · exact ((onlyAsync_put s ⟨R.PWM_FAULT_LATCH, n, 1⟩ 1 (mem_async_latch l)).trans
      (onlyAsync_put _ _ _ (mem_async_src l h))).trans (onlyAsync_put _ _ _ (mem_async_src l h))

theorem faultSource_async (s : State) (n code : Nat) (h : n < 8) (l : List Nat) :
    OnlyAsync l s (s.faultSource n code) := by
  unfold State.faultSource
  split
  · exact onlyAsync_put _ _ _ (mem_async_src l h)
  · exact setLatch_async s n _ _ h l

theorem faultScan_async (s : State) (n : Nat) (h : n < 8) (l : List Nat) : OnlyAsync l s (s.faultScan n) := by
  unfold State.faultScan
  dsimp only
  split
  · exact OnlyAsync.refl l s
  · split
    · exact onlyAsync_put _ _ _ (mem_async_src l h)
    · exact setLatch_async s n _ _ h l

theorem endDrive_async (s : State) (l : List Nat) : OnlyAsync l s s.endDrive := by
  unfold State.endDrive
  split
  · exact onlyAsync_put _ _ _ (List.mem_append_left _ (by decide))
  · exact OnlyAsync.refl l s

theorem redemand_async (s : State) (k : Nat) (l : List Nat) : OnlyAsync l s (s.redemand k) := by
  unfold State.redemand
  dsimp only
  split
  · exact OnlyAsync.refl l s
  · exact onlyAsync_modBr _ _ _

theorem driveGates_async (s0 s : State) (k : Nat) (l : List Nat) : OnlyAsync l s (State.driveGates s0 s k) := by
  unfold State.driveGates
  extract_lets _ _ _ _ _ _ _ b3
  split
  · exact OnlyAsync.refl l s
  · exact onlyAsync_modBr _ _ _

theorem auxEdge_async (s0 s : State) (a : Nat) (h : a < 8) (l : List Nat) : OnlyAsync l s (State.auxEdge s0 s a) := by
  unfold State.auxEdge
  dsimp only
  split
  · exact onlyAsync_put _ _ _ (mem_async_aux l h)
  · exact OnlyAsync.refl l s

theorem vdsQualify_async (s : State) (k : Nat) (h : k < 32) (l : List Nat) : OnlyAsync l s (s.vdsQualify k) := by
  have e : ∀ (c : Prop) [Decidable c] (u : State) (f : Fld), f.addr = R.GDRk_STATUS k → OnlyAsync l s u →
      OnlyAsync l s (if c then u.put f 0 else u) := by
    intro c _ u f hf hu
    split
    · exact hu.trans (onlyAsync_put _ _ _ (hf ▸ mem_async_gdr l h))
    · exact hu
  unfold State.vdsQualify
  exact e _ _ _ rfl (e _ _ _ rfl (OnlyAsync.refl l s))

theorem cmpOut_async (s : State) (c : Nat) (h : c < 40) (l : List Nat) : OnlyAsync l s (s.cmpOut c) := by
  have hs : (F.CMPc_STATUS_OUT c).addr ∈ asyncRegs ++ l := mem_async_cmp l h
  have e1 : ∀ (x : Prop) [Decidable x] (b : Bool), OnlyAsync l s (if x then s else s.putB (F.CMPc_STATUS_BLANKED c) b) := by
    intro x _ b
    split
    · exact OnlyAsync.refl l s
    · exact onlyAsync_put _ _ _ (mem_async_cmp l h)
  have e2 : ∀ (u : State) (b : Bool), OnlyAsync l s u →
      OnlyAsync l s (State.raiseIf ((u.putB (F.CMPc_STATUS_OUT c) b).putB
        ⟨if c < 32 then R.CMP_OUT_LO else R.CMP_OUT_HI, c % 32, 1⟩ b) b (evCmpTrip c)) := by
    intro u b hu
    have h1 := (hu.trans (onlyAsync_put u _ (b2n b) hs)).trans
      (onlyAsync_put (u.putB (F.CMPc_STATUS_OUT c) b) ⟨if c < 32 then R.CMP_OUT_LO else R.CMP_OUT_HI, c % 32, 1⟩ (b2n b)
        (List.mem_append_left _ (by dsimp only; split <;> decide)))
    unfold State.raiseIf
    split
    · exact h1.trans (onlyAsync_raise _ _ _ (List.mem_append_left _ (by unfold evCmpTrip; dsimp only; split <;> decide)))
    · exact h1
  unfold State.cmpOut
  extract_lets blank was iso out s1
  split
  · exact e1 _ _
  · exact e2 s1 out (e1 _ _)

theorem settleOnce_async (s0 s : State) (l : List Nat) : OnlyAsync l s (State.settleOnce s0 s) := by
  unfold State.settleOnce
  extract_lets s1 s2 s3 s4 s5
  have h1 : OnlyAsync l s s1 := (foldl_keeps (OnlyAsync l s) _ _
    (fun u n hn hu => hu.trans (faultScan_async u n (List.mem_range.mp hn) l)) s (OnlyAsync.refl l s)).trans
    (endDrive_async _ l)
  have h2 : OnlyAsync l s s2 := foldl_keeps (OnlyAsync l s) _ _ (fun u k _ hu => hu.trans (redemand_async u k l)) s1 h1
  have h3 : OnlyAsync l s s3 := foldl_keeps (OnlyAsync l s) _ _
    (fun u k _ hu => hu.trans (driveGates_async s0 u k l)) s2 h2
  have h4 : OnlyAsync l s s4 := foldl_keeps (OnlyAsync l s) _ _
    (fun u a ha hu => hu.trans (auxEdge_async s0 u a (List.mem_range.mp ha) l)) s3 h3
  have h5 : OnlyAsync l s s5 := foldl_keeps (OnlyAsync l s) _ _
    (fun u k hk hu => hu.trans (vdsQualify_async u k (List.mem_range.mp hk) l)) s4 h4
  exact foldl_keeps (OnlyAsync l s) _ _ (fun u c hc hu => hu.trans (cmpOut_async u c (List.mem_range.mp hc) l)) s5 h5

/-- Settling changes the bridges, what records a bridge turned off, the log and queue, and the registers of the
asynchronous path: nothing else. -/
theorem settle_async (s0 s : State) (l : List Nat) : OnlyAsync l s (State.settle s0 s) := by
  unfold State.settle
  split
  · exact OnlyAsync.refl l s
  · exact (settleOnce_async s0 s l).trans (settleOnce_async _ _ l)

theorem settleHeld_async (s0 s : State) (l : List Nat) : OnlyAsync l s (State.settleHeld s0 s) := by
  unfold State.settleHeld
  exact foldl_keeps (OnlyAsync l s) _ _ (fun u k _ hu => hu.trans (driveGates_async s0 u k l)) s (OnlyAsync.refl l s)

/-- Settling leaves every register outside the asynchronous path. -/
theorem settle_rd (s0 s : State) (a : Nat) (h : a ∉ asyncRegs) : (State.settle s0 s).rd a = s.rd a :=
  (settle_async s0 s []).2 a (by simpa using h)

end Sys2Proof.Machine
end

