-- ==== Sys2Proof/Laws/Exec.lean ====
section
/-!
SUPPORT. Laws of the shapes of a meaning: what a command answers on a running device and while the control die is held in
reset, and that a command leaves the queue of waiting commands.
-/
namespace Sys2Proof.Machine

@[simp] theorem act_pending (s : State) (f : State → State) : (s.act f).pending = s.pending := rfl

@[simp] theorem act_rd (s : State) (f : State → State) (a : Nat) : (s.act f).rd a = (f s).rd a := rfl

@[simp] theorem act_get (s : State) (f : State → State) (g : Fld) : (s.act f).get g = (f s).get g := rfl

@[simp] theorem act_flag (s : State) (f : State → State) (g : Fld) : (s.act f).flag g = (f s).flag g := rfl

theorem live_running (s : State) (f : State → State) (h : s.held = false) : live s f = .next (s.act f) := by
  unfold live
  rw [h]
  rfl

theorem live_held (s : State) (f : State → State) (h : s.held = true) : live s f = .next s := by
  unfold live
  rw [if_pos h]

/-- A meaning of the shape `live` on a running device. -/
theorem does_live {c : Instr} {s : State} {f : State → State} {P : State → Prop} (hc : exec c s = live s f)
    (h : s.held = false) (hp : P (s.act f)) : Does c s P :=
  ⟨_, hc.trans (live_running s f h), hp⟩

/-- A meaning of the shape `liveA` on a running device. -/
theorem does_liveA {c : Instr} {s : State} {f : State → State} {P : State → Prop} (hc : exec c s = liveA s f)
    (h : s.held = false) (hp : P (s.act fun s => State.settle s (f s))) : Does c s P :=
  ⟨_, hc.trans (live_running s _ h), hp⟩

/-- A meaning of the shape `always`. -/
theorem does_always {c : Instr} {s : State} {f : State → State} {P : State → Prop} (hc : exec c s = always s f)
    (hp : P (s.act f)) : Does c s P :=
  ⟨_, hc, hp⟩

/-- Every command answers a next state, with the waiting commands as they were. -/
theorem exec_answers (c : Instr) (s : State) : ∃ t, exec c s = .next t ∧ t.pending = s.pending := by
  have l : ∀ f : State → State, ∃ t, live s f = .next t ∧ t.pending = s.pending := by
    intro f
    unfold live
    split
    · exact ⟨_, rfl, rfl⟩
    · exact ⟨_, rfl, rfl⟩
  cases c <;> first | exact l _ | exact ⟨_, rfl, rfl⟩

/-- Settling leaves everything but registers, the log, the bridges and the axes. -/
theorem settle_eq (s0 s : State) :
    State.settle s0 s = { s with regs := (State.settle s0 s).regs, log := (State.settle s0 s).log,
                                 bridges := (State.settle s0 s).bridges, axes := (State.settle s0 s).axes } :=
  (settle_async s0 s []).1

theorem settle_frm (s0 s : State) : (State.settle s0 s).frm = s.frm := by rw [settle_eq]

theorem settle_cfg (s0 s : State) : (State.settle s0 s).cfg = s.cfg := by rw [settle_eq]

theorem settle_net (s0 s : State) : (State.settle s0 s).net = s.net := by rw [settle_eq]

theorem settle_nvs (s0 s : State) : (State.settle s0 s).nvs = s.nvs := by rw [settle_eq]

theorem settle_now (s0 s : State) : (State.settle s0 s).now = s.now := by rw [settle_eq]

theorem settle_pmc (s0 s : State) : (State.settle s0 s).pmc = s.pmc := by rw [settle_eq]

theorem settle_dbg (s0 s : State) : (State.settle s0 s).dbg = s.dbg := by rw [settle_eq]

/-- Settling leaves a field of a register outside the asynchronous path. -/
theorem settle_get (s0 s : State) (g : Fld) (h : g.addr ∉ asyncRegs) : (State.settle s0 s).get g = s.get g :=
  get_congr (settle_rd s0 s g.addr h)

end Sys2Proof.Machine
end

