-- ==== Sys2Proof/Laws/Sound.lean ====
section
/-!
SUPPORT. Soundness of a state: its register map is in canonical form and no bridge drives both of its gates or is
    asked to. The
shapes of which the model's functions are made keep it; the files Sound1 to Sound3 say it of every function, in the
    order
of the modules.
-/
namespace Sys2Proof.Machine

/-- No bridge drives both gates, nor is asked to. -/
def Bridge.safe (b : Bridge) : Prop := ¬ (b.hsOn = true ∧ b.lsOn = true) ∧ ¬ (b.h = true ∧ b.l = true)

/-- No bridge of a vector is shorted, nor asked to be. -/
def BridgesSafe (v : Vector Bridge 32) : Prop := ∀ b ∈ v.toList, b.safe

/-- The register map is canonical, and no bridge is shorted, nor asked to be. -/
def Sound (s : State) : Prop := SMap.wf resetWord s.regs = true ∧ BridgesSafe s.bridges

theorem sound_wr (s : State) (a : Nat) (w : Word) (h : Sound s) : Sound (s.wr a w) :=
  ⟨SMap.wf_set _ _ _ _ h.1, h.2⟩

theorem bridgesSafe_set {v : Vector Bridge 32} (h : BridgesSafe v) (k : Nat) (b : Bridge) (hb : b.safe) :
    BridgesSafe (v.setIfInBounds k b) := by
  intro c hc
  rw [Vector.toList_setIfInBounds] at hc
  rcases List.mem_or_eq_of_mem_set hc with h1 | h1
  · exact h c h1
  · exact h1 ▸ hb

theorem safe_rest : restBridge.safe := by unfold Bridge.safe; decide

theorem sound_br_of {s : State} (h : BridgesSafe s.bridges) (k : Nat) : (s.br k).safe := by
  unfold State.br
  by_cases hk : k < 32
  · apply h
    simp [List.getD, hk]
  · simp [List.getD, hk]
    exact safe_rest

theorem sound_br (s : State) (k : Nat) (h : Sound s) : (s.br k).safe := sound_br_of h.2 k

theorem sound_modBr (s : State) (k : Nat) (f : Bridge → Bridge) (hf : ∀ b, b.safe → (f b).safe) (h : Sound s) :
    Sound (s.modBr k f) := ⟨h.1, bridgesSafe_set h.2 k _ (hf _ (sound_br s k h))⟩

theorem sound_ite {c : Prop} [Decidable c] {s t : State} (h : Sound s) (g : Sound t) : Sound (if c then s else t) :=
    by
  split <;> assumption

theorem sound_foldl {α : Type} (f : State → α → State) (l : List α) (s : State) (hf : ∀ s x, Sound s → Sound (f s x))
    (h : Sound s) : Sound (l.foldl f s) := foldl_keeps Sound f l (fun s x _ => hf s x) s h

theorem sound_up {f0 f1 f2 f3 f5 f6 f7 f8 f9 f10 f11 f12 f13 f14 f15 f16 f17 f18 f19 f20 f21 f23 f24 f25 f26 f27 f28
    f29 f30 f31 f32 f33 f34} {s : State} (h : Sound s) :
    Sound (State.mk f0 f1 f2 f3 s.regs f5 f6 f7 f8 f9 f10 f11 f12 f13 f14 f15 f16 f17 f18 f19 f20 f21 s.bridges f23
        f24 f25 f26 f27 f28 f29 f30 f31 f32 f33 f34) := h

theorem Sound.wf {s : State} (h : Sound s) : SMap.wf resetWord s.regs = true := h.1

theorem Sound.brs {s : State} (h : Sound s) : BridgesSafe s.bridges := h.2

theorem sound_ite2 {α : Type} {c : Prop} [Decidable c] {s t : α × State} (h : Sound s.2) (g : Sound t.2) :
    Sound (if c then s else t).2 := by split <;> assumption

theorem sound_ite1 {α : Type} {c : Prop} [Decidable c] {s t : State × α} (h : Sound s.1) (g : Sound t.1) :
    Sound (if c then s else t).1 := by split <;> assumption

theorem sound_when (s : State) (c : Bool) (f : State → State) (h : Sound s) (hf : ∀ s, Sound s → Sound (f s)) :
    Sound (s.when c f) := by
  unfold State.when
  exact sound_ite (hf s h) h

theorem sound_forAll {α : Type} (l : List α) (f : α → State → State) (s : State) (hf : ∀ s x, Sound s → Sound (f x s))
    (h : Sound s) : Sound (State.forAll l f s) := sound_foldl _ l s hf h

theorem sound_eachAxis (s : State) (f : State → Nat → State) (hf : ∀ s x, Sound s → Sound (f s x))
    (h : Sound s) : Sound (s.eachAxis f) := sound_foldl f _ s hf h

theorem sound_onHerd (s : State) (i : Nat) (f : Nat → State → State) (hf : ∀ s x, Sound s → Sound (f x s))
    (h : Sound s) : Sound (s.onHerd i f) :=
  sound_foldl _ _ s (fun s _ hs => sound_foldl _ _ s hf hs) h

theorem safe_off (b : Bridge) (x : Bool) (h : b.safe) : (b.off x).safe := by
  unfold Bridge.off
  have h1 : (if b.wait = some x then ({ b with wait := none } : Bridge) else b).safe := by
    split
    · exact h
    · exact h
  generalize (if b.wait = some x then ({ b with wait := none } : Bridge) else b) = c at *
  dsimp only
  split
  · split
    · exact ⟨fun e => by simp at e, h1.2⟩
    · exact h1
  · split
    · exact ⟨fun e => by simp at e, h1.2⟩
    · exact h1


theorem bridgesSafe_iff (s : State) : BridgesSafe s.bridges ↔ NoShootThrough s := by
  constructor
  · intro h k _
    exact sound_br_of (h := h) k
  · intro h b hb
    obtain ⟨k, hk, e⟩ := List.getElem_of_mem hb
    have hk32 : k < 32 := by simpa using hk
    have e1 : s.br k = b := by
      unfold State.br
      rw [List.getD_eq_getElem?_getD, List.getElem?_eq_getElem hk, e]
      rfl
    exact e1 ▸ h k hk32

/-- Soundness in the terms of the statements. -/
theorem sound_iff (s : State) : Sound s ↔ SMap.wf resetWord s.regs = true ∧ NoShootThrough s :=
  and_congr Iff.rfl (bridgesSafe_iff s)

end Sys2Proof.Machine
end

