-- ==== Sys2Proof/Laws/Sound1.lean ====
section
/-!
SUPPORT. Every function keeps a state sound: the registers, the arbiter, sensing, motion, feedback, the loader, the store, gearing and the asynchronous path.
-/
namespace Sys2Proof.Machine

/-! ## Ops -/

theorem sound_put : ∀ x0 x1 x2, Sound x0 → Sound (State.put x0 x1 x2) := by
  intro x0 x1 x2 h
  unfold State.put
  repeat' (first | with_reducible assumption | with_reducible apply sound_wr)

theorem sound_bump : ∀ x0 x1 x2, Sound x0 → Sound (State.bump x0 x1 x2) := by
  intro x0 x1 x2 h
  unfold State.bump
  repeat' (first | with_reducible assumption | with_reducible apply sound_put)

theorem sound_logRaw : ∀ x0 x1 x2 x3 x4 x5, Sound x0 → Sound (State.logRaw x0 x1 x2 x3 x4 x5) := by
  intro x0 x1 x2 x3 x4 x5 h
  unfold State.logRaw
  repeat' (first
    | with_reducible assumption | with_reducible apply sound_bump
    | (with_reducible apply sound_up; first | with_reducible assumption | with_reducible apply sound_bump | with_reducible apply sound_ite | with_reducible apply sound_foldl | split))

theorem sound_notify : ∀ x0 x1 x2 x3, Sound x0 → Sound (State.notify x0 x1 x2 x3) := by
  intro x0 x1 x2 x3 h
  unfold State.notify
  repeat' (first
    | with_reducible assumption | with_reducible apply sound_bump
    | (with_reducible apply sound_up; first | with_reducible assumption | with_reducible apply sound_bump | with_reducible apply sound_ite | with_reducible apply sound_foldl | split))

theorem sound_raiseBit : ∀ x0 x1, Sound x0 → Sound (State.raiseBit x0 x1) := by
  intro x0 x1 h
  unfold State.raiseBit
  repeat' (first
    | with_reducible assumption | with_reducible apply sound_put | with_reducible apply sound_logRaw
    | with_reducible apply sound_notify | with_reducible apply sound_ite)

theorem sound_overflowEvents : ∀ x0 x1, Sound x1 → Sound (State.overflowEvents x0 x1) := by
  intro x0 x1 h
  unfold State.overflowEvents
  repeat' (first | with_reducible assumption | with_reducible apply sound_raiseBit | with_reducible apply sound_ite)

theorem sound_raise : ∀ x0 x1, Sound x0 → Sound (State.raise x0 x1) := by
  intro x0 x1 h
  unfold State.raise
  repeat' (first
    | with_reducible assumption | with_reducible apply sound_overflowEvents | with_reducible apply sound_raiseBit)

theorem sound_putB : ∀ x0 x1 x2, Sound x0 → Sound (State.putB x0 x1 x2) := by
  intro x0 x1 x2 h
  unfold State.putB
  repeat' (first | with_reducible assumption | with_reducible apply sound_put)

theorem sound_modAx : ∀ x0 x1 x2, Sound x0 → Sound (State.modAx x0 x1 x2) := by
  intro x0 x1 x2 h
  unfold State.modAx
  repeat' (first
    | with_reducible assumption
    | (with_reducible apply sound_up; first | with_reducible assumption | with_reducible apply sound_ite | with_reducible apply sound_foldl | split))

theorem sound_raiseIf : ∀ x0 x1 x2, Sound x0 → Sound (State.raiseIf x0 x1 x2) := by
  intro x0 x1 x2 h
  unfold State.raiseIf
  repeat' (first | with_reducible assumption | with_reducible apply sound_raise | with_reducible apply sound_ite)

theorem sound_putWide : ∀ x0 x1 x2 x3, Sound x0 → Sound (State.putWide x0 x1 x2 x3) := by
  intro x0 x1 x2 x3 h
  unfold State.putWide
  repeat' (first | with_reducible assumption | with_reducible apply sound_wr)

theorem sound_putWideS : ∀ x0 x1 x2 x3, Sound x0 → Sound (State.putWideS x0 x1 x2 x3) := by
  intro x0 x1 x2 x3 h
  unfold State.putWideS
  repeat' (first | with_reducible assumption | with_reducible apply sound_putWide)

theorem sound_logEntry : ∀ x0 x1 x2 x3 x4, Sound x0 → Sound (State.logEntry x0 x1 x2 x3 x4) := by
  intro x0 x1 x2 x3 x4 h
  unfold State.logEntry
  repeat' (first
    | with_reducible assumption | with_reducible apply sound_overflowEvents | with_reducible apply sound_logRaw)

theorem sound_copyPf : ∀ x0 x1, Sound x0 → Sound (State.copyPf x0 x1) := by
  intro x0 x1 h
  unfold State.copyPf
  repeat' (first
    | with_reducible assumption
    | (with_reducible apply sound_up; first | with_reducible assumption | with_reducible apply sound_ite | with_reducible apply sound_foldl | split))

theorem sound_copyDrven : ∀ x0 x1, Sound x0 → Sound (State.copyDrven x0 x1) := by
  intro x0 x1 h
  unfold State.copyDrven
  repeat' (first
    | with_reducible assumption
    | (with_reducible apply sound_up; first | with_reducible assumption | with_reducible apply sound_ite | with_reducible apply sound_foldl | split))

theorem sound_putS : ∀ x0 x1 x2, Sound x0 → Sound (State.putS x0 x1 x2) := by
  intro x0 x1 x2 h
  unfold State.putS
  repeat' (first | with_reducible assumption | with_reducible apply sound_put)

theorem sound_fresh : ∀ x0, Sound x0 → Sound (State.fresh x0).2 := by
  intro x0 h
  unfold State.fresh
  repeat' (first
    | with_reducible assumption
    | (with_reducible apply sound_up; first | with_reducible assumption | with_reducible apply sound_ite | with_reducible apply sound_foldl | split))

theorem sound_at : ∀ x0 x1, Sound x0 → Sound (State.at x0 x1) := by
  intro x0 x1 h
  unfold State.at
  repeat' (first
    | with_reducible assumption
    | (with_reducible apply sound_up; first | with_reducible assumption | with_reducible apply sound_ite | with_reducible apply sound_foldl | split))

/-! ## Access -/

theorem sound_plainWrite : ∀ x0 x1 x2 x3, Sound x3 → Sound (plainWrite x0 x1 x2 x3).2 := by
  intro x0 x1 x2 x3 h
  unfold plainWrite
  repeat' (first | with_reducible assumption | with_reducible apply sound_wr | split)

/-! ## Maint -/

theorem sound_endSlot : ∀ x0 x1 x2, Sound x0 → Sound (State.endSlot x0 x1 x2) := by
  intro x0 x1 x2 h
  unfold State.endSlot
  repeat' (first
    | with_reducible assumption | with_reducible apply sound_wr | with_reducible apply sound_raise
    | (with_reducible apply sound_up; first | with_reducible assumption | with_reducible apply sound_wr | with_reducible apply sound_raise | with_reducible apply sound_ite | with_reducible apply sound_foldl | split))

theorem sound_occupy : ∀ x0 x1 x2 x3 x4, Sound x0 → Sound (State.occupy x0 x1 x2 x3 x4) := by
  intro x0 x1 x2 x3 x4 h
  unfold State.occupy
  repeat' (first
    | with_reducible assumption | with_reducible apply sound_wr
    | (with_reducible apply sound_up; first | with_reducible assumption | with_reducible apply sound_wr | with_reducible apply sound_ite | with_reducible apply sound_foldl | split))

theorem sound_maintRefused : ∀ x0 x1 x2 x3 x4 x5, Sound x0 → Sound (State.maintRefused x0 x1 x2 x3 x4 x5) := by
  intro x0 x1 x2 x3 x4 x5 h
  unfold State.maintRefused
  repeat' (first
    | with_reducible assumption | with_reducible apply sound_logEntry | with_reducible apply sound_raise
    | with_reducible apply sound_bump | with_reducible apply sound_ite)

theorem sound_claim : ∀ x0 x1 x2 x3, Sound x0 → Sound (State.claim x0 x1 x2 x3).2.2 := by
  intro x0 x1 x2 x3 h
  unfold State.claim
  repeat' (first
    | with_reducible assumption | with_reducible apply sound_occupy | with_reducible apply sound_maintRefused
    | (intro y; clear_value y) | split | lift_lets)

theorem sound_keepResult : ∀ x0 x1 x2, Sound x0 → Sound (State.keepResult x0 x1 x2) := by
  intro x0 x1 x2 h
  unfold State.keepResult
  repeat' (first
    | with_reducible assumption
    | (with_reducible apply sound_up; first | with_reducible assumption | with_reducible apply sound_ite | with_reducible apply sound_foldl | split))

theorem sound_endAct : ∀ x0 x1 x2, Sound x0 → Sound (State.endAct x0 x1 x2) := by
  intro x0 x1 x2 h
  unfold State.endAct
  repeat' (first | with_reducible assumption | with_reducible apply sound_endSlot | split)

theorem sound_slotTimes : ∀ x0, Sound x0 → Sound (State.slotTimes x0) := by
  intro x0 h
  unfold State.slotTimes
  repeat' (first
    | with_reducible assumption | with_reducible apply sound_put | with_reducible apply sound_ite
    | with_reducible apply sound_foldl | refine fun (s : State) _ (_ : Sound s) => ?_)

/-! ## Energy -/

theorem sound_reportHold : ∀ x0, Sound x0 → Sound (State.reportHold x0) := by
  intro x0 h
  unfold State.reportHold
  repeat' (first | with_reducible assumption | with_reducible apply sound_put)

theorem sound_checkEnergy : ∀ x0 x1, Sound x0 → Sound (State.checkEnergy x0 x1).2 := by
  intro x0 x1 h
  unfold State.checkEnergy
  repeat' (first
    | with_reducible assumption | with_reducible apply sound_reportHold | with_reducible apply sound_raise
    | with_reducible apply sound_bump | with_reducible apply sound_ite2)

theorem sound_askCommit : ∀ x0 x1 x2, Sound x0 → Sound (State.askCommit x0 x1 x2).2 := by
  intro x0 x1 x2 h
  unfold State.askCommit
  repeat' (first
    | with_reducible assumption | with_reducible apply sound_maintRefused | with_reducible apply sound_checkEnergy
    | split)

/-! ## Csa -/

theorem sound_modCh : ∀ x0 x1 x2, Sound x0 → Sound (State.modCh x0 x1 x2) := by
  intro x0 x1 x2 h
  unfold State.modCh
  repeat' (first
    | with_reducible assumption
    | (with_reducible apply sound_up; first | with_reducible assumption | with_reducible apply sound_ite | with_reducible apply sound_foldl | split))

theorem sound_stageChange : ∀ x0 x1, Sound x0 → Sound (State.stageChange x0 x1) := by
  intro x0 x1 h
  unfold State.stageChange
  repeat' (first | with_reducible assumption | with_reducible apply sound_put | with_reducible apply sound_modCh)

theorem sound_endOffCal : ∀ x0 x1, Sound x0 → Sound (State.endOffCal x0 x1) := by
  intro x0 x1 h
  unfold State.endOffCal
  repeat' (first
    | with_reducible assumption | with_reducible apply sound_modCh | with_reducible apply sound_stageChange
    | with_reducible apply sound_put)

theorem sound_startOffCal : ∀ x0 x1, Sound x0 → Sound (State.startOffCal x0 x1) := by
  intro x0 x1 h
  unfold State.startOffCal
  repeat' (first | with_reducible assumption | with_reducible apply sound_put | with_reducible apply sound_modCh)

theorem sound_csaCfgWrite : ∀ x0 x1 x2 x3, Sound x3 → Sound (csaCfgWrite x0 x1 x2 x3).2 := by
  intro x0 x1 x2 x3 h
  unfold csaCfgWrite
  repeat' (first
    | with_reducible assumption | with_reducible apply sound_put | with_reducible apply sound_stageChange
    | with_reducible apply sound_ite | with_reducible apply sound_ite2)

theorem sound_csaOffsetWrite : ∀ x0 x1 x2, Sound x2 → Sound (csaOffsetWrite x0 x1 x2).2 := by
  intro x0 x1 x2 h
  unfold csaOffsetWrite
  repeat' (first | with_reducible assumption | with_reducible apply sound_put | with_reducible apply sound_ite2)

theorem sound_setEst : ∀ x0 x1 x2, Sound x0 → Sound (State.setEst x0 x1 x2) := by
  intro x0 x1 x2 h
  unfold State.setEst
  repeat' (first | with_reducible assumption | with_reducible apply sound_putS | with_reducible apply sound_modCh)

theorem sound_dcbEstWrite : ∀ x0 x1 x2 x3, Sound x3 → Sound (dcbEstWrite x0 x1 x2 x3).2 := by
  intro x0 x1 x2 x3 h
  unfold dcbEstWrite
  repeat' (first
    | with_reducible assumption | with_reducible apply sound_setEst | with_reducible apply sound_raise
    | with_reducible apply sound_put | with_reducible apply sound_ite | with_reducible apply sound_ite2)

theorem sound_csaSync : ∀ x0 x1, Sound x1 → Sound (csaSync x0 x1) := by
  intro x0 x1 h
  unfold csaSync
  repeat' (first | with_reducible assumption | with_reducible apply sound_put | with_reducible apply sound_ite)

theorem sound_dcbCfgWrite : ∀ x0 x1 x2 x3, Sound x3 → Sound (dcbCfgWrite x0 x1 x2 x3).2 := by
  intro x0 x1 x2 x3 h
  unfold dcbCfgWrite
  repeat' (first | with_reducible assumption | with_reducible apply sound_wr | with_reducible apply sound_ite2)

theorem sound_startSettle : ∀ x0 x1 x2, Sound x0 → Sound (State.startSettle x0 x1 x2) := by
  intro x0 x1 x2 h
  unfold State.startSettle
  repeat' (first
    | with_reducible assumption | with_reducible apply sound_modCh | with_reducible apply sound_put
    | with_reducible apply sound_ite)

theorem sound_applyChange : ∀ x0 x1, Sound x0 → Sound (State.applyChange x0 x1) := by
  intro x0 x1 h
  unfold State.applyChange
  repeat' (first
    | with_reducible assumption | with_reducible apply sound_put | with_reducible apply sound_modCh
    | with_reducible apply sound_startSettle | with_reducible apply sound_ite)

theorem sound_clipped : ∀ x0 x1 x2, Sound x0 → Sound (State.clipped x0 x1 x2) := by
  intro x0 x1 x2 h
  unfold State.clipped
  repeat' (first
    | with_reducible assumption | with_reducible apply sound_raise | with_reducible apply sound_bump
    | with_reducible apply sound_ite)

theorem sound_closeWindow : ∀ x0 x1, Sound x0 → Sound (State.closeWindow x0 x1) := by
  intro x0 x1 h
  unfold State.closeWindow
  repeat' (first | with_reducible assumption | with_reducible apply sound_modCh)

theorem sound_latchAverage : ∀ x0 x1, Sound x0 → Sound (State.latchAverage x0 x1) := by
  intro x0 x1 h
  unfold State.latchAverage
  repeat' (first
    | with_reducible assumption | with_reducible apply sound_put | with_reducible apply sound_wr
    | with_reducible apply sound_modCh)

theorem sound_fineResult : ∀ x0 x1 x2, Sound x2 → Sound (fineResult x0 x1 x2).2 := by
  intro x0 x1 x2 h
  unfold fineResult
  repeat' (first
    | with_reducible assumption | with_reducible apply sound_modCh | with_reducible apply sound_put
    | with_reducible apply sound_wr | with_reducible apply sound_clipped | with_reducible apply sound_raise
    | with_reducible apply sound_ite)

theorem sound_offCalFrame : ∀ x0 x1 x2 x3, Sound x0 → Sound (State.offCalFrame x0 x1 x2 x3) := by
  intro x0 x1 x2 x3 h
  unfold State.offCalFrame
  repeat' (first
    | with_reducible assumption | with_reducible apply sound_modCh | with_reducible apply sound_stageChange
    | with_reducible apply sound_put | split)

theorem sound_updateEst : ∀ x0 x1 x2 x3 x4, Sound x0 → Sound (State.updateEst x0 x1 x2 x3 x4) := by
  intro x0 x1 x2 x3 x4 h
  unfold State.updateEst
  repeat' (first
    | with_reducible assumption | with_reducible apply sound_setEst | with_reducible apply sound_raise
    | with_reducible apply sound_put | with_reducible apply sound_ite)

theorem sound_dcbFrame : ∀ x0 x1 x2, Sound x0 → Sound (State.dcbFrame x0 x1 x2) := by
  intro x0 x1 x2 h
  unfold State.dcbFrame
  repeat' (first
    | with_reducible assumption | with_reducible apply sound_put | with_reducible apply sound_putB
    | with_reducible apply sound_bump | with_reducible apply sound_updateEst
    | (with_reducible apply sound_up; first | with_reducible assumption | with_reducible apply sound_put | with_reducible apply sound_putB | with_reducible apply sound_bump | with_reducible apply sound_updateEst | with_reducible apply sound_ite | with_reducible apply sound_foldl | split))

theorem sound_syncReset : ∀ x0, Sound x0 → Sound (State.syncReset x0) := by
  intro x0 h
  unfold State.syncReset
  repeat' (first
    | with_reducible assumption | with_reducible apply sound_startSettle | with_reducible apply sound_modCh
    | with_reducible apply sound_raise | with_reducible apply sound_put | with_reducible apply sound_foldl
    | refine fun (s : State) _ (_ : Sound s) => ?_)

theorem sound_csaLatch : ∀ x0 x1 x2, Sound x0 → Sound (State.csaLatch x0 x1 x2) := by
  intro x0 x1 x2 h
  unfold State.csaLatch
  extract_lets s0 s1 step r s2 s3 s4
  have h0 : Sound s0 := by
    unfold s0
    repeat' (first
      | with_reducible assumption | with_reducible apply sound_closeWindow | with_reducible apply sound_ite
      | with_reducible apply sound_foldl | refine fun (s : State) _ (_ : Sound s) => ?_)
  have h1 : Sound s1 := sound_foldl _ _ _ (fun s c hs => sound_latchAverage _ _ hs) h0
  have hr : Sound r.2 := by
    have : ∀ (l : List Nat) (a : List FineOut × State), Sound a.2 → Sound (l.foldl step a).2 := by
      intro l
      induction l with
      | nil => intro a ha; exact ha
      | cons c l ih => intro a ha; exact ih _ (sound_offCalFrame _ _ _ _ (sound_fineResult _ _ _ ha))
    exact this _ _ h1
  have h2 : Sound s2 := sound_foldl _ _ _ (fun s n hs => sound_dcbFrame _ _ _ hs) hr
  have h3 : Sound s3 := sound_foldl _ _ _ (fun s n hs => sound_modCh _ _ _ hs) h2
  have h4 : Sound s4 := sound_foldl _ _ _ (fun s n hs => sound_applyChange _ _ hs) h3
  exact sound_ite h3 (sound_ite (sound_syncReset _ h4) h4)

theorem sound_anaChange : ∀ x0 x1, Sound x1 → Sound (anaChange x0 x1) := by
  intro x0 x1 h
  unfold anaChange
  repeat' (first
    | with_reducible assumption | with_reducible apply sound_putB | with_reducible apply sound_put
    | with_reducible apply sound_ite)

theorem sound_cmOutClear : ∀ x0 x1, Sound x1 → Sound (cmOutClear x0 x1) := by
  intro x0 x1 h
  unfold cmOutClear
  repeat' (first | with_reducible assumption | with_reducible apply sound_put | with_reducible apply sound_ite)

theorem sound_cmOutSet : ∀ x0 x1, Sound x1 → Sound (cmOutSet x0 x1) := by
  intro x0 x1 h
  unfold cmOutSet
  repeat' (first
    | with_reducible assumption | with_reducible apply sound_raise | with_reducible apply sound_put
    | with_reducible apply sound_ite)

theorem sound_fastOutput : ∀ x0 x1 x2 x3, Sound x3 → Sound (fastOutput x0 x1 x2 x3).2 := by
  intro x0 x1 x2 x3 h
  unfold fastOutput
  repeat' (first
    | with_reducible assumption | with_reducible apply sound_modCh | with_reducible apply sound_put
    | with_reducible apply sound_wr | with_reducible apply sound_clipped)

theorem sound_offsetCalDone : ∀ x0 x1, Sound x1 → Sound (offsetCalDone x0 x1) := by
  intro x0 x1 h
  unfold offsetCalDone
  repeat' (first
    | with_reducible assumption | with_reducible apply sound_put | with_reducible apply sound_putS
    | with_reducible apply sound_endAct | with_reducible apply sound_applyChange
    | with_reducible apply sound_endOffCal | split)

/-! ## Motion -/

theorem sound_cause : ∀ x0 x1 x2 x3, Sound x0 → Sound (State.cause x0 x1 x2 x3) := by
  intro x0 x1 x2 x3 h
  unfold State.cause
  repeat' (first | with_reducible assumption | with_reducible apply sound_modAx)

theorem sound_motResult : ∀ x0 x1 x2 x3, Sound x0 → Sound (State.motResult x0 x1 x2 x3) := by
  intro x0 x1 x2 x3 h
  unfold State.motResult
  repeat' (first | with_reducible assumption | with_reducible apply sound_raiseIf | with_reducible apply sound_put)

theorem sound_setTarget : ∀ x0 x1 x2, Sound x0 → Sound (State.setTarget x0 x1 x2) := by
  intro x0 x1 x2 h
  unfold State.setTarget
  repeat' (first | with_reducible assumption | with_reducible apply sound_putWideS)

theorem sound_targetWrite : ∀ x0 x1 x2, Sound x2 → Sound (targetWrite x0 x1 x2) := by
  intro x0 x1 x2 h
  unfold targetWrite
  repeat' (first
    | with_reducible assumption | with_reducible apply sound_motResult | with_reducible apply sound_modAx
    | with_reducible apply sound_setTarget | with_reducible apply sound_ite)

theorem sound_vtargetWrite : ∀ x0 x1 x2, Sound x2 → Sound (vtargetWrite x0 x1 x2) := by
  intro x0 x1 x2 h
  unfold vtargetWrite
  repeat' (first
    | with_reducible assumption | with_reducible apply sound_motResult | with_reducible apply sound_modAx
    | with_reducible apply sound_putWideS | with_reducible apply sound_ite)

theorem sound_placeAt : ∀ x0 x1 x2, Sound x0 → Sound (State.placeAt x0 x1 x2) := by
  intro x0 x1 x2 h
  unfold State.placeAt
  repeat' (first
    | with_reducible assumption | with_reducible apply sound_putWideS | with_reducible apply sound_setTarget
    | with_reducible apply sound_modAx)

theorem sound_posWrite : ∀ x0 x1 x2, Sound x2 → Sound (posWrite x0 x1 x2).2 := by
  intro x0 x1 x2 h
  unfold posWrite
  repeat' (first
    | with_reducible assumption | with_reducible apply sound_motResult | with_reducible apply sound_put
    | with_reducible apply sound_placeAt | with_reducible apply sound_ite2)

theorem sound_disengage : ∀ x0 x1, Sound x0 → Sound (State.disengage x0 x1) := by
  intro x0 x1 h
  unfold State.disengage
  repeat' (first | with_reducible assumption | with_reducible apply sound_put)

theorem sound_modeApply : ∀ x0 x1 x2, Sound x2 → Sound (modeApply x0 x1 x2) := by
  intro x0 x1 x2 h
  unfold modeApply
  repeat' (first
    | with_reducible assumption | with_reducible apply sound_motResult | with_reducible apply sound_put
    | with_reducible apply sound_modAx | with_reducible apply sound_disengage | with_reducible apply sound_setTarget
    | with_reducible apply sound_ite)

theorem sound_modeWrite : ∀ x0 x1 x2, Sound x2 → Sound (modeWrite x0 x1 x2).2 := by
  intro x0 x1 x2 h
  unfold modeWrite
  repeat' (first
    | with_reducible assumption | with_reducible apply sound_modeApply | with_reducible apply sound_motResult
    | with_reducible apply sound_ite2 | with_reducible apply sound_when | refine fun (s : State) (_ : Sound s) => ?_)

theorem sound_homeFailed : ∀ x0 x1, Sound x0 → Sound (State.homeFailed x0 x1) := by
  intro x0 x1 h
  unfold State.homeFailed
  repeat' (first
    | with_reducible assumption | with_reducible apply sound_raise | with_reducible apply sound_modAx
    | with_reducible apply sound_ite)

theorem sound_addCauses : ∀ x0 x1 x2, Sound x0 → Sound (State.addCauses x0 x1 x2) := by
  intro x0 x1 x2 h
  unfold State.addCauses
  repeat' (first | with_reducible assumption | with_reducible apply sound_put)

theorem sound_writeCause : ∀ x0 x1 x2 x3, Sound x0 → Sound (State.writeCause x0 x1 x2 x3) := by
  intro x0 x1 x2 x3 h
  unfold State.writeCause
  repeat' (first | with_reducible assumption | with_reducible apply sound_wr)

theorem sound_stopUncertain : ∀ x0 x1, Sound x0 → Sound (State.stopUncertain x0 x1) := by
  intro x0 x1 h
  unfold State.stopUncertain
  repeat' (first | with_reducible assumption | with_reducible apply sound_raise | with_reducible apply sound_put)

theorem sound_disarmStop : ∀ x0 x1 x2 x3 x4, Sound x0 → Sound (State.disarmStop x0 x1 x2 x3 x4) := by
  intro x0 x1 x2 x3 x4 h
  unfold State.disarmStop
  repeat' (first
    | with_reducible assumption | with_reducible apply sound_homeFailed | with_reducible apply sound_put
    | with_reducible apply sound_addCauses | with_reducible apply sound_writeCause | with_reducible apply sound_modAx
    | with_reducible apply sound_stopUncertain | with_reducible apply sound_ite | with_reducible apply sound_when
    | refine fun (s : State) (_ : Sound s) => ?_)

theorem sound_disarmMotion : ∀ x0 x1, Sound x0 → Sound (State.disarmMotion x0 x1) := by
  intro x0 x1 h
  unfold State.disarmMotion
  repeat' (first
    | with_reducible assumption | with_reducible apply sound_modAx | with_reducible apply sound_disengage
    | with_reducible apply sound_put)

theorem sound_stopCmd : ∀ x0 x1 x2, Sound x2 → Sound (stopCmd x0 x1 x2) := by
  intro x0 x1 x2 h
  unfold stopCmd
  repeat' (first
    | with_reducible assumption | with_reducible apply sound_motResult | with_reducible apply sound_cause)

theorem sound_startCmd : ∀ x0 x1 x2, Sound x2 → Sound (startCmd x0 x1 x2) := by
  intro x0 x1 x2 h
  unfold startCmd
  repeat' (first
    | with_reducible assumption | with_reducible apply sound_motResult | with_reducible apply sound_modAx
    | with_reducible apply sound_put | with_reducible apply sound_raise | with_reducible apply sound_ite)

theorem sound_homeCmd : ∀ x0 x1, Sound x1 → Sound (homeCmd x0 x1) := by
  intro x0 x1 h
  unfold homeCmd
  repeat' (first
    | with_reducible assumption | with_reducible apply sound_motResult | with_reducible apply sound_put
    | with_reducible apply sound_modAx | with_reducible apply sound_ite)

theorem sound_clearLimit : ∀ x0 x1, Sound x1 → Sound (clearLimit x0 x1) := by
  intro x0 x1 h
  unfold clearLimit
  repeat' (first | with_reducible assumption | with_reducible apply sound_motResult | with_reducible apply sound_putB)

theorem sound_clearFault : ∀ x0 x1, Sound x1 → Sound (clearFault x0 x1) := by
  intro x0 x1 h
  unfold clearFault
  repeat' (first | with_reducible assumption | with_reducible apply sound_motResult | with_reducible apply sound_put)

theorem sound_clearUncertain : ∀ x0 x1, Sound x1 → Sound (clearUncertain x0 x1) := by
  intro x0 x1 h
  unfold clearUncertain
  repeat' (first | with_reducible assumption | with_reducible apply sound_motResult | with_reducible apply sound_put)

theorem sound_capture : ∀ x0 x1 x2 x3, Sound x0 → Sound (State.capture x0 x1 x2 x3) := by
  intro x0 x1 x2 x3 h
  unfold State.capture
  repeat' (first | with_reducible assumption | with_reducible apply sound_modAx | with_reducible apply sound_putWideS)

theorem sound_causeAll : ∀ x0 x1 x2 x3, Sound x0 → Sound (State.causeAll x0 x1 x2 x3) := by
  intro x0 x1 x2 x3 h
  unfold State.causeAll
  repeat' (first
    | with_reducible assumption | with_reducible apply sound_cause | with_reducible apply sound_ite
    | with_reducible apply sound_foldl | refine fun (s : State) _ (_ : Sound s) => ?_)

theorem sound_publishMot : ∀ x0 x1, Sound x0 → Sound (State.publishMot x0 x1) := by
  intro x0 x1 h
  unfold State.publishMot
  repeat' (first
    | with_reducible assumption | with_reducible apply sound_modAx | with_reducible apply sound_putB
    | with_reducible apply sound_put | with_reducible apply sound_putWideS | with_reducible apply sound_raiseIf)

theorem sound_stopWith : ∀ x0 x1 x2 x3, Sound x0 → Sound (State.stopWith x0 x1 x2 x3) := by
  intro x0 x1 x2 x3 h
  unfold State.stopWith
  repeat' (first
    | with_reducible assumption | with_reducible apply sound_put | with_reducible apply sound_disengage
    | with_reducible apply sound_homeFailed | with_reducible apply sound_modAx | with_reducible apply sound_addCauses
    | with_reducible apply sound_writeCause | with_reducible apply sound_ite | with_reducible apply sound_when
    | refine fun (s : State) (_ : Sound s) => ?_)

theorem sound_homeDone : ∀ x0 x1, Sound x0 → Sound (State.homeDone x0 x1) := by
  intro x0 x1 h
  unfold State.homeDone
  repeat' (first
    | with_reducible assumption | with_reducible apply sound_raise | with_reducible apply sound_put
    | with_reducible apply sound_modAx)

theorem sound_homeLatch : ∀ x0 x1, Sound x0 → Sound (State.homeLatch x0 x1) := by
  intro x0 x1 h
  unfold State.homeLatch
  repeat' (first
    | with_reducible assumption | with_reducible apply sound_modAx | with_reducible apply sound_cause
    | with_reducible apply sound_capture | with_reducible apply sound_putWideS | with_reducible apply sound_homeDone
    | (intro y; refine (fun (hy : Sound y) => ?_) ?_; clear_value y) | (intro y; clear_value y) | split | lift_lets)

theorem sound_sampleInputs : ∀ x0 x1, Sound x0 → Sound (State.sampleInputs x0 x1) := by
  intro x0 x1 h
  unfold State.sampleInputs
  repeat' (first
    | with_reducible assumption | with_reducible apply sound_putB | with_reducible apply sound_foldl
    | refine fun (s : State) _ (_ : Sound s) => ?_)

theorem sound_limitTrip : ∀ x0 x1 x2, Sound x0 → Sound (State.limitTrip x0 x1 x2) := by
  intro x0 x1 x2 h
  unfold State.limitTrip
  repeat' (first
    | with_reducible assumption | with_reducible apply sound_raise | with_reducible apply sound_cause
    | with_reducible apply sound_put | with_reducible apply sound_ite | split)

theorem sound_latchInputs : ∀ x0 x1, Sound x0 → Sound (State.latchInputs x0 x1) := by
  intro x0 x1 h
  unfold State.latchInputs
  repeat' (first
    | with_reducible assumption | with_reducible apply sound_modAx | with_reducible apply sound_limitTrip
    | with_reducible apply sound_capture | with_reducible apply sound_ite | with_reducible apply sound_foldl
    | refine fun (s : State) _ (_ : Sound s) => ?_)

theorem sound_stepEdge : ∀ x0 x1 x2 x3, Sound x3 → Sound (stepEdge x0 x1 x2 x3) := by
  intro x0 x1 x2 x3 h
  unfold stepEdge
  repeat' (first | with_reducible assumption | with_reducible apply sound_modAx | with_reducible apply sound_ite)

theorem sound_limitDebounced : ∀ x0 x1 x2 x3 x4, Sound x4 → Sound (limitDebounced x0 x1 x2 x3 x4) := by
  intro x0 x1 x2 x3 x4 h
  unfold limitDebounced
  repeat' (first
    | with_reducible assumption | with_reducible apply sound_modAx | with_reducible apply sound_putB
    | with_reducible apply sound_ite)

/-! ## Fbk -/

theorem sound_modFb : ∀ x0 x1 x2, Sound x0 → Sound (State.modFb x0 x1 x2) := by
  intro x0 x1 x2 h
  unfold State.modFb
  repeat' (first
    | with_reducible assumption
    | (with_reducible apply sound_up; first | with_reducible assumption | with_reducible apply sound_ite | with_reducible apply sound_foldl | split))

theorem sound_fbStill : ∀ x0 x1, Sound x0 → Sound (State.fbStill x0 x1) := by
  intro x0 x1 h
  unfold State.fbStill
  repeat' (first
    | with_reducible assumption | with_reducible apply sound_put | with_reducible apply sound_putWide
    | with_reducible apply sound_raiseIf)

theorem sound_fbRestart : ∀ x0 x1, Sound x0 → Sound (State.fbRestart x0 x1) := by
  intro x0 x1 h
  unfold State.fbRestart
  repeat' (first | with_reducible assumption | with_reducible apply sound_fbStill | with_reducible apply sound_modFb)

theorem sound_fbPosWrite : ∀ x0 x1 x2, Sound x2 → Sound (fbPosWrite x0 x1 x2).2 := by
  intro x0 x1 x2 h
  unfold fbPosWrite
  repeat' (first
    | with_reducible assumption | with_reducible apply sound_put | with_reducible apply sound_putWideS
    | with_reducible apply sound_modFb | with_reducible apply sound_fbRestart | with_reducible apply sound_ite2)

theorem sound_fbCfgWrite : ∀ x0 x1 x2 x3, Sound x3 → Sound (fbCfgWrite x0 x1 x2 x3).2 := by
  intro x0 x1 x2 x3 h
  unfold fbCfgWrite
  repeat' (first
    | with_reducible assumption | with_reducible apply sound_modFb | with_reducible apply sound_wr
    | with_reducible apply sound_put | with_reducible apply sound_putWide | with_reducible apply sound_fbRestart
    | with_reducible apply sound_ite2)

theorem sound_fbFaultClear : ∀ x0 x1 x2, Sound x2 → Sound (fbFaultClear x0 x1 x2) := by
  intro x0 x1 x2 h
  unfold fbFaultClear
  repeat' (first
    | with_reducible assumption | with_reducible apply sound_put | with_reducible apply sound_raise
    | with_reducible apply sound_fbRestart | with_reducible apply sound_modFb | with_reducible apply sound_ite)

theorem sound_fbChkWrite : ∀ x0 x1 x2 x3, Sound x3 → Sound (fbChkWrite x0 x1 x2 x3).2 := by
  intro x0 x1 x2 x3 h
  unfold fbChkWrite
  repeat' (first | with_reducible assumption | with_reducible apply sound_wr | with_reducible apply sound_ite2)

theorem sound_fbAmpWrite : ∀ x0 x1 x2, Sound x2 → Sound (fbAmpWrite x0 x1 x2).2 := by
  intro x0 x1 x2 h
  unfold fbAmpWrite
  repeat' (first | with_reducible assumption | with_reducible apply sound_wr | with_reducible apply sound_ite2)

theorem sound_fbSsiWrite : ∀ x0 x1 x2 x3 x4, Sound x4 → Sound (fbSsiWrite x0 x1 x2 x3 x4).2 := by
  intro x0 x1 x2 x3 x4 h
  unfold fbSsiWrite
  repeat' (first | with_reducible assumption | with_reducible apply sound_wr | with_reducible apply sound_ite2)

theorem sound_dated : ∀ x0 x1 x2 x3, Sound x0 → Sound (State.dated x0 x1 x2 x3) := by
  intro x0 x1 x2 x3 h
  unfold State.dated
  repeat' (first | with_reducible assumption | with_reducible apply sound_modFb)

theorem sound_fbFault : ∀ x0 x1 x2, Sound x0 → Sound (State.fbFault x0 x1 x2) := by
  intro x0 x1 x2 h
  unfold State.fbFault
  repeat' (first
    | with_reducible assumption | with_reducible apply sound_put | with_reducible apply sound_bump
    | with_reducible apply sound_raise | with_reducible apply sound_ite)

theorem sound_fbCond : ∀ x0 x1 x2, Sound x0 → Sound (State.fbCond x0 x1 x2) := by
  intro x0 x1 x2 h
  unfold State.fbCond
  repeat' (first
    | with_reducible assumption | with_reducible apply sound_fbFault | with_reducible apply sound_modFb
    | with_reducible apply sound_ite)

theorem sound_fbCondEnd : ∀ x0 x1 x2, Sound x0 → Sound (State.fbCondEnd x0 x1 x2) := by
  intro x0 x1 x2 h
  unfold State.fbCondEnd
  repeat' (first | with_reducible assumption | with_reducible apply sound_modFb)

theorem sound_fbRestore : ∀ x0 x1, Sound x0 → Sound (State.fbRestore x0 x1) := by
  intro x0 x1 h
  unfold State.fbRestore
  repeat' (first
    | with_reducible assumption | with_reducible apply sound_putB | with_reducible apply sound_putWideS
    | with_reducible apply sound_modFb | split)

theorem sound_fbFrame : ∀ x0 x1, Sound x0 → Sound (State.fbFrame x0 x1) := by
  intro x0 x1 h
  unfold State.fbFrame
  repeat' (first
    | with_reducible assumption | with_reducible apply sound_fbRestore | with_reducible apply sound_modFb
    | with_reducible apply sound_putB | with_reducible apply sound_putWideS | with_reducible apply sound_put
    | with_reducible apply sound_putWide | with_reducible apply sound_fbCond | with_reducible apply sound_fbCondEnd
    | with_reducible apply sound_ite | split)

theorem sound_indexCheck : ∀ x0 x1 x2, Sound x0 → Sound (State.indexCheck x0 x1 x2) := by
  intro x0 x1 x2 h
  unfold State.indexCheck
  repeat' (first
    | with_reducible assumption | with_reducible apply sound_fbFault | with_reducible apply sound_ite | split)

theorem sound_setRaw : ∀ x0 x1 x2 x3, Sound x0 → Sound (State.setRaw x0 x1 x2 x3) := by
  intro x0 x1 x2 x3 h
  unfold State.setRaw
  repeat' (first
    | with_reducible assumption | with_reducible apply sound_modFb | with_reducible apply sound_put
    | with_reducible apply sound_dated | with_reducible apply sound_putWideS | with_reducible apply sound_putB
    | with_reducible apply sound_raise | with_reducible apply sound_ite)

theorem sound_usablePair : ∀ x0 x1 x2 x3, Sound x0 → Sound (State.usablePair x0 x1 x2 x3) := by
  intro x0 x1 x2 x3 h
  unfold State.usablePair
  repeat' (first
    | with_reducible assumption | with_reducible apply sound_fbCondEnd | with_reducible apply sound_put
    | with_reducible apply sound_modFb | with_reducible apply sound_putB | with_reducible apply sound_putWideS
    | with_reducible apply sound_fbFault | with_reducible apply sound_setRaw | split | dsimp only)

theorem sound_sincosPair : ∀ x0 x1 x2 x3 x4 x5 x6, Sound x0 → Sound (State.sincosPair x0 x1 x2 x3 x4 x5 x6) := by
  intro x0 x1 x2 x3 x4 x5 x6 h
  unfold State.sincosPair
  repeat' (first
    | with_reducible assumption | with_reducible apply sound_put | with_reducible apply sound_usablePair
    | with_reducible apply sound_modFb | with_reducible apply sound_ite)

theorem sound_sincosOutput : ∀ x0 x1 x2 x3, Sound x0 → Sound (State.sincosOutput x0 x1 x2 x3) := by
  intro x0 x1 x2 x3 h
  unfold State.sincosOutput
  repeat' (first
    | with_reducible assumption | with_reducible apply sound_sincosPair | with_reducible apply sound_modFb
    | with_reducible apply sound_ite | split)

theorem sound_ampBad : ∀ x0 x1, Sound x1 → Sound (ampBad x0 x1) := by
  intro x0 x1 h
  unfold ampBad
  repeat' (first
    | with_reducible assumption | with_reducible apply sound_fbCond | with_reducible apply sound_put
    | with_reducible apply sound_ite)

theorem sound_quadTransition : ∀ x0 x1 x2 x3 x4, Sound x4 → Sound (quadTransition x0 x1 x2 x3 x4) := by
  intro x0 x1 x2 x3 x4 h
  unfold quadTransition
  repeat' (first
    | with_reducible assumption | with_reducible apply sound_modFb | with_reducible apply sound_at
    | with_reducible apply sound_fbFault | with_reducible apply sound_setRaw | with_reducible apply sound_ite)

theorem sound_indexEvent : ∀ x0 x1 x2, Sound x2 → Sound (indexEvent x0 x1 x2) := by
  intro x0 x1 x2 h
  unfold indexEvent
  repeat' (first
    | with_reducible assumption | with_reducible apply sound_put | with_reducible apply sound_putWideS
    | with_reducible apply sound_at | with_reducible apply sound_raise | with_reducible apply sound_modFb
    | with_reducible apply sound_bump | with_reducible apply sound_indexCheck | with_reducible apply sound_modAx
    | with_reducible apply sound_ite)

theorem sound_noSignal : ∀ x0 x1, Sound x1 → Sound (noSignal x0 x1) := by
  intro x0 x1 h
  unfold noSignal
  repeat' (first | with_reducible assumption | with_reducible apply sound_fbCond | with_reducible apply sound_ite)

theorem sound_hallChange : ∀ x0 x1 x2 x3 x4 x5, Sound x5 → Sound (hallChange x0 x1 x2 x3 x4 x5) := by
  intro x0 x1 x2 x3 x4 x5 h
  unfold hallChange
  repeat' (first
    | with_reducible assumption | with_reducible apply sound_at | with_reducible apply sound_put
    | with_reducible apply sound_modFb | with_reducible apply sound_fbCondEnd | with_reducible apply sound_setRaw
    | with_reducible apply sound_fbFault | (intro y; refine (fun (hy : Sound y) => ?_) ?_; clear_value y)
    | (intro y; clear_value y) | split | lift_lets)

theorem sound_hallInvalid : ∀ x0 x1, Sound x1 → Sound (hallInvalid x0 x1) := by
  intro x0 x1 h
  unfold hallInvalid
  repeat' (first | with_reducible assumption | with_reducible apply sound_fbCond | with_reducible apply sound_ite)

theorem sound_ssiDone : ∀ x0 x1 x2 x3, Sound x3 → Sound (ssiDone x0 x1 x2 x3) := by
  intro x0 x1 x2 x3 h
  unfold ssiDone
  repeat' (first
    | with_reducible assumption | with_reducible apply sound_modFb | with_reducible apply sound_wr
    | with_reducible apply sound_fbFault | with_reducible apply sound_put | with_reducible apply sound_setRaw
    | with_reducible apply sound_ite | split)

theorem sound_fbStandstill : ∀ x0 x1 x2, Sound x2 → Sound (fbStandstill x0 x1 x2) := by
  intro x0 x1 x2 h
  unfold fbStandstill
  repeat' (first
    | with_reducible assumption | with_reducible apply sound_fbStill | with_reducible apply sound_at
    | with_reducible apply sound_ite)

/-! ## Cfg -/

theorem sound_cancelSwap : ∀ x0, Sound x0 → Sound (State.cancelSwap x0) := by
  intro x0 h
  unfold State.cancelSwap
  repeat' (first
    | with_reducible assumption | with_reducible apply sound_put | with_reducible apply sound_raise
    | (with_reducible apply sound_up; first | with_reducible assumption | with_reducible apply sound_put | with_reducible apply sound_raise | with_reducible apply sound_ite | with_reducible apply sound_foldl | split))

theorem sound_cfgResult : ∀ x0 x1 x2 x3, Sound x0 → Sound (State.cfgResult x0 x1 x2 x3) := by
  intro x0 x1 x2 x3 h
  unfold State.cfgResult
  repeat' (first | with_reducible assumption | with_reducible apply sound_put)

theorem sound_setLoader : ∀ x0 x1, Sound x0 → Sound (State.setLoader x0 x1) := by
  intro x0 x1 h
  unfold State.setLoader
  repeat' (first | with_reducible assumption | with_reducible apply sound_put)

theorem sound_closeSession : ∀ x0, Sound x0 → Sound (State.closeSession x0) := by
  intro x0 h
  unfold State.closeSession
  repeat' (first
    | with_reducible assumption | with_reducible apply sound_put | with_reducible apply sound_setLoader
    | (with_reducible apply sound_up; first | with_reducible assumption | with_reducible apply sound_put | with_reducible apply sound_setLoader | with_reducible apply sound_ite | with_reducible apply sound_foldl | split))

theorem sound_setBank : ∀ x0 x1 x2, Sound x0 → Sound (State.setBank x0 x1 x2) := by
  intro x0 x1 x2 h
  unfold State.setBank
  repeat' (first
    | with_reducible assumption
    | (with_reducible apply sound_up; first | with_reducible assumption | with_reducible apply sound_ite | with_reducible apply sound_foldl | split))

theorem sound_dropOther : ∀ x0, Sound x0 → Sound (State.dropOther x0) := by
  intro x0 h
  unfold State.dropOther
  repeat' (first | with_reducible assumption | with_reducible apply sound_setBank | with_reducible apply sound_put)

theorem sound_endSession : ∀ x0 x1 x2 x3, Sound x0 → Sound (State.endSession x0 x1 x2 x3) := by
  intro x0 x1 x2 x3 h
  unfold State.endSession
  repeat' (first
    | with_reducible assumption | with_reducible apply sound_cancelSwap | with_reducible apply sound_raise
    | with_reducible apply sound_cfgResult | with_reducible apply sound_closeSession
    | with_reducible apply sound_dropOther | with_reducible apply sound_endSlot
    | (intro y; refine (fun (hy : Sound y) => ?_) ?_; clear_value y) | (intro y; clear_value y) | split | lift_lets)

theorem sound_abortSession : ∀ x0, Sound x0 → Sound (State.abortSession x0) := by
  intro x0 h
  unfold State.abortSession
  repeat' (first
    | with_reducible assumption | with_reducible apply sound_cancelSwap | with_reducible apply sound_raise
    | with_reducible apply sound_cfgResult | with_reducible apply sound_closeSession
    | with_reducible apply sound_dropOther)

theorem sound_loadBusy : ∀ x0, Sound x0 → Sound (State.loadBusy x0).2 := by
  intro x0 h
  unfold State.loadBusy
  repeat' (first | with_reducible assumption | with_reducible apply sound_cfgResult)

theorem sound_bindSession : ∀ x0 x1 x2, Sound x0 → Sound (State.bindSession x0 x1 x2) := by
  intro x0 x1 x2 h
  unfold State.bindSession
  repeat' (first
    | with_reducible assumption | with_reducible apply sound_setLoader
    | (with_reducible apply sound_up; first | with_reducible assumption | with_reducible apply sound_setLoader | with_reducible apply sound_ite | with_reducible apply sound_foldl | split))

theorem sound_openFull : ∀ x0 x1, Sound x1 → Sound (openFull x0 x1).2 := by
  intro x0 x1 h
  unfold openFull
  repeat' (first
    | with_reducible assumption | with_reducible apply sound_loadBusy | with_reducible apply sound_put
    | with_reducible apply sound_bindSession | with_reducible apply sound_dropOther | with_reducible apply sound_ite2)

theorem sound_openPartial : ∀ p n s, Sound s → Sound (openPartial p n s).2 := by
  intro p n s h
  have hc : Sound (s.claim 6 n.val (requesterOf p s)).2.2 := sound_claim _ _ _ _ h
  unfold openPartial
  split
  · exact sound_loadBusy _ h
  · split
    · next e => rw [e] at hc; exact sound_loadBusy _ (sound_keepResult _ _ _ hc)
    · next e =>
      rw [e] at hc
      exact sound_put _ _ _ (sound_bindSession _ _ _ (sound_dropOther _ (sound_keepResult _ _ _ hc)))

theorem sound_loadState : ∀ x0, Sound x0 → Sound (State.loadState x0).2 := by
  intro x0 h
  unfold State.loadState
  repeat' (first | with_reducible assumption | with_reducible apply sound_cfgResult)

theorem sound_pageWrite : ∀ x0, Sound x0 → Sound (State.pageWrite x0).2 := by
  intro x0 h
  unfold State.pageWrite
  repeat' (first
    | with_reducible assumption | with_reducible apply sound_askCommit | with_reducible apply sound_endSession
    | with_reducible apply sound_ite2)

theorem sound_verifyStart : ∀ x0 x1, Sound x1 → Sound (verifyStart x0 x1).2 := by
  intro x0 x1 h
  unfold verifyStart
  repeat' (first
    | with_reducible assumption | with_reducible apply sound_loadBusy | with_reducible apply sound_loadState
    | with_reducible apply sound_setLoader | with_reducible apply sound_pageWrite | with_reducible apply sound_ite2
    | (with_reducible apply sound_up; first | with_reducible assumption | with_reducible apply sound_loadBusy | with_reducible apply sound_loadState | with_reducible apply sound_setLoader | with_reducible apply sound_pageWrite | with_reducible apply sound_ite | with_reducible apply sound_foldl | split))

theorem sound_activate : ∀ x0 x1, Sound x1 → Sound (activate x0 x1).2 := by
  intro x0 x1 h
  unfold activate
  repeat' (first
    | with_reducible assumption | with_reducible apply sound_loadBusy | with_reducible apply sound_loadState
    | with_reducible apply sound_cfgResult | with_reducible apply sound_closeSession | with_reducible apply sound_put
    | with_reducible apply sound_setLoader
    | (with_reducible apply sound_up; first | with_reducible assumption | with_reducible apply sound_loadBusy | with_reducible apply sound_loadState | with_reducible apply sound_cfgResult | with_reducible apply sound_closeSession | with_reducible apply sound_put | with_reducible apply sound_setLoader | with_reducible apply sound_ite | with_reducible apply sound_foldl | split))

theorem sound_cancelLoad : ∀ x0 x1, Sound x1 → Sound (cancelLoad x0 x1).2 := by
  intro x0 x1 h
  unfold cancelLoad
  repeat' (first
    | with_reducible assumption | with_reducible apply sound_loadState | with_reducible apply sound_loadBusy
    | with_reducible apply sound_endSession | with_reducible apply sound_ite2)

theorem sound_admitRefused : ∀ x0, Sound x0 → Sound (State.admitRefused x0) := by
  intro x0 h
  unfold State.admitRefused
  repeat' (first | with_reducible assumption | with_reducible apply sound_raise | with_reducible apply sound_put)

theorem sound_revert : ∀ x0 x1, Sound x1 → Sound (revert x0 x1).2 := by
  intro x0 x1 h
  unfold revert
  repeat' (first
    | with_reducible assumption | with_reducible apply sound_loadState | with_reducible apply sound_loadBusy
    | with_reducible apply sound_cfgResult | with_reducible apply sound_admitRefused
    | (with_reducible apply sound_up; first | with_reducible assumption | with_reducible apply sound_loadState | with_reducible apply sound_loadBusy | with_reducible apply sound_cfgResult | with_reducible apply sound_admitRefused | with_reducible apply sound_ite | with_reducible apply sound_foldl | split))

theorem sound_loadCmd : ∀ x0 x1 x2, Sound x2 → Sound (loadCmd x0 x1 x2).2 := by
  intro x0 x1 x2 h
  unfold loadCmd
  repeat' (first
    | with_reducible assumption | with_reducible apply sound_openFull | with_reducible apply sound_openPartial
    | with_reducible apply sound_verifyStart | with_reducible apply sound_activate
    | with_reducible apply sound_cancelLoad | with_reducible apply sound_revert | split)

theorem sound_loadAddr : ∀ x0 x1 x2, Sound x2 → Sound (loadAddr x0 x1 x2).2 := by
  intro x0 x1 x2 h
  unfold loadAddr
  repeat' (first
    | with_reducible assumption | with_reducible apply sound_loadBusy | with_reducible apply sound_put
    | with_reducible apply sound_ite2)

theorem sound_storeImg : ∀ x0 x1 x2, Sound x0 → Sound (State.storeImg x0 x1 x2) := by
  intro x0 x1 x2 h
  unfold State.storeImg
  repeat' (first
    | with_reducible assumption
    | (with_reducible apply sound_up; first | with_reducible assumption | with_reducible apply sound_ite | with_reducible apply sound_foldl | split))

theorem sound_loadData : ∀ x0 x1 x2, Sound x2 → Sound (loadData x0 x1 x2).2 := by
  intro x0 x1 x2 h
  unfold loadData
  repeat' (first
    | with_reducible assumption | with_reducible apply sound_loadBusy | with_reducible apply sound_put
    | with_reducible apply sound_storeImg | with_reducible apply sound_pageWrite
    | with_reducible apply sound_loadState | with_reducible apply sound_ite2
    | (with_reducible apply sound_up; first | with_reducible assumption | with_reducible apply sound_loadBusy | with_reducible apply sound_put | with_reducible apply sound_storeImg | with_reducible apply sound_pageWrite | with_reducible apply sound_loadState | with_reducible apply sound_ite | with_reducible apply sound_foldl | split))

theorem sound_otpCmd : ∀ x0 x1 x2 x3, Sound x3 → Sound (otpCmd x0 x1 x2 x3).2 := by
  intro x0 x1 x2 x3 h
  unfold otpCmd
  repeat' (first
    | with_reducible assumption | with_reducible apply sound_put | with_reducible apply sound_ite2
    | (with_reducible apply sound_up; first | with_reducible assumption | with_reducible apply sound_put | with_reducible apply sound_ite | with_reducible apply sound_foldl | split))

theorem sound_setKey : ∀ x0 x1 x2, Sound x0 → Sound (State.setKey x0 x1 x2) := by
  intro x0 x1 x2 h
  unfold State.setKey
  repeat' (first
    | with_reducible assumption | with_reducible apply sound_put
    | (with_reducible apply sound_up; first | with_reducible assumption | with_reducible apply sound_put | with_reducible apply sound_ite | with_reducible apply sound_foldl | split))

theorem sound_otpInterrupted : ∀ x0, Sound x0 → Sound (otpInterrupted x0) := by
  intro x0 h
  unfold otpInterrupted
  repeat' (first
    | with_reducible assumption | with_reducible apply sound_fresh | with_reducible apply sound_setKey
    | (with_reducible apply sound_up; first | with_reducible assumption | with_reducible apply sound_fresh | with_reducible apply sound_setKey | with_reducible apply sound_ite | with_reducible apply sound_foldl | split))

theorem sound_bootNext : ∀ x0 x1, Sound x1 → Sound (bootNext x0 x1) := by
  intro x0 x1 h
  unfold bootNext
  repeat' (first
    | with_reducible assumption | with_reducible apply sound_raise | with_reducible apply sound_cfgResult
    | (with_reducible apply sound_up; first | with_reducible assumption | with_reducible apply sound_raise | with_reducible apply sound_cfgResult | with_reducible apply sound_ite | with_reducible apply sound_foldl | split))

theorem sound_bootRefused : ∀ x0 x1, Sound x1 → Sound (bootRefused x0 x1) := by
  intro x0 x1 h
  unfold bootRefused
  repeat' (first
    | with_reducible assumption | with_reducible apply sound_bootNext | with_reducible apply sound_cfgResult
    | with_reducible apply sound_admitRefused)

theorem sound_admissionDone : ∀ x0, Sound x0 → Sound (admissionDone x0) := by
  intro x0 h
  unfold admissionDone
  repeat' (first
    | with_reducible assumption | with_reducible apply sound_bootNext | with_reducible apply sound_cfgResult
    | with_reducible apply sound_bootRefused | lift_lets
    | (with_reducible apply sound_up; first | with_reducible assumption | with_reducible apply sound_bootNext | with_reducible apply sound_cfgResult | with_reducible apply sound_bootRefused | with_reducible apply sound_ite | with_reducible apply sound_foldl | split))

theorem sound_bootTry : ∀ x0 x1, Sound x1 → Sound (bootTry x0 x1) := by
  intro x0 x1 h
  have hr : ∀ x st sec, Sound ((x1.cfgResult x st sec).raise (evCfg 3)) := fun x st sec => sound_raise _ _
      (sound_cfgResult _ _ _ _ h)
  unfold bootTry
  dsimp only
  split
  · exact h
  · split
    · exact hr _ _ _
    · exact sound_cfgResult _ _ _ _ (hr _ _ _)

theorem sound_writePages : ∀ l s, Sound s → Sound (writePages l s).2 := by
  intro l
  induction l with
  | nil => intro s h; exact h
  | cons a l ih =>
    intro s h
    unfold writePages
    dsimp only
    split
    · exact ih _ (sound_pageWrite _ h)
    · exact sound_pageWrite _ h

theorem sound_partialCopyDone : ∀ x0, Sound x0 → Sound (partialCopyDone x0) := by
  intro x0 h
  unfold partialCopyDone
  repeat' (first
    | with_reducible assumption | with_reducible apply sound_setLoader | with_reducible apply sound_setBank
    | with_reducible apply sound_pageWrite | with_reducible apply sound_writePages
    | (with_reducible apply sound_up; first | with_reducible assumption | with_reducible apply sound_setLoader | with_reducible apply sound_setBank | with_reducible apply sound_pageWrite | with_reducible apply sound_writePages | with_reducible apply sound_ite | with_reducible apply sound_foldl | split))

theorem sound_verifyDone : ∀ x0, Sound x0 → Sound (verifyDone x0) := by
  intro x0 h
  unfold verifyDone
  repeat' (first
    | with_reducible assumption | with_reducible apply sound_endSession | with_reducible apply sound_admitRefused
    | with_reducible apply sound_put | with_reducible apply sound_setBank | with_reducible apply sound_raise
    | with_reducible apply sound_cfgResult | with_reducible apply sound_setLoader | with_reducible apply sound_when
    | (with_reducible apply sound_up; first | with_reducible assumption | with_reducible apply sound_endSession | with_reducible apply sound_admitRefused | with_reducible apply sound_put | with_reducible apply sound_setBank | with_reducible apply sound_raise | with_reducible apply sound_cfgResult | with_reducible apply sound_setLoader | with_reducible apply sound_ite | with_reducible apply sound_foldl | split))

theorem sound_sessionTimeout : ∀ x0, Sound x0 → Sound (sessionTimeout x0) := by
  intro x0 h
  unfold sessionTimeout
  repeat' (first | with_reducible assumption | with_reducible apply sound_endSession | with_reducible apply sound_ite)

theorem sound_swapTimeout : ∀ x0, Sound x0 → Sound (swapTimeout x0) := by
  intro x0 h
  unfold swapTimeout
  repeat' (first | with_reducible assumption | with_reducible apply sound_endSession | with_reducible apply sound_ite)

theorem sound_otpDone : ∀ x0, Sound x0 → Sound (otpDone x0) := by
  intro x0 h
  unfold otpDone
  repeat' (first
    | with_reducible assumption | with_reducible apply sound_put | with_reducible apply sound_setKey
    | (with_reducible apply sound_up; first | with_reducible assumption | with_reducible apply sound_put | with_reducible apply sound_setKey | with_reducible apply sound_ite | with_reducible apply sound_foldl | split))

/-! ## Nvs -/

theorem sound_safetyWritten : ∀ x0 x1, Sound x0 → Sound (State.safetyWritten x0 x1) := by
  intro x0 x1 h
  unfold State.safetyWritten
  repeat' (first
    | with_reducible assumption
    | (with_reducible apply sound_up; first | with_reducible assumption | with_reducible apply sound_ite | with_reducible apply sound_foldl | split))

theorem sound_nvsShow : ∀ x0, Sound x0 → Sound (State.nvsShow x0) := by
  intro x0 h
  unfold State.nvsShow
  repeat' (first | with_reducible assumption | with_reducible apply sound_putB | with_reducible apply sound_put)

theorem sound_queueCommit : ∀ x0 x1, Sound x0 → Sound (State.queueCommit x0 x1) := by
  intro x0 x1 h
  unfold State.queueCommit
  repeat' (first
    | with_reducible assumption | with_reducible apply sound_nvsShow
    | (with_reducible apply sound_up; first | with_reducible assumption | with_reducible apply sound_nvsShow | with_reducible apply sound_ite | with_reducible apply sound_foldl | split))

theorem sound_queueRecord : ∀ x0 x1, Sound x0 → Sound (State.queueRecord x0 x1) := by
  intro x0 x1 h
  unfold State.queueRecord
  repeat' (first | with_reducible assumption | with_reducible apply sound_queueCommit)

theorem sound_autoSave : ∀ x0 x1, Sound x0 → Sound (State.autoSave x0 x1) := by
  intro x0 x1 h
  unfold State.autoSave
  repeat' (first
    | with_reducible assumption | with_reducible apply sound_queueRecord | with_reducible apply sound_ite)

theorem sound_nvResult : ∀ x0 x1 x2, Sound x0 → Sound (State.nvResult x0 x1 x2) := by
  intro x0 x1 x2 h
  unfold State.nvResult
  repeat' (first | with_reducible assumption | with_reducible apply sound_wr)

theorem sound_logRecord : ∀ x0 x1 x2, Sound x0 → Sound (State.logRecord x0 x1 x2) := by
  intro x0 x1 x2 h
  unfold State.logRecord
  repeat' (first | with_reducible assumption | with_reducible apply sound_logEntry)

theorem sound_readRecord : ∀ x0 x1, Sound x0 → Sound (State.readRecord x0 x1) := by
  intro x0 x1 h
  unfold State.readRecord
  repeat' (first
    | with_reducible assumption | with_reducible apply sound_putB | with_reducible apply sound_queueCommit
    | with_reducible apply sound_logRecord | with_reducible apply sound_raise
    | (intro y; refine (fun (hy : Sound y) => ?_) ?_; clear_value y) | (intro y; clear_value y) | split | lift_lets)

theorem sound_bufFill : ∀ x0 x1, Sound x0 → Sound (State.bufFill x0 x1) := by
  intro x0 x1 h
  unfold State.bufFill
  repeat' (first
    | with_reducible assumption
    | (with_reducible apply sound_up; first | with_reducible assumption | with_reducible apply sound_ite | with_reducible apply sound_foldl | split))

theorem sound_nvsLoad : ∀ x0 x1, Sound x1 → Sound (nvsLoad x0 x1) := by
  intro x0 x1 h
  unfold nvsLoad
  repeat' (first
    | with_reducible assumption | with_reducible apply sound_nvResult | with_reducible apply sound_readRecord
    | with_reducible apply sound_put | with_reducible apply sound_bufFill
    | (intro y; refine (fun (hy : Sound y) => ?_) ?_; clear_value y) | split | lift_lets)

theorem sound_nvsCommit : ∀ x0 x1, Sound x1 → Sound (nvsCommit x0 x1) := by
  intro x0 x1 h
  unfold nvsCommit
  repeat' (first
    | with_reducible assumption | with_reducible apply sound_nvResult | with_reducible apply sound_nvsShow
    | (with_reducible apply sound_up; first | with_reducible assumption | with_reducible apply sound_nvResult | with_reducible apply sound_nvsShow | with_reducible apply sound_ite | with_reducible apply sound_foldl | split))

theorem sound_nvsAck : ∀ x0 x1, Sound x1 → Sound (nvsAck x0 x1) := by
  intro x0 x1 h
  unfold nvsAck
  repeat' (first
    | with_reducible assumption | with_reducible apply sound_nvResult | with_reducible apply sound_put
    | with_reducible apply sound_queueCommit | with_reducible apply sound_queueRecord | split)

theorem sound_saveState : ∀ x0 x1, Sound x1 → Sound (saveState x0 x1) := by
  intro x0 x1 h
  unfold saveState
  repeat' (first
    | with_reducible assumption | with_reducible apply sound_nvResult | with_reducible apply sound_queueRecord
    | with_reducible apply sound_ite)

theorem sound_nvsLenWrite : ∀ x0 x1, Sound x1 → Sound (nvsLenWrite x0 x1).2 := by
  intro x0 x1 h
  unfold nvsLenWrite
  repeat' (first | with_reducible assumption | with_reducible apply sound_wr | with_reducible apply sound_ite2)

theorem sound_logSelect : ∀ x0 x1, Sound x1 → Sound (logSelect x0 x1) := by
  intro x0 x1 h
  unfold logSelect
  repeat' (first
    | with_reducible assumption | with_reducible apply sound_wr | with_reducible apply sound_putB
    | with_reducible apply sound_foldl | refine fun (s : State) _ (_ : Sound s) => ?_)

theorem sound_nvsBufWrite : ∀ x0 x1 x2, Sound x2 → Sound (nvsBufWrite x0 x1 x2).2 := by
  intro x0 x1 x2 h
  unfold nvsBufWrite
  repeat' (first
    | with_reducible assumption
    | (with_reducible apply sound_up; first | with_reducible assumption | with_reducible apply sound_ite | with_reducible apply sound_foldl | split))

theorem sound_setCopies : ∀ x0 x1 x2, Sound x0 → Sound (State.setCopies x0 x1 x2) := by
  intro x0 x1 x2 h
  unfold State.setCopies
  repeat' (first
    | with_reducible assumption
    | (with_reducible apply sound_up; first | with_reducible assumption | with_reducible apply sound_ite | with_reducible apply sound_foldl | split))

theorem sound_plsShow : ∀ x0, Sound x0 → Sound (State.plsShow x0) := by
  intro x0 h
  unfold State.plsShow
  repeat' (first
    | with_reducible assumption | with_reducible apply sound_put | with_reducible apply sound_putB | split)

theorem sound_logShow : ∀ x0, Sound x0 → Sound (State.logShow x0) := by
  intro x0 h
  unfold State.logShow
  repeat' (first | with_reducible assumption | with_reducible apply sound_put)

theorem sound_repTouch : ∀ x0, Sound x0 → Sound (State.repTouch x0) := by
  intro x0 h
  unfold State.repTouch
  repeat' (first
    | with_reducible assumption
    | (with_reducible apply sound_up; first | with_reducible assumption | with_reducible apply sound_ite | with_reducible apply sound_foldl | split))

theorem sound_setRole : ∀ x0 x1 x2, Sound x0 → Sound (State.setRole x0 x1 x2) := by
  intro x0 x1 x2 h
  unfold State.setRole
  repeat' (first
    | with_reducible assumption
    | (with_reducible apply sound_up; first | with_reducible assumption | with_reducible apply sound_ite | with_reducible apply sound_foldl | split))

theorem sound_applyRecord : ∀ x0 x1 x2, Sound x0 → Sound (State.applyRecord x0 x1 x2) := by
  intro x0 x1 x2 h
  unfold State.applyRecord
  repeat' (first
    | with_reducible assumption | with_reducible apply sound_put | with_reducible apply sound_wr
    | with_reducible apply sound_setRole | with_reducible apply sound_foldl
    | refine fun (s : State) _ (_ : Sound s) => ?_
    | (with_reducible apply sound_up; first | with_reducible assumption | with_reducible apply sound_put | with_reducible apply sound_wr | with_reducible apply sound_setRole | with_reducible apply sound_ite | with_reducible apply sound_foldl | split))

theorem sound_commitRefused : ∀ x0 x1 x2, Sound x0 → Sound (State.commitRefused x0 x1 x2) := by
  intro x0 x1 x2 h
  unfold State.commitRefused
  repeat' (first
    | with_reducible assumption | with_reducible apply sound_nvsShow | with_reducible apply sound_nvResult
    | (with_reducible apply sound_up; first | with_reducible assumption | with_reducible apply sound_nvsShow | with_reducible apply sound_nvResult | with_reducible apply sound_ite | with_reducible apply sound_foldl | split))

theorem sound_plsArm : ∀ x0, Sound x0 → Sound (State.plsArm x0) := by
  intro x0 h
  unfold State.plsArm
  repeat' (first
    | with_reducible assumption
    | (with_reducible apply sound_up; first | with_reducible assumption | with_reducible apply sound_ite | with_reducible apply sound_foldl | split))

theorem sound_plsSample : ∀ x0, Sound x0 → Sound (State.plsSample x0) := by
  intro x0 h
  unfold State.plsSample
  repeat' (first
    | with_reducible assumption
    | (with_reducible apply sound_up; first | with_reducible assumption | with_reducible apply sound_ite | with_reducible apply sound_foldl | split))

theorem sound_logWrite : ∀ x0 x1 x2, Sound x0 → Sound (State.logWrite x0 x1 x2) := by
  intro x0 x1 x2 h
  unfold State.logWrite
  repeat' (first
    | with_reducible assumption | with_reducible apply sound_logShow
    | (with_reducible apply sound_up; first | with_reducible assumption | with_reducible apply sound_logShow | with_reducible apply sound_ite | with_reducible apply sound_foldl | split))

theorem sound_plsOutput : ∀ x0, Sound x0 → Sound (State.plsOutput x0) := by
  intro x0 h
  unfold State.plsOutput
  repeat' (first
    | with_reducible assumption | with_reducible apply sound_logEntry
    | (with_reducible apply sound_up; first | with_reducible assumption | with_reducible apply sound_logEntry | with_reducible apply sound_ite | with_reducible apply sound_foldl | split))

theorem sound_restoreAxis : ∀ x0 x1 x2, Sound x0 → Sound (State.restoreAxis x0 x1 x2) := by
  intro x0 x1 x2 h
  unfold State.restoreAxis
  repeat' (first
    | with_reducible assumption | with_reducible apply sound_modAx | with_reducible apply sound_putWideS
    | with_reducible apply sound_putB | with_reducible apply sound_modFb | with_reducible apply sound_put
    | with_reducible apply sound_ite)

theorem sound_restoreRecord : ∀ x0 x1, Sound x0 → Sound (State.restoreRecord x0 x1) := by
  intro x0 x1 h
  unfold State.restoreRecord
  repeat' (first
    | with_reducible assumption | with_reducible apply sound_restoreAxis | with_reducible apply sound_put | split)

theorem sound_plsRestore : ∀ x0, Sound x0 → Sound (State.plsRestore x0) := by
  intro x0 h
  unfold State.plsRestore
  repeat' (first
    | with_reducible assumption | with_reducible apply sound_plsShow | with_reducible apply sound_put
    | with_reducible apply sound_restoreRecord | with_reducible apply sound_raise
    | with_reducible apply sound_restoreAxis | with_reducible apply sound_foldl
    | refine fun (s : State) _ (_ : Sound s) => ?_ | split)

theorem sound_remap : ∀ x0 x1, Sound x0 → Sound (State.remap x0 x1).2 := by
  intro x0 x1 h
  unfold State.remap
  repeat' (first
    | with_reducible assumption | with_reducible apply sound_raise | with_reducible apply sound_put
    | with_reducible apply sound_raiseIf | with_reducible apply sound_ite2)

theorem sound_scrubUe : ∀ x0 x1, Sound x0 → Sound (State.scrubUe x0 x1) := by
  intro x0 x1 h
  unfold State.scrubUe
  repeat' (first
    | with_reducible assumption | with_reducible apply sound_raise | with_reducible apply sound_bump
    | with_reducible apply sound_put | with_reducible apply sound_setCopies | with_reducible apply sound_setBank
    | with_reducible apply sound_plsShow
    | (with_reducible apply sound_up; first | with_reducible assumption | with_reducible apply sound_raise | with_reducible apply sound_bump | with_reducible apply sound_put | with_reducible apply sound_setCopies | with_reducible apply sound_setBank | with_reducible apply sound_plsShow | with_reducible apply sound_ite | with_reducible apply sound_foldl | split))

theorem sound_choldMeasureDone : ∀ x0 x1 x2 x3, Sound x3 → Sound (choldMeasureDone x0 x1 x2 x3) := by
  intro x0 x1 x2 x3 h
  unfold choldMeasureDone
  repeat' (first
    | with_reducible assumption | with_reducible apply sound_put | with_reducible apply sound_endAct
    | with_reducible apply sound_raise | with_reducible apply sound_raiseIf
    | (with_reducible apply sound_up; first | with_reducible assumption | with_reducible apply sound_put | with_reducible apply sound_endAct | with_reducible apply sound_raise | with_reducible apply sound_raiseIf | with_reducible apply sound_ite | with_reducible apply sound_foldl | split))

theorem sound_consumedMark : ∀ x0, Sound x0 → Sound (consumedMark x0) := by
  intro x0 h
  unfold consumedMark
  repeat' (first
    | with_reducible assumption | with_reducible apply sound_askCommit | with_reducible apply sound_plsShow
    | (with_reducible apply sound_up; first | with_reducible assumption | with_reducible apply sound_askCommit | with_reducible apply sound_plsShow | with_reducible apply sound_ite | with_reducible apply sound_foldl | split))

theorem sound_energyRetry : ∀ x0, Sound x0 → Sound (energyRetry x0) := by
  intro x0 h
  unfold energyRetry
  repeat' (first
    | with_reducible assumption | with_reducible apply sound_queueCommit
    | (with_reducible apply sound_up; first | with_reducible assumption | with_reducible apply sound_queueCommit | with_reducible apply sound_ite | with_reducible apply sound_foldl | split))

theorem sound_recordCommitStart : ∀ x0, Sound x0 → Sound (recordCommitStart x0) := by
  intro x0 h
  unfold recordCommitStart
  repeat' (first
    | with_reducible assumption | with_reducible apply sound_commitRefused | with_reducible apply sound_askCommit
    | with_reducible apply sound_nvsShow
    | (with_reducible apply sound_up; first | with_reducible assumption | with_reducible apply sound_commitRefused | with_reducible apply sound_askCommit | with_reducible apply sound_nvsShow | with_reducible apply sound_ite | with_reducible apply sound_foldl | split))

theorem sound_recordCommitDone : ∀ x0 x1, Sound x1 → Sound (recordCommitDone x0 x1) := by
  intro x0 x1 h
  unfold recordCommitDone
  repeat' (first
    | with_reducible assumption | with_reducible apply sound_nvsShow | with_reducible apply sound_remap
    | with_reducible apply sound_nvResult | with_reducible apply sound_setCopies | with_reducible apply sound_put
    | with_reducible apply sound_putB | with_reducible apply sound_repTouch | with_reducible apply sound_raise
    | (with_reducible apply sound_up; first | with_reducible assumption | with_reducible apply sound_nvsShow | with_reducible apply sound_remap | with_reducible apply sound_nvResult | with_reducible apply sound_setCopies | with_reducible apply sound_put | with_reducible apply sound_putB | with_reducible apply sound_repTouch | with_reducible apply sound_raise | with_reducible apply sound_ite | with_reducible apply sound_foldl | split))

theorem sound_safetyAutosave : ∀ x0 x1, Sound x1 → Sound (safetyAutosave x0 x1) := by
  intro x0 x1 h
  unfold safetyAutosave
  repeat' (first
    | with_reducible assumption | with_reducible apply sound_queueRecord
    | (with_reducible apply sound_up; first | with_reducible assumption | with_reducible apply sound_queueRecord | with_reducible apply sound_ite | with_reducible apply sound_foldl | split))

theorem sound_recordRead : ∀ x0, Sound x0 → Sound (recordRead x0) := by
  intro x0 h
  unfold recordRead
  repeat' (first
    | with_reducible assumption | with_reducible apply sound_readRecord | with_reducible apply sound_applyRecord
    | with_reducible apply sound_foldl | refine fun (s : State) _ (_ : Sound s) => ?_
    | (intro y; refine (fun (hy : Sound y) => ?_) ?_; clear_value y) | split | lift_lets)

theorem sound_plsWriteStart : ∀ x0, Sound x0 → Sound (plsWriteStart x0) := by
  intro x0 h
  unfold plsWriteStart
  repeat' (first
    | with_reducible assumption
    | (with_reducible apply sound_up; first | with_reducible assumption | with_reducible apply sound_ite | with_reducible apply sound_foldl | split))

theorem sound_plsDone : ∀ x0, Sound x0 → Sound (plsDone x0) := by
  intro x0 h
  unfold plsDone
  repeat' (first
    | with_reducible assumption | with_reducible apply sound_put | with_reducible apply sound_raise
    | with_reducible apply sound_plsShow | with_reducible apply sound_logWrite
    | (with_reducible apply sound_up; first | with_reducible assumption | with_reducible apply sound_put | with_reducible apply sound_raise | with_reducible apply sound_plsShow | with_reducible apply sound_logWrite | with_reducible apply sound_ite | with_reducible apply sound_foldl | split))

theorem sound_logChunkWrite : ∀ x0 x1, Sound x1 → Sound (logChunkWrite x0 x1) := by
  intro x0 x1 h
  unfold logChunkWrite
  repeat' (first
    | with_reducible assumption | with_reducible apply sound_remap | with_reducible apply sound_logWrite
    | with_reducible apply sound_ite)

theorem sound_logFlushTimer : ∀ x0, Sound x0 → Sound (logFlushTimer x0) := by
  intro x0 h
  unfold logFlushTimer
  repeat' (first | with_reducible assumption | with_reducible apply sound_logWrite)

theorem sound_scrubDone : ∀ x0 x1 x2, Sound x2 → Sound (scrubDone x0 x1 x2) := by
  intro x0 x1 x2 h
  unfold scrubDone
  repeat' (first
    | with_reducible assumption | with_reducible apply sound_bump | with_reducible apply sound_scrubUe
    | with_reducible apply sound_readRecord | with_reducible apply sound_endAct | with_reducible apply sound_raise
    | with_reducible apply sound_ite | with_reducible apply sound_foldl)

/-! ## Replica -/

theorem sound_endRestore : ∀ x0 x1, Sound x0 → Sound (State.endRestore x0 x1) := by
  intro x0 x1 h
  unfold State.endRestore
  repeat' (first
    | with_reducible assumption | with_reducible apply sound_put
    | (with_reducible apply sound_up; first | with_reducible assumption | with_reducible apply sound_put | with_reducible apply sound_ite | with_reducible apply sound_foldl | split))

theorem sound_sendRep : ∀ x0 x1 x2 x3 x4 x5 x6 x7, Sound x0 → Sound (State.sendRep x0 x1 x2 x3 x4 x5 x6 x7) := by
  intro x0 x1 x2 x3 x4 x5 x6 x7 h
  unfold State.sendRep
  repeat' (first
    | with_reducible assumption
    | (with_reducible apply sound_up; first | with_reducible assumption | with_reducible apply sound_ite | with_reducible apply sound_foldl | split))

theorem sound_acceptOffer : ∀ x0, Sound x0 → Sound (State.acceptOffer x0) := by
  intro x0 h
  unfold State.acceptOffer
  repeat' (first
    | with_reducible assumption | with_reducible apply sound_raise | with_reducible apply sound_endRestore
    | with_reducible apply sound_put | with_reducible apply sound_sendRep
    | (with_reducible apply sound_up; first | with_reducible assumption | with_reducible apply sound_raise | with_reducible apply sound_endRestore | with_reducible apply sound_put | with_reducible apply sound_sendRep | with_reducible apply sound_ite | with_reducible apply sound_foldl | split))

theorem sound_startRestore : ∀ x0, Sound x0 → Sound (State.startRestore x0) := by
  intro x0 h
  unfold State.startRestore
  repeat' (first
    | with_reducible assumption | with_reducible apply sound_put | with_reducible apply sound_wr
    | with_reducible apply sound_sendRep
    | (with_reducible apply sound_up; first | with_reducible assumption | with_reducible apply sound_put | with_reducible apply sound_wr | with_reducible apply sound_sendRep | with_reducible apply sound_ite | with_reducible apply sound_foldl | split))

theorem sound_restoreCmd : ∀ x0, Sound x0 → Sound (restoreCmd x0) := by
  intro x0 h
  unfold restoreCmd
  repeat' (first
    | with_reducible assumption | with_reducible apply sound_nvResult | with_reducible apply sound_startRestore
    | with_reducible apply sound_ite)

theorem sound_nvsCmd : ∀ x0 x1, Sound x1 → Sound (nvsCmd x0 x1).2 := by
  intro x0 x1 h
  unfold nvsCmd
  repeat' (first
    | with_reducible assumption | with_reducible apply sound_nvsLoad | with_reducible apply sound_nvsCommit
    | with_reducible apply sound_nvsAck | with_reducible apply sound_saveState
    | with_reducible apply sound_restoreCmd | split)

theorem sound_modHeld : ∀ x0 x1 x2, Sound x0 → Sound (State.modHeld x0 x1 x2) := by
  intro x0 x1 x2 h
  unfold State.modHeld
  repeat' (first
    | with_reducible assumption
    | (with_reducible apply sound_up; first | with_reducible assumption | with_reducible apply sound_ite | with_reducible apply sound_foldl | split))

theorem sound_dropHeld : ∀ x0 x1, Sound x0 → Sound (State.dropHeld x0 x1) := by
  intro x0 x1 h
  unfold State.dropHeld
  repeat' (first
    | with_reducible assumption | with_reducible apply sound_queueRecord | with_reducible apply sound_raise
    | with_reducible apply sound_wr | with_reducible apply sound_modHeld)

theorem sound_replicaOffer : ∀ x0 x1, Sound x1 → Sound (replicaOffer x0 x1) := by
  intro x0 x1 h
  unfold replicaOffer
  repeat' (first
    | with_reducible assumption | with_reducible apply sound_bump | with_reducible apply sound_sendRep
    | with_reducible apply sound_modHeld | with_reducible apply sound_put | with_reducible apply sound_queueRecord
    | (with_reducible apply sound_up; first | with_reducible assumption | with_reducible apply sound_bump | with_reducible apply sound_sendRep | with_reducible apply sound_modHeld | with_reducible apply sound_put | with_reducible apply sound_queueRecord | with_reducible apply sound_ite | with_reducible apply sound_foldl | split))

theorem sound_modOwn : ∀ x0 x1 x2, Sound x0 → Sound (State.modOwn x0 x1 x2) := by
  intro x0 x1 x2 h
  unfold State.modOwn
  repeat' (first
    | with_reducible assumption
    | (with_reducible apply sound_up; first | with_reducible assumption | with_reducible apply sound_ite | with_reducible apply sound_foldl | split))

theorem sound_replicaAccept : ∀ x0 x1, Sound x1 → Sound (replicaAccept x0 x1) := by
  intro x0 x1 h
  unfold replicaAccept
  repeat' (first
    | with_reducible assumption | with_reducible apply sound_modOwn | with_reducible apply sound_queueRecord
    | with_reducible apply sound_put | split)

theorem sound_sendBlock : ∀ x0 x1 x2 x3 x4, Sound x0 → Sound (State.sendBlock x0 x1 x2 x3 x4) := by
  intro x0 x1 x2 x3 x4 h
  unfold State.sendBlock
  repeat' (first
    | with_reducible assumption | with_reducible apply sound_sendRep | with_reducible apply sound_foldl
    | refine fun (s : State) _ (_ : Sound s) => ?_)

theorem sound_serveRestore : ∀ x0 x1, Sound x0 → Sound (State.serveRestore x0 x1) := by
  intro x0 x1 h
  unfold State.serveRestore
  repeat' (first
    | with_reducible assumption | with_reducible apply sound_sendRep | with_reducible apply sound_sendBlock
    | with_reducible apply sound_foldl | refine fun (s : State) _ (_ : Sound s) => ?_ | split)

theorem sound_replicaAccepted : ∀ x0 x1, Sound x1 → Sound (replicaAccepted x0 x1) := by
  intro x0 x1 h
  unfold replicaAccepted
  repeat' (first
    | with_reducible assumption | with_reducible apply sound_replicaAccept | with_reducible apply sound_serveRestore
    | with_reducible apply sound_ite)

theorem sound_offerNext : ∀ x0 x1 x2, Sound x0 → Sound (State.offerNext x0 x1 x2) := by
  intro x0 x1 x2 h
  unfold State.offerNext
  repeat' (first
    | with_reducible assumption | with_reducible apply sound_raise | with_reducible apply sound_modOwn
    | with_reducible apply sound_raiseIf | with_reducible apply sound_sendRep | split)

theorem sound_nextCandidate : ∀ x0 x1, Sound x0 → Sound (State.nextCandidate x0 x1) := by
  intro x0 x1 h
  unfold State.nextCandidate
  repeat' (first | with_reducible assumption | with_reducible apply sound_offerNext | with_reducible apply sound_ite)

theorem sound_replicaDecline : ∀ x0 x1, Sound x1 → Sound (replicaDecline x0 x1) := by
  intro x0 x1 h
  unfold replicaDecline
  repeat' (first | with_reducible assumption | with_reducible apply sound_nextCandidate | split)

theorem sound_restoreData : ∀ x0 x1 x2, Sound x0 → Sound (State.restoreData x0 x1 x2) := by
  intro x0 x1 x2 h
  unfold State.restoreData
  dsimp only
  split
  · exact h
  · exact sound_sendRep _ _ _ _ _ _ _ _ h

theorem sound_holderData : ∀ x0 x1 x2, Sound x0 → Sound (State.holderData x0 x1 x2) := by
  intro x0 x1 x2 h
  unfold State.holderData
  extract_lets hh old r s1 nak a
  have h1 : Sound s1 := sound_put _ _ _ (sound_modHeld _ _ _ h)
  have ha : ∀ l, Sound (s1.askCommit l 0).2 := fun l => sound_askCommit _ _ _ h1
  have hn : ∀ s, Sound s → Sound (nak s) := fun s hs => sound_sendRep _ _ _ _ _ _ _ _ hs
  split
  · exact h1
  · exact sound_ite (hn _ h1) (sound_ite (hn _ (ha _)) (sound_sendRep _ _ _ _ _ _ _ _ (sound_modHeld _ _ _ (ha _))))

theorem sound_replicaData : ∀ x0 x1, Sound x1 → Sound (replicaData x0 x1) := by
  intro x0 x1 h
  unfold replicaData
  repeat' (first
    | with_reducible assumption | with_reducible apply sound_restoreData | with_reducible apply sound_holderData
    | split)

theorem sound_replicaBlockAck : ∀ x0 x1, Sound x1 → Sound (replicaBlockAck x0 x1) := by
  intro x0 x1 h
  unfold replicaBlockAck
  repeat' (first
    | with_reducible assumption | with_reducible apply sound_modOwn | with_reducible apply sound_queueRecord
    | with_reducible apply sound_put | with_reducible apply sound_sendRep | with_reducible apply sound_ite | split)

theorem sound_replicaBlockNak : ∀ x0 x1, Sound x1 → Sound (replicaBlockNak x0 x1) := by
  intro x0 x1 h
  unfold replicaBlockNak
  repeat' (first | with_reducible assumption | with_reducible apply sound_modOwn | split)

theorem sound_restoreFailed : ∀ x0 x1, Sound x0 → Sound (State.restoreFailed x0 x1) := by
  intro x0 x1 h
  unfold State.restoreFailed
  repeat' (first
    | with_reducible assumption | with_reducible apply sound_raise | with_reducible apply sound_put
    | with_reducible apply sound_endRestore | with_reducible apply sound_acceptOffer
    | (intro y; refine (fun (hy : Sound y) => ?_) ?_; clear_value y) | split | lift_lets)

theorem sound_restoreComplete : ∀ x0 x1, Sound x0 → Sound (State.restoreComplete x0 x1) := by
  intro x0 x1 h
  unfold State.restoreComplete
  extract_lets s0 k l rest parts a b s1 failed
  have h0 : Sound s0 := sound_put _ _ _ h
  have ha : Sound a.2 := sound_askCommit _ _ _ h0
  have h1 : Sound s1 := sound_put _ _ _ (sound_setBank _ _ _ ha)
  have hf : ∀ s c st sec, Sound s → Sound (failed s c st sec) := fun s c st sec hs =>
    sound_restoreFailed _ _ (sound_cfgResult _ _ _ _ (sound_put _ _ _ hs))
  split
  · exact sound_restoreFailed _ _ h0
  · split
    · exact sound_restoreFailed _ _ ha
    · split
      · exact hf _ _ _ _ h1
      · split
        · exact hf _ _ _ _ h1
        · split
          · exact hf _ _ _ _ (sound_admitRefused _ h1)
          · have hp : ∀ (s : State) (id : Nat) (l : List Byte), Sound s →
                Sound ((s.applyRecord id l).queueCommit ⟨id, false, l, none, true⟩) :=
              fun s id l hs => sound_queueCommit _ _ (sound_applyRecord _ _ _ hs)
            exact sound_raise _ _ (sound_endRestore _ _ (sound_foldl _ _ _ (fun s n hs => hp _ _ _ hs) (hp _ _ _ h1)))

theorem sound_replicaComplete : ∀ x0 x1, Sound x1 → Sound (replicaComplete x0 x1) := by
  intro x0 x1 h
  unfold replicaComplete
  repeat' (first
    | with_reducible assumption | with_reducible apply sound_restoreComplete | with_reducible apply sound_modHeld
    | with_reducible apply sound_put | with_reducible apply sound_dropHeld | with_reducible apply sound_queueRecord
    | with_reducible apply sound_foldl | split)

theorem sound_replicaVerify : ∀ x0 x1, Sound x1 → Sound (replicaVerify x0 x1) := by
  intro x0 x1 h
  unfold replicaVerify
  repeat' (first | with_reducible assumption | with_reducible apply sound_sendRep | split)

theorem sound_replicaVerifyAck : ∀ x0 x1, Sound x1 → Sound (replicaVerifyAck x0 x1) := by
  intro x0 x1 h
  unfold replicaVerifyAck
  repeat' (first
    | with_reducible assumption | with_reducible apply sound_put | with_reducible apply sound_modOwn | split)

theorem sound_replicaRelease : ∀ x0 x1, Sound x1 → Sound (replicaRelease x0 x1) := by
  intro x0 x1 h
  unfold replicaRelease
  repeat' (first
    | with_reducible assumption | with_reducible apply sound_dropHeld | with_reducible apply sound_ite
    | with_reducible apply sound_foldl | refine fun (s : State) _ (_ : Sound s) => ?_)

theorem sound_replicaFetch : ∀ x0 x1, Sound x1 → Sound (replicaFetch x0 x1) := by
  intro x0 x1 h
  unfold replicaFetch
  repeat' (first | with_reducible assumption | with_reducible apply sound_sendRep | split)

theorem sound_refreshOne : ∀ x0 x1 x2, Sound x0 → Sound (State.refreshOne x0 x1 x2) := by
  intro x0 x1 x2 h
  unfold State.refreshOne
  repeat' (first
    | with_reducible assumption | with_reducible apply sound_offerNext | with_reducible apply sound_sendBlock
    | with_reducible apply sound_put | with_reducible apply sound_modOwn | with_reducible apply sound_sendRep
    | with_reducible apply sound_ite | with_reducible apply sound_foldl
    | refine fun (s : State) _ (_ : Sound s) => ?_)

theorem sound_blankRestore : ∀ x0, Sound x0 → Sound (blankRestore x0) := by
  intro x0 h
  unfold blankRestore
  repeat' (first
    | with_reducible assumption | with_reducible apply sound_startRestore | with_reducible apply sound_ite)

theorem sound_replicaRefresh : ∀ x0 x1, Sound x1 → Sound (replicaRefresh x0 x1) := by
  intro x0 x1 h
  unfold replicaRefresh
  repeat' (first
    | with_reducible assumption | with_reducible apply sound_refreshOne | with_reducible apply sound_endAct
    | (with_reducible apply sound_up; first | with_reducible assumption | with_reducible apply sound_refreshOne | with_reducible apply sound_endAct | with_reducible apply sound_ite | with_reducible apply sound_foldl | split))

theorem sound_restoreWindow : ∀ x0, Sound x0 → Sound (restoreWindow x0) := by
  intro x0 h
  unfold restoreWindow
  repeat' (first
    | with_reducible assumption | with_reducible apply sound_acceptOffer | with_reducible apply sound_ite)

theorem sound_keepExpiry : ∀ x0 x1, Sound x1 → Sound (keepExpiry x0 x1) := by
  intro x0 x1 h
  unfold keepExpiry
  repeat' (first | with_reducible assumption | with_reducible apply sound_dropHeld | with_reducible apply sound_ite)

/-! ## Gear -/

theorem sound_gearCtrl : ∀ x0 x1 x2 x3 x4, Sound x4 → Sound (gearCtrl x0 x1 x2 x3 x4).2 := by
  intro x0 x1 x2 x3 x4 h
  unfold gearCtrl
  repeat' (first
    | with_reducible assumption | with_reducible apply sound_put | with_reducible apply sound_modAx
    | with_reducible apply sound_ite | with_reducible apply sound_ite2)

theorem sound_tcmdResult : ∀ x0 x1 x2 x3, Sound x0 → Sound (State.tcmdResult x0 x1 x2 x3) := by
  intro x0 x1 x2 x3 h
  unfold State.tcmdResult
  repeat' (first | with_reducible assumption | with_reducible apply sound_raiseIf | with_reducible apply sound_wr)

theorem sound_tcmdSubmit : ∀ x0 x1 x2 x3 x4 x5 x6, Sound x0 → Sound (State.tcmdSubmit x0 x1 x2 x3 x4 x5 x6) := by
  intro x0 x1 x2 x3 x4 x5 x6 h
  unfold State.tcmdSubmit
  repeat' (first
    | with_reducible assumption | with_reducible apply sound_tcmdResult | with_reducible apply sound_modAx
    | with_reducible apply sound_wr | split)

theorem sound_tcmdWrite : ∀ x0 x1 x2 x3, Sound x3 → Sound (tcmdWrite x0 x1 x2 x3) := by
  intro x0 x1 x2 x3 h
  unfold tcmdWrite
  repeat' (first | with_reducible assumption | with_reducible apply sound_tcmdSubmit)

theorem sound_dropSlot : ∀ x0 x1 x2, Sound x0 → Sound (State.dropSlot x0 x1 x2) := by
  intro x0 x1 x2 h
  unfold State.dropSlot
  repeat' (first
    | with_reducible assumption | with_reducible apply sound_raise | with_reducible apply sound_bump
    | with_reducible apply sound_wr | with_reducible apply sound_ite)

theorem sound_dropSlots : ∀ x0 x1 x2, Sound x0 → Sound (State.dropSlots x0 x1 x2) := by
  intro x0 x1 x2 h
  unfold State.dropSlots
  repeat' (first
    | with_reducible assumption | with_reducible apply sound_dropSlot | with_reducible apply sound_ite
    | with_reducible apply sound_foldl | refine fun (s : State) _ (_ : Sound s) => ?_)

theorem sound_tcmdCancel : ∀ x0 x1 x2, Sound x2 → Sound (tcmdCancel x0 x1 x2) := by
  intro x0 x1 x2 h
  unfold tcmdCancel
  repeat' (first | with_reducible assumption | with_reducible apply sound_dropSlots)

theorem sound_herdStop : ∀ x0 x1, Sound x1 → Sound (herdStop x0 x1) := by
  intro x0 x1 h
  refine sound_onHerd _ _ _ (fun s _ hs => ?_) h
  repeat' (first
    | with_reducible assumption | with_reducible apply sound_cause | with_reducible apply sound_motResult)

theorem sound_herdStart : ∀ x0 x1, Sound x1 → Sound (herdStart x0 x1) := by
  intro x0 x1 h
  exact sound_onHerd _ _ _ (fun s _ hs => sound_startCmd _ _ _ hs) h

theorem sound_modHerd : ∀ x0 x1 x2, Sound x0 → Sound (State.modHerd x0 x1 x2) := by
  intro x0 x1 x2 h
  unfold State.modHerd
  repeat' (first
    | with_reducible assumption
    | (with_reducible apply sound_up; first | with_reducible assumption | with_reducible apply sound_ite | with_reducible apply sound_foldl | split))

theorem sound_applyIncrement : ∀ x0 x1 x2, Sound x0 → Sound (State.applyIncrement x0 x1 x2) := by
  intro x0 x1 x2 h
  unfold State.applyIncrement
  repeat' (first
    | with_reducible assumption | with_reducible apply sound_modAx | with_reducible apply sound_raise
    | with_reducible apply sound_cause | with_reducible apply sound_ite)

theorem sound_gearIncrement : ∀ x0 x1 x2 x3, Sound x0 → Sound (State.gearIncrement x0 x1 x2 x3).1 := by
  intro x0 x1 x2 x3 h
  unfold State.gearIncrement
  repeat' (first | with_reducible assumption | with_reducible apply sound_modAx)

theorem sound_herdCorrection : ∀ x0 x1 x2, Sound x0 → Sound (State.herdCorrection x0 x1 x2) := by
  intro x0 x1 x2 h
  unfold State.herdCorrection
  repeat' (first
    | with_reducible assumption | with_reducible apply sound_modAx | with_reducible apply sound_raise
    | with_reducible apply sound_cause | with_reducible apply sound_ite)

theorem sound_gearLatch : ∀ x0 x1, Sound x0 → Sound (State.gearLatch x0 x1) := by
  intro x0 x1 h
  unfold State.gearLatch
  repeat' (first
    | with_reducible assumption | with_reducible apply sound_put | with_reducible apply sound_herdCorrection
    | with_reducible apply sound_putB | split)

theorem sound_gearLocked : ∀ x0 x1 x2, Sound x0 → Sound (State.gearLocked x0 x1 x2).1 := by
  intro x0 x1 x2 h
  unfold State.gearLocked
  repeat' (first
    | with_reducible assumption | with_reducible apply sound_modAx | with_reducible apply sound_put
    | with_reducible apply sound_gearIncrement | with_reducible apply sound_raise
    | (intro y; refine (fun (hy : Sound y) => ?_) ?_; clear_value y)
    | (intro y; refine (fun (hy : Sound y.1) => ?_) ?_; clear_value y) | (intro y; clear_value y) | unfold y | split
    | lift_lets)

theorem sound_stopNow : ∀ x0 x1 x2 x3 x4, Sound x0 → Sound (State.stopNow x0 x1 x2 x3 x4) := by
  intro x0 x1 x2 x3 x4 h
  unfold State.stopNow
  repeat' (first
    | with_reducible assumption | with_reducible apply sound_modAx | with_reducible apply sound_stopWith
    | with_reducible apply sound_stopUncertain | with_reducible apply sound_when
    | refine fun (s : State) (_ : Sound s) => ?_)

theorem sound_gearStep : ∀ x0 x1, Sound x0 → Sound (State.gearStep x0 x1) := by
  intro x0 x1 h
  unfold State.gearStep
  repeat' (first
    | with_reducible assumption | with_reducible apply sound_gearLocked | with_reducible apply sound_raise
    | with_reducible apply sound_stopNow | with_reducible apply sound_modAx
    | with_reducible apply sound_applyIncrement | with_reducible apply sound_put | with_reducible apply sound_ite
    | (intro y; refine (fun (hy : Sound y) => ?_) ?_; clear_value y)
    | (intro y; refine (fun (hy : Sound y.1) => ?_) ?_; clear_value y) | split | lift_lets)

theorem sound_tcmdExecute : ∀ x0 x1 x2, Sound x2 → Sound (tcmdExecute x0 x1 x2) := by
  intro x0 x1 x2 h
  unfold tcmdExecute
  repeat' (first
    | with_reducible assumption | with_reducible apply sound_wr | with_reducible apply sound_stopCmd
    | with_reducible apply sound_startCmd | with_reducible apply sound_targetWrite
    | with_reducible apply sound_vtargetWrite | with_reducible apply sound_raise | with_reducible apply sound_ite
    | split)

theorem sound_runDue : ∀ x0 x1, Sound x0 → Sound (State.runDue x0 x1) := by
  intro x0 x1 h
  unfold State.runDue
  repeat' (first
    | with_reducible assumption | with_reducible apply sound_tcmdExecute | with_reducible apply sound_foldl
    | refine fun (s : State) _ (_ : Sound s) => ?_)

theorem sound_keepMaster : ∀ x0 x1 x2, Sound x0 → Sound (State.keepMaster x0 x1 x2) := by
  intro x0 x1 x2 h
  unfold State.keepMaster
  repeat' (first | with_reducible assumption | with_reducible apply sound_putWideS | with_reducible apply sound_modAx)

theorem sound_masterLost : ∀ x0 x1, Sound x0 → Sound (State.masterLost x0 x1) := by
  intro x0 x1 h
  unfold State.masterLost
  repeat' (first
    | with_reducible assumption | with_reducible apply sound_modHerd | with_reducible apply sound_raise
    | with_reducible apply sound_put | with_reducible apply sound_cause | with_reducible apply sound_foldl
    | refine fun (s : State) _ (_ : Sound s) => ?_)

/-! ## Protect -/

theorem sound_modAxu : ∀ x0 x1 x2, Sound x0 → Sound (State.modAxu x0 x1 x2) := by
  intro x0 x1 x2 h
  unfold State.modAxu
  repeat' (first
    | with_reducible assumption
    | (with_reducible apply sound_up; first | with_reducible assumption | with_reducible apply sound_ite | with_reducible apply sound_foldl | split))

theorem sound_setLatch : ∀ x0 x1 x2 x3, Sound x0 → Sound (State.setLatch x0 x1 x2 x3) := by
  intro x0 x1 x2 x3 h
  unfold State.setLatch
  repeat' (first
    | with_reducible assumption | with_reducible apply sound_put | with_reducible apply sound_raise
    | with_reducible apply sound_modAx | with_reducible apply sound_foldl
    | refine fun (s : State) _ (_ : Sound s) => ?_)

theorem sound_faultSource : ∀ x0 x1 x2, Sound x0 → Sound (State.faultSource x0 x1 x2) := by
  intro x0 x1 x2 h
  unfold State.faultSource
  repeat' (first
    | with_reducible assumption | with_reducible apply sound_put | with_reducible apply sound_setLatch
    | with_reducible apply sound_ite)

theorem sound_modPw : ∀ x0 x1 x2, Sound x0 → Sound (State.modPw x0 x1 x2) := by
  intro x0 x1 x2 h
  unfold State.modPw
  repeat' (first
    | with_reducible assumption
    | (with_reducible apply sound_up; first | with_reducible assumption | with_reducible apply sound_ite | with_reducible apply sound_foldl | split))

theorem sound_auxEdge : ∀ x0 x1 x2, Sound x1 → Sound (State.auxEdge x0 x1 x2) := by
  intro x0 x1 x2 h
  unfold State.auxEdge
  repeat' (first | with_reducible assumption | with_reducible apply sound_put | with_reducible apply sound_ite)

theorem sound_cmpOut : ∀ x0 x1, Sound x0 → Sound (State.cmpOut x0 x1) := by
  intro x0 x1 h
  unfold State.cmpOut
  repeat' (first
    | with_reducible assumption | with_reducible apply sound_putB | with_reducible apply sound_raiseIf
    | with_reducible apply sound_ite)

theorem sound_driveGates : ∀ s0 s k, Sound s → Sound (State.driveGates s0 s k) := by
  intro s0 s k h
  unfold State.driveGates
  extract_lets hh l newH newL b b1 b2 b3
  have hb : b.safe := sound_br s k h
  have h1 : b1.safe := by
    unfold b1
    split
    · exact hb
    · exact safe_off _ _ hb
  have h2 : b2.safe := by
    unfold b2
    split
    · exact h1
    · exact safe_off _ _ h1
  have h3 : b3.safe := by
    unfold b3
    split
    · exact h2
    · split
      · exact h2
      · exact h2
  exact sound_ite h ⟨h.1, bridgesSafe_set h.2 k _ h3⟩

theorem sound_endDrive : ∀ x0, Sound x0 → Sound (State.endDrive x0) := by
  intro x0 h
  unfold State.endDrive
  repeat' (first | with_reducible assumption | with_reducible apply sound_put | with_reducible apply sound_ite)

theorem sound_faultScan : ∀ x0 x1, Sound x0 → Sound (State.faultScan x0 x1) := by
  intro x0 x1 h
  unfold State.faultScan
  repeat' (first
    | with_reducible assumption | with_reducible apply sound_put | with_reducible apply sound_setLatch
    | with_reducible apply sound_ite)

theorem demand_safe (s : State) (k : Nat) (h : Sound s) : ¬ ((s.demand k).1 = true ∧ (s.demand k).2 = true) := by
  unfold State.demand
  split
  · exact fun e => by simp at e
  · intro e
    simp at e
    omega
  · exact fun e => by simp at e
  · exact (sound_br s k h).2
  · exact fun e => by simp at e

theorem sound_redemand : ∀ s k, Sound s → Sound (State.redemand s k) := by
  intro s k h
  unfold State.redemand
  dsimp only
  exact sound_ite h (sound_modBr _ _ _ (fun b hb => ⟨hb.1, demand_safe s k h⟩) h)

theorem sound_vdsQualify : ∀ x0 x1, Sound x0 → Sound (State.vdsQualify x0 x1) := by
  intro x0 x1 h
  unfold State.vdsQualify
  repeat' (first | with_reducible assumption | with_reducible apply sound_put | with_reducible apply sound_ite)

theorem sound_settleOnce : ∀ x0 x1, Sound x1 → Sound (State.settleOnce x0 x1) := by
  intro x0 x1 h
  unfold State.settleOnce
  repeat' (first
    | with_reducible assumption | with_reducible apply sound_endDrive | with_reducible apply sound_faultScan
    | with_reducible apply sound_redemand | with_reducible apply sound_driveGates
    | with_reducible apply sound_auxEdge | with_reducible apply sound_vdsQualify | with_reducible apply sound_cmpOut
    | with_reducible apply sound_foldl)

theorem sound_settle : ∀ x0 x1, Sound x1 → Sound (State.settle x0 x1) := by
  intro x0 x1 h
  unfold State.settle
  repeat' (first | with_reducible assumption | with_reducible apply sound_settleOnce | with_reducible apply sound_ite)

theorem sound_settleHeld : ∀ x0 x1, Sound x1 → Sound (State.settleHeld x0 x1) := by
  intro x0 x1 h
  unfold State.settleHeld
  repeat' (first
    | with_reducible assumption | with_reducible apply sound_driveGates | with_reducible apply sound_foldl)

end Sys2Proof.Machine
end

