-- ==== Sys2Proof/Laws/Sound2.lean ====
section
/-!
SUPPORT. Every function keeps a state sound: the links, the comparators, the converter, the modulator, the regulators, the gates, the supplies and the debug unit.
-/
namespace Sys2Proof.Machine

/-! ## Net -/

theorem sound_portSession : ∀ x0 x1, Sound x0 → Sound (State.portSession x0 x1) := by
  intro x0 x1 h
  unfold State.portSession
  repeat' (first | with_reducible assumption | with_reducible apply sound_endSession | split)

theorem sound_setPort : ∀ x0 x1 x2, Sound x0 → Sound (State.setPort x0 x1 x2) := by
  intro x0 x1 x2 h
  unfold State.setPort
  repeat' (first
    | with_reducible assumption | with_reducible apply sound_put | with_reducible apply sound_portSession
    | with_reducible apply sound_ite)

theorem sound_modNp : ∀ x0 x1 x2, Sound x0 → Sound (State.modNp x0 x1 x2) := by
  intro x0 x1 x2 h
  unfold State.modNp
  repeat' (first
    | with_reducible assumption
    | (with_reducible apply sound_up; first | with_reducible assumption | with_reducible apply sound_ite | with_reducible apply sound_foldl | split))

theorem sound_enterTraining : ∀ x0 x1, Sound x0 → Sound (State.enterTraining x0 x1) := by
  intro x0 x1 h
  unfold State.enterTraining
  repeat' (first
    | with_reducible assumption | with_reducible apply sound_setPort | with_reducible apply sound_modNp
    | with_reducible apply sound_put)

theorem sound_endPrbs : ∀ x0 x1, Sound x0 → Sound (State.endPrbs x0 x1) := by
  intro x0 x1 h
  unfold State.endPrbs
  repeat' (first
    | with_reducible assumption | with_reducible apply sound_enterTraining | with_reducible apply sound_ite)

theorem sound_modNet : ∀ x0 x1, Sound x0 → Sound (State.modNet x0 x1) := by
  intro x0 x1 h
  unfold State.modNet
  repeat' (first
    | with_reducible assumption
    | (with_reducible apply sound_up; first | with_reducible assumption | with_reducible apply sound_ite | with_reducible apply sound_foldl | split))

theorem sound_sendSeg : ∀ x0 x1 x2 x3, Sound x0 → Sound (State.sendSeg x0 x1 x2 x3) := by
  intro x0 x1 x2 x3 h
  unfold State.sendSeg
  repeat' (first | with_reducible assumption | with_reducible apply sound_modNet)

theorem sound_startPrbs : ∀ x0 x1, Sound x0 → Sound (State.startPrbs x0 x1) := by
  intro x0 x1 h
  unfold State.startPrbs
  repeat' (first
    | with_reducible assumption | with_reducible apply sound_sendSeg | with_reducible apply sound_setPort
    | with_reducible apply sound_ite)

theorem sound_count : ∀ x0 x1 x2, Sound x0 → Sound (State.count x0 x1 x2) := by
  intro x0 x1 x2 h
  unfold State.count
  repeat' (first | with_reducible assumption | with_reducible apply sound_bump)

theorem sound_enterDown : ∀ x0 x1, Sound x0 → Sound (State.enterDown x0 x1) := by
  intro x0 x1 h
  unfold State.enterDown
  repeat' (first
    | with_reducible assumption | with_reducible apply sound_count | with_reducible apply sound_modNp
    | with_reducible apply sound_put | with_reducible apply sound_setPort | with_reducible apply sound_ite)

theorem sound_netCfgWrite : ∀ x0 x1 x2, Sound x2 → Sound (netCfgWrite x0 x1 x2) := by
  intro x0 x1 x2 h
  unfold netCfgWrite
  repeat' (first
    | with_reducible assumption | with_reducible apply sound_put | with_reducible apply sound_setPort
    | with_reducible apply sound_enterDown | with_reducible apply sound_ite)

theorem sound_netOffsetWrite : ∀ x0 x1 x2, Sound x2 → Sound (netOffsetWrite x0 x1 x2) := by
  intro x0 x1 x2 h
  unfold netOffsetWrite
  repeat' (first | with_reducible assumption | with_reducible apply sound_put | with_reducible apply sound_wr)

theorem sound_dropAllSlots : ∀ x0, Sound x0 → Sound (State.dropAllSlots x0) := by
  intro x0 h
  unfold State.dropAllSlots
  repeat' (first
    | with_reducible assumption | with_reducible apply sound_dropSlots | with_reducible apply sound_foldl
    | refine fun (s : State) _ (_ : Sound s) => ?_)

theorem sound_loseLock : ∀ x0, Sound x0 → Sound (State.loseLock x0) := by
  intro x0 h
  unfold State.loseLock
  repeat' (first
    | with_reducible assumption | with_reducible apply sound_put | with_reducible apply sound_dropAllSlots
    | with_reducible apply sound_raise | with_reducible apply sound_modNet)

theorem sound_countSeg : ∀ x0 x1 x2, Sound x0 → Sound (State.countSeg x0 x1 x2) := by
  intro x0 x1 x2 h
  unfold State.countSeg
  repeat' (first
    | with_reducible assumption | with_reducible apply sound_count | with_reducible apply sound_modNet
    | with_reducible apply sound_modNp | with_reducible apply sound_enterDown | split)

theorem sound_countWraps : ∀ x0 x1, Sound x0 → Sound (State.countWraps x0 x1) := by
  intro x0 x1 h
  unfold State.countWraps
  repeat' (first
    | with_reducible assumption | with_reducible apply sound_count | with_reducible apply sound_foldl
    | refine fun (s : State) _ (_ : Sound s) => ?_)

theorem sound_delaySample : ∀ x0 x1 x2 x3, Sound x0 → Sound (State.delaySample x0 x1 x2 x3) := by
  intro x0 x1 x2 x3 h
  unfold State.delaySample
  repeat' (first
    | with_reducible assumption | with_reducible apply sound_modNp | with_reducible apply sound_put
    | with_reducible apply sound_ite)

theorem sound_forward : ∀ x0 x1 x2, Sound x0 → Sound (State.forward x0 x1 x2) := by
  intro x0 x1 x2 h
  unfold State.forward
  repeat' (first
    | with_reducible assumption | with_reducible apply sound_sendSeg | with_reducible apply sound_modNet
    | with_reducible apply sound_ite | split)

theorem sound_masterRecord : ∀ x0 x1 x2, Sound x0 → Sound (State.masterRecord x0 x1 x2) := by
  intro x0 x1 x2 h
  unfold State.masterRecord
  repeat' (first | with_reducible assumption | with_reducible apply sound_modHerd)

theorem sound_openOnHeader : ∀ x0 x1 x2, Sound x0 → Sound (State.openOnHeader x0 x1 x2) := by
  intro x0 x1 x2 h
  unfold State.openOnHeader
  repeat' (first
    | with_reducible assumption | with_reducible apply sound_setPort | with_reducible apply sound_ite
    | with_reducible apply sound_foldl | refine fun (s : State) _ (_ : Sound s) => ?_)

theorem sound_takeRecord : ∀ x0 x1, Sound x0 → Sound (State.takeRecord x0 x1) := by
  intro x0 x1 h
  unfold State.takeRecord
  repeat' (first
    | with_reducible assumption | with_reducible apply sound_modHerd | with_reducible apply sound_masterRecord
    | with_reducible apply sound_ite | with_reducible apply sound_foldl
    | refine fun (s : State) _ (_ : Sound s) => ?_)

theorem sound_takeRecords : ∀ x0 x1, Sound x0 → Sound (State.takeRecords x0 x1) := by
  intro x0 x1 h
  unfold State.takeRecords
  repeat' (first
    | with_reducible assumption | with_reducible apply sound_takeRecord | with_reducible apply sound_foldl)

theorem sound_passOn : ∀ x0 x1 x2, Sound x0 → Sound (State.passOn x0 x1 x2) := by
  intro x0 x1 x2 h
  unfold State.passOn
  repeat' (first
    | with_reducible assumption | with_reducible apply sound_modNet | with_reducible apply sound_forward
    | with_reducible apply sound_countWraps | with_reducible apply sound_takeRecords
    | with_reducible apply sound_countSeg | with_reducible apply sound_ite)

theorem sound_segmentReceived : ∀ x0 x1 x2, Sound x2 → Sound (segmentReceived x0 x1 x2) := by
  intro x0 x1 x2 h
  unfold segmentReceived
  repeat' (first
    | with_reducible assumption | with_reducible apply sound_openOnHeader | with_reducible apply sound_passOn
    | with_reducible apply sound_ite)

theorem sound_supStops : ∀ x0, Sound x0 → Sound (State.supStops x0) := by
  intro x0 h
  unfold State.supStops
  repeat' (first | with_reducible assumption | with_reducible apply sound_causeAll)

theorem sound_trained : ∀ x0 x1, Sound x0 → Sound (State.trained x0 x1) := by
  intro x0 x1 h
  unfold State.trained
  repeat' (first | with_reducible assumption | with_reducible apply sound_setPort | with_reducible apply sound_ite)

theorem sound_sendTrain : ∀ x0 x1 x2, Sound x0 → Sound (State.sendTrain x0 x1 x2) := by
  intro x0 x1 x2 h
  unfold State.sendTrain
  repeat' (first
    | with_reducible assumption | with_reducible apply sound_sendSeg | with_reducible apply sound_trained
    | with_reducible apply sound_modNp | with_reducible apply sound_ite)

theorem sound_supLost : ∀ x0, Sound x0 → Sound (State.supLost x0) := by
  intro x0 h
  unfold State.supLost
  repeat' (first
    | with_reducible assumption | with_reducible apply sound_supStops | with_reducible apply sound_raise
    | with_reducible apply sound_put | with_reducible apply sound_ite)

theorem sound_masterLostEvent : ∀ x0 x1, Sound x1 → Sound (masterLostEvent x0 x1) := by
  intro x0 x1 h
  unfold masterLostEvent
  repeat' (first
    | with_reducible assumption | with_reducible apply sound_masterLost | with_reducible apply sound_ite | split)

theorem sound_linkUp : ∀ x0 x1, Sound x1 → Sound (linkUp x0 x1) := by
  intro x0 x1 h
  unfold linkUp
  repeat' (first
    | with_reducible assumption | with_reducible apply sound_enterTraining | with_reducible apply sound_ite)

theorem sound_trainReceived : ∀ x0 x1 x2 x3, Sound x3 → Sound (trainReceived x0 x1 x2 x3) := by
  intro x0 x1 x2 x3 h
  unfold trainReceived
  repeat' (first
    | with_reducible assumption | with_reducible apply sound_setPort | with_reducible apply sound_put
    | with_reducible apply sound_modNp | with_reducible apply sound_trained | with_reducible apply sound_delaySample
    | with_reducible apply sound_sendTrain | with_reducible apply sound_ite)

theorem sound_trainInterval : ∀ x0 x1, Sound x1 → Sound (trainInterval x0 x1) := by
  intro x0 x1 h
  unfold trainInterval
  repeat' (first
    | with_reducible assumption | with_reducible apply sound_modNp | with_reducible apply sound_sendTrain
    | with_reducible apply sound_ite)

theorem sound_trainTimeout : ∀ x0 x1, Sound x1 → Sound (trainTimeout x0 x1) := by
  intro x0 x1 h
  unfold trainTimeout
  repeat' (first
    | with_reducible assumption | with_reducible apply sound_enterTraining | with_reducible apply sound_count
    | with_reducible apply sound_ite)

theorem sound_loopReqTimeout : ∀ x0 x1, Sound x1 → Sound (loopReqTimeout x0 x1) := by
  intro x0 x1 h
  unfold loopReqTimeout
  repeat' (first
    | with_reducible assumption | with_reducible apply sound_enterTraining | with_reducible apply sound_ite)

theorem sound_linkLost : ∀ x0 x1, Sound x1 → Sound (linkLost x0 x1) := by
  intro x0 x1 h
  unfold linkLost
  repeat' (first | with_reducible assumption | with_reducible apply sound_enterDown | with_reducible apply sound_ite)

theorem sound_isolated : ∀ x0, Sound x0 → Sound (isolated x0) := by
  intro x0 h
  unfold isolated
  repeat' (first
    | with_reducible assumption | with_reducible apply sound_raise | with_reducible apply sound_put
    | with_reducible apply sound_modNet | with_reducible apply sound_portSession | with_reducible apply sound_supLost
    | with_reducible apply sound_ite)

theorem sound_holdoverExpiry : ∀ x0, Sound x0 → Sound (holdoverExpiry x0) := by
  intro x0 h
  unfold holdoverExpiry
  repeat' (first | with_reducible assumption | with_reducible apply sound_loseLock | with_reducible apply sound_ite)

theorem sound_supLostEvent : ∀ x0, Sound x0 → Sound (supLostEvent x0) := by
  intro x0 h
  unfold supLostEvent
  repeat' (first | with_reducible assumption | with_reducible apply sound_supLost | with_reducible apply sound_ite)

theorem sound_linkModeRefused : ∀ x0 x1, Sound x1 → Sound (linkModeRefused x0 x1) := by
  intro x0 x1 h
  unfold linkModeRefused
  repeat' (first
    | with_reducible assumption | with_reducible apply sound_setPort | with_reducible apply sound_put
    | with_reducible apply sound_ite)

theorem sound_prbsLock : ∀ x0 x1, Sound x1 → Sound (prbsLock x0 x1) := by
  intro x0 x1 h
  unfold prbsLock
  repeat' (first | with_reducible assumption | with_reducible apply sound_modNp | with_reducible apply sound_ite)

theorem sound_prbsLockLost : ∀ x0 x1, Sound x1 → Sound (prbsLockLost x0 x1) := by
  intro x0 x1 h
  unfold prbsLockLost
  repeat' (first
    | with_reducible assumption | with_reducible apply sound_count | with_reducible apply sound_modNp
    | with_reducible apply sound_ite)

theorem sound_prbsBitError : ∀ x0 x1, Sound x1 → Sound (prbsBitError x0 x1) := by
  intro x0 x1 h
  unfold prbsBitError
  repeat' (first | with_reducible assumption | with_reducible apply sound_count | with_reducible apply sound_ite)

/-! ## Cmp -/

theorem sound_endSelfTest : ∀ x0 x1, Sound x0 → Sound (State.endSelfTest x0 x1) := by
  intro x0 x1 h
  unfold State.endSelfTest
  repeat' (first
    | with_reducible assumption | with_reducible apply sound_put
    | (with_reducible apply sound_up; first | with_reducible assumption | with_reducible apply sound_put | with_reducible apply sound_ite | with_reducible apply sound_foldl | split))

theorem sound_applySelfTest : ∀ x0 x1 x2, Sound x0 → Sound (State.applySelfTest x0 x1 x2) := by
  intro x0 x1 x2 h
  unfold State.applySelfTest
  repeat' (first | with_reducible assumption | with_reducible apply sound_put)

theorem sound_startSelfTest : ∀ x0 x1, Sound x0 → Sound (State.startSelfTest x0 x1) := by
  intro x0 x1 h
  unfold State.startSelfTest
  repeat' (first
    | with_reducible assumption | with_reducible apply sound_applySelfTest
    | (with_reducible apply sound_up; first | with_reducible assumption | with_reducible apply sound_applySelfTest | with_reducible apply sound_ite | with_reducible apply sound_foldl | split))

theorem sound_cmpCfgWrite : ∀ x0 x1 x2 x3, Sound x3 → Sound (cmpCfgWrite x0 x1 x2 x3).2 := by
  intro x0 x1 x2 x3 h
  unfold cmpCfgWrite
  repeat' (first
    | with_reducible assumption | with_reducible apply sound_put | with_reducible apply sound_ite
    | with_reducible apply sound_ite2)

theorem sound_cmpDacWrite : ∀ x0 x1 x2, Sound x2 → Sound (cmpDacWrite x0 x1 x2).2 := by
  intro x0 x1 x2 h
  unfold cmpDacWrite
  repeat' (first | with_reducible assumption | with_reducible apply sound_put | with_reducible apply sound_ite2)

theorem sound_cmpRescale : ∀ x0 x1 x2 x3, Sound x0 → Sound (State.cmpRescale x0 x1 x2 x3) := by
  intro x0 x1 x2 x3 h
  unfold State.cmpRescale
  repeat' (first
    | with_reducible assumption | with_reducible apply sound_raiseIf | with_reducible apply sound_put | dsimp only
    | (with_reducible apply sound_up; first | with_reducible assumption | with_reducible apply sound_raiseIf | with_reducible apply sound_put | with_reducible apply sound_ite | with_reducible apply sound_foldl | split))

theorem sound_cmpFollow : ∀ x0 x1, Sound x1 → Sound (State.cmpFollow x0 x1) := by
  intro x0 x1 h
  unfold State.cmpFollow
  repeat' (first
    | with_reducible assumption | with_reducible apply sound_cmpRescale | with_reducible apply sound_ite
    | with_reducible apply sound_foldl | refine fun (s : State) _ (_ : Sound s) => ?_ | split)

theorem sound_selfTestFrame : ∀ x0, Sound x0 → Sound (State.selfTestFrame x0) := by
  intro x0 h
  unfold State.selfTestFrame
  repeat' (first
    | with_reducible assumption | with_reducible apply sound_applySelfTest | with_reducible apply sound_foldl
    | refine fun (s : State) _ (_ : Sound s) => ?_)

theorem sound_cmpEnable : ∀ x0, Sound x0 → Sound (cmpEnable x0) := by
  intro x0 h
  unfold cmpEnable
  repeat' (first
    | with_reducible assumption
    | (with_reducible apply sound_up; first | with_reducible assumption | with_reducible apply sound_ite | with_reducible apply sound_foldl | split))

theorem sound_cmpRelease : ∀ x0 x1 x2, Sound x2 → Sound (cmpRelease x0 x1 x2) := by
  intro x0 x1 x2 h
  unfold cmpRelease
  repeat' (first | with_reducible assumption | with_reducible apply sound_put | with_reducible apply sound_at)

theorem sound_cmpTrip : ∀ x0 x1 x2, Sound x2 → Sound (cmpTrip x0 x1 x2) := by
  intro x0 x1 x2 h
  unfold cmpTrip
  repeat' (first
    | with_reducible assumption | with_reducible apply sound_put | with_reducible apply sound_at
    | with_reducible apply sound_ite)

theorem sound_selfTestDone : ∀ x0 x1 x2, Sound x2 → Sound (selfTestDone x0 x1 x2) := by
  intro x0 x1 x2 h
  unfold selfTestDone
  repeat' (first
    | with_reducible assumption | with_reducible apply sound_put | with_reducible apply sound_endAct
    | with_reducible apply sound_endSelfTest | with_reducible apply sound_raiseIf | with_reducible apply sound_ite)

/-! ## Pmc -/

theorem sound_newConv : ∀ x0 x1 x2, Sound x0 → Sound (State.newConv x0 x1 x2).2 := by
  intro x0 x1 x2 h
  unfold State.newConv
  repeat' (first
    | with_reducible assumption | with_reducible apply sound_bump
    | (with_reducible apply sound_up; first | with_reducible assumption | with_reducible apply sound_bump | with_reducible apply sound_ite | with_reducible apply sound_foldl | split))

theorem sound_startA : ∀ x0 x1 x2, Sound x0 → Sound (State.startA x0 x1 x2) := by
  intro x0 x1 x2 h
  unfold State.startA
  repeat' (first
    | with_reducible assumption | with_reducible apply sound_newConv
    | (with_reducible apply sound_up; first | with_reducible assumption | with_reducible apply sound_newConv | with_reducible apply sound_ite | with_reducible apply sound_foldl | split))

theorem sound_startScan : ∀ x0 x1, Sound x0 → Sound (State.startScan x0 x1) := by
  intro x0 x1 h
  unfold State.startScan
  repeat' (first
    | with_reducible assumption | with_reducible apply sound_raise | with_reducible apply sound_startA | split)

theorem sound_aIdle : ∀ x0, Sound x0 → Sound (State.aIdle x0) := by
  intro x0 h
  unfold State.aIdle
  repeat' (first
    | with_reducible assumption | with_reducible apply sound_startScan | with_reducible apply sound_put
    | with_reducible apply sound_startA | with_reducible apply sound_ite)

theorem sound_aNext : ∀ x0 x1, Sound x0 → Sound (State.aNext x0 x1) := by
  intro x0 x1 h
  unfold State.aNext
  repeat' (first
    | with_reducible assumption | with_reducible apply sound_startA | with_reducible apply sound_aIdle
    | with_reducible apply sound_raise
    | (with_reducible apply sound_up; first | with_reducible assumption | with_reducible apply sound_startA | with_reducible apply sound_aIdle | with_reducible apply sound_raise | with_reducible apply sound_ite | with_reducible apply sound_foldl | split))

theorem sound_pmcShow : ∀ x0, Sound x0 → Sound (State.pmcShow x0) := by
  intro x0 h
  unfold State.pmcShow
  repeat' (first
    | with_reducible assumption | with_reducible apply sound_putB | with_reducible apply sound_put | split)

theorem sound_pmcbGrant : ∀ x0, Sound x0 → Sound (State.pmcbGrant x0) := by
  intro x0 h
  unfold State.pmcbGrant
  repeat' (first
    | with_reducible assumption | with_reducible apply sound_pmcShow
    | (with_reducible apply sound_up; first | with_reducible assumption | with_reducible apply sound_pmcShow | with_reducible apply sound_ite | with_reducible apply sound_foldl | split))

theorem sound_startXcheck : ∀ x0, Sound x0 → Sound (State.startXcheck x0) := by
  intro x0 h
  unfold State.startXcheck
  repeat' (first
    | with_reducible assumption | with_reducible apply sound_pmcbGrant
    | (with_reducible apply sound_up; first | with_reducible assumption | with_reducible apply sound_pmcbGrant | with_reducible apply sound_ite | with_reducible apply sound_foldl | split))

theorem sound_pmcResult : ∀ x0 x1 x2 x3 x4, Sound x0 → Sound (State.pmcResult x0 x1 x2 x3 x4) := by
  intro x0 x1 x2 x3 x4 h
  unfold State.pmcResult
  repeat' (first
    | with_reducible assumption | with_reducible apply sound_wr | with_reducible apply sound_bump
    | (with_reducible apply sound_up; first | with_reducible assumption | with_reducible apply sound_wr | with_reducible apply sound_bump | with_reducible apply sound_ite | with_reducible apply sound_foldl | split))

theorem sound_pmcInvalid : ∀ x0 x1, Sound x0 → Sound (State.pmcInvalid x0 x1) := by
  intro x0 x1 h
  unfold State.pmcInvalid
  repeat' (first
    | with_reducible assumption | with_reducible apply sound_pmcResult
    | (with_reducible apply sound_up; first | with_reducible assumption | with_reducible apply sound_pmcResult | with_reducible apply sound_ite | with_reducible apply sound_foldl | split))

theorem sound_pmcAbort : ∀ x0, Sound x0 → Sound (State.pmcAbort x0) := by
  intro x0 h
  unfold State.pmcAbort
  repeat' (first
    | with_reducible assumption | with_reducible apply sound_pmcInvalid
    | (with_reducible apply sound_up; first | with_reducible assumption | with_reducible apply sound_pmcInvalid | with_reducible apply sound_ite | with_reducible apply sound_foldl | split))

theorem sound_pmcStop : ∀ x0, Sound x0 → Sound (pmcStop x0) := by
  intro x0 h
  unfold pmcStop
  repeat' (first
    | with_reducible assumption | with_reducible apply sound_pmcShow | with_reducible apply sound_pmcAbort
    | with_reducible apply sound_put)

theorem sound_urgentRequest : ∀ x0, Sound x0 → Sound (urgentRequest x0) := by
  intro x0 h
  unfold urgentRequest
  repeat' (first
    | with_reducible assumption | with_reducible apply sound_pmcShow | with_reducible apply sound_startScan
    | with_reducible apply sound_raise | with_reducible apply sound_bump | with_reducible apply sound_ite)

theorem sound_scanStart : ∀ x0, Sound x0 → Sound (State.scanStart x0) := by
  intro x0 h
  unfold State.scanStart
  repeat' (first
    | with_reducible assumption | with_reducible apply sound_startScan | with_reducible apply sound_raise
    | with_reducible apply sound_bump | with_reducible apply sound_put | with_reducible apply sound_ite)

theorem sound_pmcStart : ∀ x0, Sound x0 → Sound (pmcStart x0) := by
  intro x0 h
  unfold pmcStart
  repeat' (first
    | with_reducible assumption | with_reducible apply sound_pmcShow | with_reducible apply sound_scanStart
    | with_reducible apply sound_put | with_reducible apply sound_startScan | with_reducible apply sound_startA
    | with_reducible apply sound_ite)

theorem sound_pmcCtrlWrite : ∀ x0 x1, Sound x1 → Sound (pmcCtrlWrite x0 x1).2 := by
  intro x0 x1 h
  unfold pmcCtrlWrite
  repeat' (first
    | with_reducible assumption | with_reducible apply sound_pmcStop | with_reducible apply sound_urgentRequest
    | with_reducible apply sound_pmcStart | with_reducible apply sound_ite | with_reducible apply sound_ite2)

theorem sound_pmcScanCfgWrite : ∀ x0 x1, Sound x1 → Sound (pmcScanCfgWrite x0 x1).2 := by
  intro x0 x1 h
  unfold pmcScanCfgWrite
  repeat' (first | with_reducible assumption | with_reducible apply sound_wr | with_reducible apply sound_ite2)

theorem sound_refUnready : ∀ x0, Sound x0 → Sound (State.refUnready x0) := by
  intro x0 h
  unfold State.refUnready
  repeat' (first
    | with_reducible assumption | with_reducible apply sound_put
    | (with_reducible apply sound_up; first | with_reducible assumption | with_reducible apply sound_put | with_reducible apply sound_ite | with_reducible apply sound_foldl | split))

theorem sound_refChanged : ∀ x0, Sound x0 → Sound (State.refChanged x0) := by
  intro x0 h
  unfold State.refChanged
  repeat' (first
    | with_reducible assumption | with_reducible apply sound_refUnready
    | (with_reducible apply sound_up; first | with_reducible assumption | with_reducible apply sound_refUnready | with_reducible apply sound_ite | with_reducible apply sound_foldl | split))

theorem sound_pmcRefWrite : ∀ x0 x1 x2, Sound x2 → Sound (pmcRefWrite x0 x1 x2).2 := by
  intro x0 x1 x2 h
  unfold pmcRefWrite
  repeat' (first
    | with_reducible assumption | with_reducible apply sound_wr | with_reducible apply sound_refChanged
    | with_reducible apply sound_refUnready | with_reducible apply sound_ite | with_reducible apply sound_ite2)

theorem sound_refFailedClear : ∀ x0 x1, Sound x1 → Sound (refFailedClear x0 x1) := by
  intro x0 x1 h
  unfold refFailedClear
  repeat' (first
    | with_reducible assumption | with_reducible apply sound_put | with_reducible apply sound_ite
    | with_reducible apply sound_foldl | refine fun (s : State) _ (_ : Sound s) => ?_)

theorem sound_pmcCfgWrite : ∀ x0 x1 x2, Sound x2 → Sound (pmcCfgWrite x0 x1 x2).2 := by
  intro x0 x1 x2 h
  unfold pmcCfgWrite
  repeat' (first
    | with_reducible assumption | with_reducible apply sound_wr | with_reducible apply sound_ite2
    | (with_reducible apply sound_up; first | with_reducible assumption | with_reducible apply sound_wr | with_reducible apply sound_ite | with_reducible apply sound_foldl | split))

theorem sound_pmcLimWrite : ∀ x0 x1 x2 x3, Sound x3 → Sound (pmcLimWrite x0 x1 x2 x3) := by
  intro x0 x1 x2 x3 h
  unfold pmcLimWrite
  repeat' (first | with_reducible assumption | with_reducible apply sound_put | with_reducible apply sound_ite)

theorem sound_pmcFrame : ∀ x0, Sound x0 → Sound (State.pmcFrame x0) := by
  intro x0 h
  unfold State.pmcFrame
  repeat' (first
    | with_reducible assumption | with_reducible apply sound_scanStart | with_reducible apply sound_pmcShow
    | with_reducible apply sound_raise | with_reducible apply sound_aIdle | with_reducible apply sound_ite)

theorem sound_markSuspect : ∀ x0, Sound x0 → Sound (State.markSuspect x0) := by
  intro x0 h
  unfold State.markSuspect
  repeat' (first
    | with_reducible assumption | with_reducible apply sound_put | refine fun (s : State) _ (_ : Sound s) => ?_
    | (with_reducible apply sound_up; first | with_reducible assumption | with_reducible apply sound_put | with_reducible apply sound_ite | with_reducible apply sound_foldl | split))

theorem sound_noMajority : ∀ x0, Sound x0 → Sound (State.noMajority x0) := by
  intro x0 h
  unfold State.noMajority
  repeat' (first
    | with_reducible assumption | with_reducible apply sound_markSuspect | with_reducible apply sound_put
    | with_reducible apply sound_raise | with_reducible apply sound_ite)

theorem sound_refFail : ∀ x0 x1, Sound x0 → Sound (State.refFail x0 x1) := by
  intro x0 x1 h
  unfold State.refFail
  repeat' (first | with_reducible assumption | with_reducible apply sound_raise | with_reducible apply sound_put)

theorem sound_oddMember : ∀ x0 x1, Sound x0 → Sound (State.oddMember x0 x1) := by
  intro x0 x1 h
  unfold State.oddMember
  repeat' (first
    | with_reducible assumption | with_reducible apply sound_refFail | with_reducible apply sound_put
    | with_reducible apply sound_noMajority | with_reducible apply sound_markSuspect
    | with_reducible apply sound_raise | with_reducible apply sound_refChanged | split)

theorem sound_pmcLimit : ∀ x0 x1 x2, Sound x0 → Sound (State.pmcLimit x0 x1 x2) := by
  intro x0 x1 x2 h
  unfold State.pmcLimit
  repeat' (first | with_reducible assumption | with_reducible apply sound_putB | with_reducible apply sound_raiseIf)

theorem sound_pmcValid : ∀ x0 x1 x2, Sound x0 → Sound (State.pmcValid x0 x1 x2) := by
  intro x0 x1 x2 h
  unfold State.pmcValid
  repeat' (first
    | with_reducible assumption | with_reducible apply sound_putB | with_reducible apply sound_pmcLimit
    | with_reducible apply sound_pmcResult | with_reducible apply sound_raiseIf
    | (with_reducible apply sound_up; first | with_reducible assumption | with_reducible apply sound_putB | with_reducible apply sound_pmcLimit | with_reducible apply sound_pmcResult | with_reducible apply sound_raiseIf | with_reducible apply sound_ite | with_reducible apply sound_foldl | split))

theorem sound_pmcFinish : ∀ x0 x1 x2, Sound x0 → Sound (State.pmcFinish x0 x1 x2) := by
  intro x0 x1 x2 h
  unfold State.pmcFinish
  repeat' (first
    | with_reducible assumption | with_reducible apply sound_pmcValid | with_reducible apply sound_pmcInvalid
    | with_reducible apply sound_ite)

theorem sound_refOutcome : ∀ x0 x1 x2 x3, Sound x0 → Sound (State.refOutcome x0 x1 x2 x3) := by
  intro x0 x1 x2 x3 h
  unfold State.refOutcome
  repeat' (first
    | with_reducible assumption | with_reducible apply sound_put | with_reducible apply sound_noMajority
    | with_reducible apply sound_oddMember | with_reducible apply sound_raise
    | (with_reducible apply sound_up; first | with_reducible assumption | with_reducible apply sound_put | with_reducible apply sound_noMajority | with_reducible apply sound_oddMember | with_reducible apply sound_raise | with_reducible apply sound_ite | with_reducible apply sound_foldl | split))

theorem sound_refWarn : ∀ x0 x1 x2, Sound x0 → Sound (State.refWarn x0 x1 x2) := by
  intro x0 x1 x2 h
  unfold State.refWarn
  repeat' (first
    | with_reducible assumption | with_reducible apply sound_raise | with_reducible apply sound_put
    | (with_reducible apply sound_up; first | with_reducible assumption | with_reducible apply sound_raise | with_reducible apply sound_put | with_reducible apply sound_ite | with_reducible apply sound_foldl | split))

theorem sound_startB : ∀ x0, Sound x0 → Sound (State.startB x0) := by
  intro x0 h
  unfold State.startB
  repeat' (first
    | with_reducible assumption | with_reducible apply sound_newConv
    | (with_reducible apply sound_up; first | with_reducible assumption | with_reducible apply sound_newConv | with_reducible apply sound_ite | with_reducible apply sound_foldl | split))

theorem sound_anaOkChange : ∀ x0 x1, Sound x1 → Sound (anaOkChange x0 x1) := by
  intro x0 x1 h
  unfold anaOkChange
  repeat' (first
    | with_reducible assumption | with_reducible apply sound_anaChange | with_reducible apply sound_pmcShow
    | with_reducible apply sound_pmcAbort
    | (with_reducible apply sound_up; first | with_reducible assumption | with_reducible apply sound_anaChange | with_reducible apply sound_pmcShow | with_reducible apply sound_pmcAbort | with_reducible apply sound_ite | with_reducible apply sound_foldl | split))

theorem sound_conversionDone : ∀ x0 x1 x2, Sound x2 → Sound (conversionDone x0 x1 x2) := by
  intro x0 x1 x2 h
  unfold conversionDone
  repeat' (first
    | with_reducible assumption | with_reducible apply sound_pmcFinish | with_reducible apply sound_pmcShow
    | with_reducible apply sound_startB | with_reducible apply sound_aNext
    | (with_reducible apply sound_up; first | with_reducible assumption | with_reducible apply sound_pmcFinish | with_reducible apply sound_pmcShow | with_reducible apply sound_startB | with_reducible apply sound_aNext | with_reducible apply sound_ite | with_reducible apply sound_foldl | split))

theorem sound_dacReadbackDone : ∀ x0 x1 x2, Sound x2 → Sound (dacReadbackDone x0 x1 x2) := by
  intro x0 x1 x2 h
  unfold dacReadbackDone
  repeat' (first
    | with_reducible assumption | with_reducible apply sound_wr | with_reducible apply sound_bump
    | with_reducible apply sound_raiseIf | with_reducible apply sound_put | with_reducible apply sound_pmcShow
    | with_reducible apply sound_endAct
    | (with_reducible apply sound_up; first | with_reducible assumption | with_reducible apply sound_wr | with_reducible apply sound_bump | with_reducible apply sound_raiseIf | with_reducible apply sound_put | with_reducible apply sound_pmcShow | with_reducible apply sound_endAct | with_reducible apply sound_ite | with_reducible apply sound_foldl | split))

theorem sound_scanTrigger : ∀ x0, Sound x0 → Sound (scanTrigger x0) := by
  intro x0 h
  unfold scanTrigger
  repeat' (first
    | with_reducible assumption | with_reducible apply sound_pmcShow | with_reducible apply sound_scanStart
    | with_reducible apply sound_raise | with_reducible apply sound_bump | with_reducible apply sound_ite)

theorem sound_interleaveB : ∀ x0, Sound x0 → Sound (interleaveB x0) := by
  intro x0 h
  unfold interleaveB
  repeat' (first
    | with_reducible assumption | with_reducible apply sound_pmcShow | with_reducible apply sound_startB
    | with_reducible apply sound_ite)

theorem sound_refReady : ∀ x0, Sound x0 → Sound (refReady x0) := by
  intro x0 h
  unfold refReady
  repeat' (first
    | with_reducible assumption | with_reducible apply sound_put | with_reducible apply sound_raise
    | (with_reducible apply sound_up; first | with_reducible assumption | with_reducible apply sound_put | with_reducible apply sound_raise | with_reducible apply sound_ite | with_reducible apply sound_foldl | split))

theorem sound_refXcheckDone : ∀ x0 x1 x2 x3, Sound x3 → Sound (refXcheckDone x0 x1 x2 x3) := by
  intro x0 x1 x2 x3 h
  unfold refXcheckDone
  repeat' (first
    | with_reducible assumption | with_reducible apply sound_put | with_reducible apply sound_refWarn
    | with_reducible apply sound_pmcShow | with_reducible apply sound_endAct | with_reducible apply sound_refOutcome
    | (with_reducible apply sound_up; first | with_reducible assumption | with_reducible apply sound_put | with_reducible apply sound_refWarn | with_reducible apply sound_pmcShow | with_reducible apply sound_endAct | with_reducible apply sound_refOutcome | with_reducible apply sound_ite | with_reducible apply sound_foldl | split))

/-! ## Pwm -/

theorem sound_modCur : ∀ x0 x1 x2, Sound x0 → Sound (State.modCur x0 x1 x2) := by
  intro x0 x1 x2 h
  unfold State.modCur
  repeat' (first
    | with_reducible assumption
    | (with_reducible apply sound_up; first | with_reducible assumption | with_reducible apply sound_ite | with_reducible apply sound_foldl | split))

theorem sound_modPh : ∀ x0 x1 x2, Sound x0 → Sound (State.modPh x0 x1 x2) := by
  intro x0 x1 x2 h
  unfold State.modPh
  repeat' (first
    | with_reducible assumption
    | (with_reducible apply sound_up; first | with_reducible assumption | with_reducible apply sound_ite | with_reducible apply sound_foldl | split))

theorem sound_lateCommit : ∀ x0, Sound x0 → Sound (State.lateCommit x0) := by
  intro x0 h
  unfold State.lateCommit
  repeat' (first | with_reducible assumption | with_reducible apply sound_raise | with_reducible apply sound_bump)

theorem sound_pwmCommit : ∀ x0 x1 x2, Sound x2 → Sound (pwmCommit x0 x1 x2).2 := by
  intro x0 x1 x2 h
  unfold pwmCommit
  repeat' (first
    | with_reducible assumption | with_reducible apply sound_modBr | with_reducible apply sound_lateCommit
    | with_reducible apply sound_ite2 | with_reducible apply sound_modBr | exact fun _ (hb : Bridge.safe _) => hb)

theorem sound_pwmForce : ∀ x0 x1 x2, Sound x2 → Sound (pwmForce x0 x1 x2).2 := by
  intro x0 x1 x2 h
  unfold pwmForce
  repeat' (first | with_reducible assumption | with_reducible apply sound_put | with_reducible apply sound_ite2)

theorem sound_auxCommit : ∀ x0 x1 x2, Sound x2 → Sound (auxCommit x0 x1 x2) := by
  intro x0 x1 x2 h
  unfold auxCommit
  repeat' (first
    | with_reducible assumption | with_reducible apply sound_modAxu | with_reducible apply sound_lateCommit
    | with_reducible apply sound_ite)

theorem sound_auxCfgWrite : ∀ x0 x1 x2 x3, Sound x3 → Sound (auxCfgWrite x0 x1 x2 x3).2 := by
  intro x0 x1 x2 x3 h
  unfold auxCfgWrite
  repeat' (first
    | with_reducible assumption | with_reducible apply sound_put | with_reducible apply sound_modAxu
    | with_reducible apply sound_wr | with_reducible apply sound_ite2)

theorem sound_timerCfgWrite : ∀ x0 x1 x2, Sound x2 → Sound (timerCfgWrite x0 x1 x2) := by
  intro x0 x1 x2 h
  unfold timerCfgWrite
  repeat' (first
    | with_reducible assumption | with_reducible apply sound_wr
    | (with_reducible apply sound_up; first | with_reducible assumption | with_reducible apply sound_wr | with_reducible apply sound_ite | with_reducible apply sound_foldl | split))

theorem sound_faultLatchClear : ∀ x0 x1, Sound x1 → Sound (faultLatchClear x0 x1) := by
  intro x0 x1 h
  unfold faultLatchClear
  repeat' (first
    | with_reducible assumption | with_reducible apply sound_raiseIf | with_reducible apply sound_wr
    | with_reducible apply sound_put | with_reducible apply sound_ite | with_reducible apply sound_foldl
    | refine fun (s : State) _ (_ : Sound s) => ?_)

theorem sound_pwmFaultForce : ∀ x0 x1, Sound x1 → Sound (pwmFaultForce x0 x1) := by
  intro x0 x1 h
  unfold pwmFaultForce
  repeat' (first
    | with_reducible assumption | with_reducible apply sound_faultSource | with_reducible apply sound_ite
    | with_reducible apply sound_foldl | refine fun (s : State) _ (_ : Sound s) => ?_)

theorem sound_evtStatusClear : ∀ x0 x1, Sound x1 → Sound (evtStatusClear x0 x1) := by
  intro x0 x1 h
  unfold evtStatusClear
  repeat' (first
    | with_reducible assumption | with_reducible apply sound_put | with_reducible apply sound_wr
    | with_reducible apply sound_ite | with_reducible apply sound_foldl
    | refine fun (s : State) _ (_ : Sound s) => ?_)

theorem sound_pwmRestart : ∀ x0, Sound x0 → Sound (State.pwmRestart x0) := by
  intro x0 h
  unfold State.pwmRestart
  repeat' (first
    | with_reducible assumption | with_reducible apply sound_wr | with_reducible apply sound_modAxu
    | with_reducible apply sound_modPw | with_reducible apply sound_modPh
    | refine fun (s : State) _ (_ : Sound s) => ?_ | exact fun _ (hb : Bridge.safe _) => hb
    | (with_reducible apply sound_up; first | with_reducible assumption | with_reducible apply sound_wr | with_reducible apply sound_modBr | with_reducible apply sound_modAxu | with_reducible apply sound_modPw | with_reducible apply sound_modPh | with_reducible apply sound_ite | with_reducible apply sound_foldl | split))

theorem sound_auxBoundary : ∀ x0 x1 x2 x3, Sound x0 → Sound (State.auxBoundary x0 x1 x2 x3) := by
  intro x0 x1 x2 x3 h
  unfold State.auxBoundary
  repeat' (first
    | with_reducible assumption | with_reducible apply sound_modAxu | with_reducible apply sound_put
    | with_reducible apply sound_putB | with_reducible apply sound_ite)

theorem sound_passCommits : ∀ x0, Sound x0 → Sound (State.passCommits x0) := by
  intro x0 h
  unfold State.passCommits
  repeat' (first
    | with_reducible assumption | with_reducible apply sound_modBr | with_reducible apply sound_modAxu
    | with_reducible apply sound_modPw | with_reducible apply sound_foldl | with_reducible apply sound_modBr
    | refine fun (s : State) _ (_ : Sound s) => ?_ | exact fun _ (hb : Bridge.safe _) => hb | split)

theorem safe_pattern (b : Bridge) (x : Bool) (h : b.safe) : ({ b with h := x, l := !x } : Bridge).safe :=
  ⟨h.1, fun e => by cases x <;> simp at e⟩

theorem sound_beginPeriod : ∀ s k, Sound s → Sound (State.beginPeriod s k) := by
  intro s k h
  unfold State.beginPeriod
  dsimp only
  refine sound_ite (sound_modBr _ _ _ (fun b hb => safe_pattern b _ hb) (sound_ite ?_ h)) h
  exact sound_bump _ _ _ (sound_modBr _ _ _ (fun b hb => hb) h)

theorem sound_setLevel : ∀ x0 x1 x2, Sound x0 → Sound (State.setLevel x0 x1 x2) := by
  intro x0 x1 x2 h
  unfold State.setLevel
  repeat' (first | with_reducible assumption | with_reducible apply sound_modPw)

theorem sound_endPeriod : ∀ x0 x1 x2, Sound x0 → Sound (State.endPeriod x0 x1 x2) := by
  intro x0 x1 x2 h
  unfold State.endPeriod
  repeat' (first
    | with_reducible assumption | with_reducible apply sound_putB | with_reducible apply sound_modBr
    | with_reducible apply sound_put | with_reducible apply sound_modBr | exact fun _ (hb : Bridge.safe _) => hb)

theorem sound_guardEnd : ∀ x0 x1, Sound x0 → Sound (State.guardEnd x0 x1) := by
  intro x0 x1 h
  unfold State.guardEnd
  repeat' (first | with_reducible assumption | with_reducible apply sound_put | with_reducible apply sound_setLevel)

theorem sound_guardRelease : ∀ x0 x1 x2, Sound x0 → Sound (State.guardRelease x0 x1 x2) := by
  intro x0 x1 x2 h
  unfold State.guardRelease
  repeat' (first
    | with_reducible assumption | with_reducible apply sound_setLevel | with_reducible apply sound_put
    | with_reducible apply sound_raise)

theorem sound_guardEnter : ∀ x0 x1, Sound x0 → Sound (State.guardEnter x0 x1) := by
  intro x0 x1 h
  unfold State.guardEnter
  repeat' (first
    | with_reducible assumption | with_reducible apply sound_guardRelease | with_reducible apply sound_raise
    | with_reducible apply sound_put | with_reducible apply sound_ite)

theorem sound_loadLevel : ∀ x0 x1, Sound x0 → Sound (State.loadLevel x0 x1) := by
  intro x0 x1 h
  unfold State.loadLevel
  repeat' (first
    | with_reducible assumption | with_reducible apply sound_modPw | with_reducible apply sound_guardEnter
    | with_reducible apply sound_raise | with_reducible apply sound_put | with_reducible apply sound_ite | split)

theorem sound_openCheckStart : ∀ x0 x1 x2, Sound x0 → Sound (State.openCheckStart x0 x1 x2) := by
  intro x0 x1 x2 h
  unfold State.openCheckStart
  repeat' (first | with_reducible assumption | with_reducible apply sound_modPh | with_reducible apply sound_ite)

theorem sound_takeRelease : ∀ x0 x1, Sound x0 → Sound (State.takeRelease x0 x1) := by
  intro x0 x1 h
  unfold State.takeRelease
  repeat' (first
    | with_reducible assumption | with_reducible apply sound_modCur | with_reducible apply sound_guardEnd
    | with_reducible apply sound_ite)

theorem sound_timerZero : ∀ x0 x1 x2, Sound x0 → Sound (State.timerZero x0 x1 x2) := by
  intro x0 x1 x2 h
  unfold State.timerZero
  repeat' (first
    | with_reducible assumption
    | (with_reducible apply sound_up; first | with_reducible assumption | with_reducible apply sound_ite | with_reducible apply sound_foldl | split))

theorem sound_pwmBoundary : ∀ x0 x1, Sound x1 → Sound (pwmBoundary x0 x1) := by
  intro x0 x1 h
  unfold pwmBoundary
  repeat' (first
    | with_reducible assumption | with_reducible apply sound_endPeriod | with_reducible apply sound_modPw
    | with_reducible apply sound_takeRelease | with_reducible apply sound_loadLevel
    | with_reducible apply sound_beginPeriod | with_reducible apply sound_auxBoundary
    | with_reducible apply sound_timerZero | with_reducible apply sound_modCh
    | with_reducible apply sound_closeWindow | with_reducible apply sound_openCheckStart
    | with_reducible apply sound_ite | with_reducible apply sound_foldl
    | refine fun (s : State) _ (_ : Sound s) => ?_)

theorem sound_timerEvent : ∀ x0 x1 x2, Sound x2 → Sound (timerEvent x0 x1 x2) := by
  intro x0 x1 x2 h
  unfold timerEvent
  repeat' (first | with_reducible assumption | with_reducible apply sound_put | with_reducible apply sound_ite)

/-! ## Cur -/

theorem sound_setCoil : ∀ x0 x1 x2, Sound x0 → Sound (State.setCoil x0 x1 x2) := by
  intro x0 x1 x2 h
  unfold State.setCoil
  repeat' (first | with_reducible assumption | with_reducible apply sound_put)

theorem sound_curArm : ∀ x0 x1, Sound x0 → Sound (State.curArm x0 x1) := by
  intro x0 x1 h
  unfold State.curArm
  repeat' (first
    | with_reducible assumption | with_reducible apply sound_setCoil | with_reducible apply sound_modCur
    | with_reducible apply sound_modPh | with_reducible apply sound_putB)

theorem sound_curDisarm : ∀ x0 x1 x2, Sound x0 → Sound (State.curDisarm x0 x1 x2) := by
  intro x0 x1 x2 h
  unfold State.curDisarm
  repeat' (first | with_reducible assumption | with_reducible apply sound_put | with_reducible apply sound_setCoil)

theorem sound_dropCal : ∀ x0 x1, Sound x0 → Sound (State.dropCal x0 x1) := by
  intro x0 x1 h
  unfold State.dropCal
  repeat' (first | with_reducible assumption | with_reducible apply sound_put)

theorem sound_curCfgWrite : ∀ x0 x1 x2 x3, Sound x3 → Sound (curCfgWrite x0 x1 x2 x3).2 := by
  intro x0 x1 x2 x3 h
  unfold curCfgWrite
  repeat' (first
    | with_reducible assumption | with_reducible apply sound_wr | with_reducible apply sound_dropCal
    | with_reducible apply sound_ite | with_reducible apply sound_ite2)

theorem sound_standstillWrite : ∀ x0 x1 x2, Sound x2 → Sound (standstillWrite x0 x1 x2).2 := by
  intro x0 x1 x2 h
  unfold standstillWrite
  repeat' (first | with_reducible assumption | with_reducible apply sound_wr | with_reducible apply sound_ite2)

theorem sound_guardWrite : ∀ x0 x1 x2, Sound x2 → Sound (guardWrite x0 x1 x2).2 := by
  intro x0 x1 x2 h
  unfold guardWrite
  repeat' (first
    | with_reducible assumption | with_reducible apply sound_copyPf | with_reducible apply sound_put
    | with_reducible apply sound_modCur | with_reducible apply sound_ite | with_reducible apply sound_ite2)

theorem sound_commOffsetWrite : ∀ x0 x1 x2, Sound x2 → Sound (commOffsetWrite x0 x1 x2) := by
  intro x0 x1 x2 h
  unfold commOffsetWrite
  repeat' (first | with_reducible assumption | with_reducible apply sound_put)

theorem sound_encScaleWrite : ∀ x0 x1 x2 x3 x4, Sound x4 → Sound (encScaleWrite x0 x1 x2 x3 x4).2 := by
  intro x0 x1 x2 x3 x4 h
  unfold encScaleWrite
  repeat' (first
    | with_reducible assumption | with_reducible apply sound_dropCal | with_reducible apply sound_wr
    | with_reducible apply sound_ite | with_reducible apply sound_ite2)

theorem sound_checkPass : ∀ x0 x1 x2, Sound x0 → Sound (State.checkPass x0 x1 x2) := by
  intro x0 x1 x2 h
  unfold State.checkPass
  repeat' (first
    | with_reducible assumption | with_reducible apply sound_put | with_reducible apply sound_modPh
    | with_reducible apply sound_raiseIf)

theorem sound_clFallback : ∀ x0 x1, Sound x0 → Sound (State.clFallback x0 x1) := by
  intro x0 x1 h
  unfold State.clFallback
  repeat' (first
    | with_reducible assumption | with_reducible apply sound_raise | with_reducible apply sound_put
    | with_reducible apply sound_ite)

theorem sound_commutate : ∀ x0 x1, Sound x0 → Sound (State.commutate x0 x1) := by
  intro x0 x1 h
  unfold State.commutate
  repeat' (first
    | with_reducible assumption | with_reducible apply sound_putS | with_reducible apply sound_put
    | with_reducible apply sound_ite)

theorem sound_curAmp : ∀ x0 x1, Sound x0 → Sound (State.curAmp x0 x1) := by
  intro x0 x1 h
  unfold State.curAmp
  repeat' (first
    | with_reducible assumption | with_reducible apply sound_modCur | with_reducible apply sound_setCoil
    | with_reducible apply sound_ite)

theorem sound_curTripDisarm : ∀ x0 x1, Sound x0 → Sound (State.curTripDisarm x0 x1) := by
  intro x0 x1 h
  unfold State.curTripDisarm
  repeat' (first
    | with_reducible assumption | with_reducible apply sound_curDisarm | with_reducible apply sound_modPw
    | with_reducible apply sound_setLevel | with_reducible apply sound_ite)

theorem sound_diagFrame : ∀ x0 x1, Sound x0 → Sound (State.diagFrame x0 x1) := by
  intro x0 x1 h
  unfold State.diagFrame
  repeat' (first | with_reducible assumption | with_reducible apply sound_putB | with_reducible apply sound_modPh)

theorem sound_outWord : ∀ x0 x1 x2, Sound x0 → Sound (State.outWord x0 x1 x2) := by
  intro x0 x1 x2 h
  unfold State.outWord
  repeat' (first
    | with_reducible assumption
    | (with_reducible apply sound_up; first | with_reducible assumption | with_reducible apply sound_ite | with_reducible apply sound_foldl | split))

theorem sound_writeCompares : ∀ x0 x1 x2 x3 x4, Sound x0 → Sound (State.writeCompares x0 x1 x2 x3 x4) := by
  intro x0 x1 x2 x3 x4 h
  unfold State.writeCompares
  repeat' (first | with_reducible assumption | with_reducible apply sound_outWord)

theorem sound_runLoop : ∀ x0 x1 x2, Sound x0 → Sound (State.runLoop x0 x1 x2) := by
  intro x0 x1 x2 h
  unfold State.runLoop
  repeat' (first
    | with_reducible assumption | with_reducible apply sound_modPh | with_reducible apply sound_put
    | with_reducible apply sound_writeCompares | with_reducible apply sound_putS | with_reducible apply sound_ite)

theorem sound_phaseFrame : ∀ x0 x1 x2, Sound x0 → Sound (State.phaseFrame x0 x1 x2).2 := by
  intro x0 x1 x2 h
  unfold State.phaseFrame
  repeat' (first
    | with_reducible assumption | with_reducible apply sound_modPh | with_reducible apply sound_put
    | with_reducible apply sound_runLoop | with_reducible apply sound_ite2)

theorem sound_loops : ∀ x0 x1 x2 x3, Sound x0 → Sound (State.loops x0 x1 x2 x3) := by
  intro x0 x1 x2 x3 h
  unfold State.loops
  repeat' (first
    | with_reducible assumption | with_reducible apply sound_phaseFrame | with_reducible apply sound_raise
    | with_reducible apply sound_bump | with_reducible apply sound_ite | with_reducible apply sound_ite2)

theorem sound_encCalFrame : ∀ x0 x1, Sound x0 → Sound (State.encCalFrame x0 x1) := by
  intro x0 x1 h
  unfold State.encCalFrame
  repeat' (first | with_reducible assumption | with_reducible apply sound_modAx | split)

theorem sound_showCurrent : ∀ x0 x1 x2, Sound x0 → Sound (State.showCurrent x0 x1 x2) := by
  intro x0 x1 x2 h
  unfold State.showCurrent
  repeat' (first | with_reducible assumption | with_reducible apply sound_putS | with_reducible apply sound_ite)

theorem sound_rescaleAxis : ∀ x0 x1 x2, Sound x0 → Sound (State.rescaleAxis x0 x1 x2) := by
  intro x0 x1 x2 h
  unfold State.rescaleAxis
  extract_lets old step fields r a
  have hr : Sound r.2 := by
    have : ∀ (l : List (Fld × Nat)) (a : Bool × State), Sound a.2 → Sound (l.foldl step a).2 := by
      intro l
      induction l with
      | nil => intro a ha; exact ha
      | cons c l ih => intro a ha; exact ih _ (sound_put _ _ _ ha)
    exact this _ _ h
  exact sound_ite h (sound_raiseIf _ _ _ (sound_modCur _ _ _ hr))

theorem sound_rangeSettle : ∀ x0 x1 x2, Sound x0 → Sound (State.rangeSettle x0 x1 x2) := by
  intro x0 x1 x2 h
  unfold State.rangeSettle
  repeat' (first
    | with_reducible assumption | with_reducible apply sound_raise | with_reducible apply sound_put
    | with_reducible apply sound_rescaleAxis | with_reducible apply sound_ite)

theorem sound_judgeCheck : ∀ x0 x1 x2 x3 x4, Sound x0 → Sound (State.judgeCheck x0 x1 x2 x3 x4) := by
  intro x0 x1 x2 x3 x4 h
  unfold State.judgeCheck
  repeat' (first
    | with_reducible assumption | with_reducible apply sound_checkPass | with_reducible apply sound_modPh
    | with_reducible apply sound_ite)

theorem sound_openCheck : ∀ x0 x1 x2, Sound x0 → Sound (State.openCheck x0 x1 x2) := by
  intro x0 x1 x2 h
  unfold State.openCheck
  repeat' (first
    | with_reducible assumption | with_reducible apply sound_modPh | with_reducible apply sound_judgeCheck
    | with_reducible apply sound_foldl | refine fun (s : State) _ (_ : Sound s) => ?_ | split)

theorem sound_encCalDone : ∀ x0 x1, Sound x1 → Sound (encCalDone x0 x1) := by
  intro x0 x1 h
  unfold encCalDone
  repeat' (first
    | with_reducible assumption | with_reducible apply sound_modAx | with_reducible apply sound_raise
    | with_reducible apply sound_put | with_reducible apply sound_endAct | split)

theorem sound_senseLost : ∀ x0 x1, Sound x1 → Sound (senseLost x0 x1) := by
  intro x0 x1 h
  unfold senseLost
  repeat' (first
    | with_reducible assumption | with_reducible apply sound_modPh | with_reducible apply sound_faultSource
    | with_reducible apply sound_raise | with_reducible apply sound_ite)

theorem sound_loopSat : ∀ x0 x1 x2, Sound x2 → Sound (loopSat x0 x1 x2) := by
  intro x0 x1 x2 h
  unfold loopSat
  repeat' (first
    | with_reducible assumption | with_reducible apply sound_raise | with_reducible apply sound_put
    | with_reducible apply sound_ite)

theorem sound_standstillDelay : ∀ x0 x1, Sound x1 → Sound (standstillDelay x0 x1) := by
  intro x0 x1 h
  unfold standstillDelay
  repeat' (first
    | with_reducible assumption | with_reducible apply sound_modCur | with_reducible apply sound_setCoil
    | with_reducible apply sound_ite)

theorem sound_stretchPulse : ∀ x0 x1 x2, Sound x2 → Sound (stretchPulse x0 x1 x2) := by
  intro x0 x1 x2 h
  unfold stretchPulse
  repeat' (first
    | with_reducible assumption | with_reducible apply sound_bump | with_reducible apply sound_modPh
    | with_reducible apply sound_ite)

theorem sound_openCoil : ∀ x0 x1 x2, Sound x2 → Sound (openCoil x0 x1 x2) := by
  intro x0 x1 x2 h
  unfold openCoil
  repeat' (first
    | with_reducible assumption | with_reducible apply sound_raise | with_reducible apply sound_put
    | with_reducible apply sound_faultSource | with_reducible apply sound_ite)

theorem sound_phaseAgeOut : ∀ x0 x1 x2, Sound x2 → Sound (phaseAgeOut x0 x1 x2) := by
  intro x0 x1 x2 h
  unfold phaseAgeOut
  repeat' (first | with_reducible assumption | with_reducible apply sound_put | with_reducible apply sound_ite)

/-! ## Obs -/

theorem sound_devRefSet : ∀ x0 x1, Sound x0 → Sound (State.devRefSet x0 x1) := by
  intro x0 x1 h
  unfold State.devRefSet
  repeat' (first | with_reducible assumption | with_reducible apply sound_put | with_reducible apply sound_putWideS)

theorem sound_posFull : ∀ x0 x1 x2, Sound x2 → Sound (posFull x0 x1 x2).2 := by
  intro x0 x1 x2 h
  unfold posFull
  repeat' (first
    | with_reducible assumption | with_reducible apply sound_posWrite | with_reducible apply sound_devRefSet
    | with_reducible apply sound_ite)

theorem sound_fbPosFull : ∀ x0 x1 x2, Sound x2 → Sound (fbPosFull x0 x1 x2).2 := by
  intro x0 x1 x2 h
  unfold fbPosFull
  repeat' (first
    | with_reducible assumption | with_reducible apply sound_fbPosWrite | with_reducible apply sound_devRefSet
    | with_reducible apply sound_ite)

theorem sound_devRefDrop : ∀ x0 x1, Sound x0 → Sound (State.devRefDrop x0 x1) := by
  intro x0 x1 h
  unfold State.devRefDrop
  repeat' (first | with_reducible assumption | with_reducible apply sound_put)

theorem sound_encScaleFull : ∀ x0 x1 x2 x3 x4, Sound x4 → Sound (encScaleFull x0 x1 x2 x3 x4).2 := by
  intro x0 x1 x2 x3 x4 h
  unfold encScaleFull
  repeat' (first
    | with_reducible assumption | with_reducible apply sound_encScaleWrite | with_reducible apply sound_devRefDrop
    | with_reducible apply sound_ite)

theorem sound_fbCfgFull : ∀ x0 x1 x2 x3, Sound x3 → Sound (fbCfgFull x0 x1 x2 x3).2 := by
  intro x0 x1 x2 x3 h
  unfold fbCfgFull
  repeat' (first
    | with_reducible assumption | with_reducible apply sound_fbCfgWrite | with_reducible apply sound_devRefDrop
    | with_reducible apply sound_ite)

theorem sound_obsCfgWrite : ∀ x0 x1 x2 x3, Sound x3 → Sound (obsCfgWrite x0 x1 x2 x3).2 := by
  intro x0 x1 x2 x3 h
  unfold obsCfgWrite
  repeat' (first | with_reducible assumption | with_reducible apply sound_wr | with_reducible apply sound_ite2)

theorem sound_modOb : ∀ x0 x1 x2, Sound x0 → Sound (State.modOb x0 x1 x2) := by
  intro x0 x1 x2 h
  unfold State.modOb
  repeat' (first
    | with_reducible assumption
    | (with_reducible apply sound_up; first | with_reducible assumption | with_reducible apply sound_ite | with_reducible apply sound_foldl | split))

theorem sound_motorRWrite : ∀ x0 x1 x2, Sound x2 → Sound (motorRWrite x0 x1 x2).2 := by
  intro x0 x1 x2 h
  unfold motorRWrite
  repeat' (first
    | with_reducible assumption | with_reducible apply sound_modOb | with_reducible apply sound_put
    | with_reducible apply sound_ite2)

theorem sound_devCfgWrite : ∀ x0 x1 x2 x3, Sound x3 → Sound (devCfgWrite x0 x1 x2 x3).2 := by
  intro x0 x1 x2 x3 h
  unfold devCfgWrite
  repeat' (first
    | with_reducible assumption | with_reducible apply sound_wr | with_reducible apply sound_devRefSet
    | with_reducible apply sound_ite | with_reducible apply sound_ite2)

theorem sound_stallPublish : ∀ x0 x1, Sound x0 → Sound (State.stallPublish x0 x1) := by
  intro x0 x1 h
  unfold State.stallPublish
  repeat' (first
    | with_reducible assumption | with_reducible apply sound_raise | with_reducible apply sound_bump
    | with_reducible apply sound_put | with_reducible apply sound_modOb | with_reducible apply sound_ite)

theorem sound_obsRecord : ∀ x0 x1, Sound x0 → Sound (State.obsRecord x0 x1) := by
  intro x0 x1 h
  unfold State.obsRecord
  repeat' (first | with_reducible assumption | with_reducible apply sound_modOb)

theorem sound_obsPublish : ∀ x0 x1 x2, Sound x0 → Sound (State.obsPublish x0 x1 x2) := by
  intro x0 x1 x2 h
  unfold State.obsPublish
  repeat' (first
    | with_reducible assumption | with_reducible apply sound_putS | with_reducible apply sound_put
    | with_reducible apply sound_modOb)

theorem sound_obsStall : ∀ x0 x1, Sound x0 → Sound (State.obsStall x0 x1) := by
  intro x0 x1 h
  unfold State.obsStall
  repeat' (first
    | with_reducible assumption | with_reducible apply sound_put | with_reducible apply sound_putB
    | with_reducible apply sound_modOb | with_reducible apply sound_ite)

theorem sound_obsFilter : ∀ x0 x1 x2, Sound x0 → Sound (State.obsFilter x0 x1 x2) := by
  intro x0 x1 x2 h
  unfold State.obsFilter
  repeat' (first | with_reducible assumption | with_reducible apply sound_modOb)

theorem sound_devAdopt : ∀ x0 x1, Sound x0 → Sound (State.devAdopt x0 x1) := by
  intro x0 x1 h
  unfold State.devAdopt
  repeat' (first
    | with_reducible assumption | with_reducible apply sound_posWrite | with_reducible apply sound_raise
    | with_reducible apply sound_modOb | with_reducible apply sound_ite)

theorem sound_devDeclare : ∀ x0 x1, Sound x0 → Sound (State.devDeclare x0 x1) := by
  intro x0 x1 h
  unfold State.devDeclare
  repeat' (first
    | with_reducible assumption | with_reducible apply sound_modOb | with_reducible apply sound_put
    | with_reducible apply sound_raise | with_reducible apply sound_bump | with_reducible apply sound_cause
    | with_reducible apply sound_devAdopt | with_reducible apply sound_ite)

theorem sound_devCheck : ∀ x0 x1, Sound x0 → Sound (State.devCheck x0 x1) := by
  intro x0 x1 h
  unfold State.devCheck
  repeat' (first
    | with_reducible assumption | with_reducible apply sound_putB | with_reducible apply sound_put
    | with_reducible apply sound_putS | with_reducible apply sound_devAdopt | with_reducible apply sound_modOb
    | with_reducible apply sound_devDeclare | with_reducible apply sound_ite)

theorem sound_obsTrack : ∀ x0 x1, Sound x0 → Sound (State.obsTrack x0 x1) := by
  intro x0 x1 h
  unfold State.obsTrack
  repeat' (first
    | with_reducible assumption | with_reducible apply sound_put | with_reducible apply sound_modOb
    | with_reducible apply sound_raise | with_reducible apply sound_ite)

theorem sound_obsUpdate : ∀ x0 x1, Sound x0 → Sound (State.obsUpdate x0 x1) := by
  intro x0 x1 h
  unfold State.obsUpdate
  repeat' (first
    | with_reducible assumption | with_reducible apply sound_put | with_reducible apply sound_putB
    | with_reducible apply sound_modOb | with_reducible apply sound_putS | with_reducible apply sound_obsPublish
    | with_reducible apply sound_obsStall | with_reducible apply sound_obsFilter
    | with_reducible apply sound_devCheck | with_reducible apply sound_obsTrack | with_reducible apply sound_ite)

theorem sound_obsFrame : ∀ x0 x1 x2, Sound x0 → Sound (State.obsFrame x0 x1 x2) := by
  intro x0 x1 x2 h
  unfold State.obsFrame
  repeat' (first
    | with_reducible assumption | with_reducible apply sound_obsRecord | with_reducible apply sound_obsUpdate
    | with_reducible apply sound_ite)

theorem sound_devLatch : ∀ x0 x1, Sound x0 → Sound (State.devLatch x0 x1) := by
  intro x0 x1 h
  unfold State.devLatch
  repeat' (first
    | with_reducible assumption | with_reducible apply sound_modOb | with_reducible apply sound_devRefDrop
    | with_reducible apply sound_raise | with_reducible apply sound_put | with_reducible apply sound_ite)

theorem sound_stallLatch : ∀ x0 x1, Sound x0 → Sound (State.stallLatch x0 x1) := by
  intro x0 x1 h
  unfold State.stallLatch
  repeat' (first
    | with_reducible assumption | with_reducible apply sound_modOb | with_reducible apply sound_modAx
    | with_reducible apply sound_cause | with_reducible apply sound_put | with_reducible apply sound_ite)

/-! ## MaintCmd -/

theorem sound_undoAct : ∀ x0 x1 x2 x3, Sound x0 → Sound (State.undoAct x0 x1 x2 x3) := by
  intro x0 x1 x2 x3 h
  unfold State.undoAct
  repeat' (first
    | with_reducible assumption | with_reducible apply sound_endPrbs | with_reducible apply sound_endSelfTest
    | with_reducible apply sound_abortSession | with_reducible apply sound_endOffCal
    | with_reducible apply sound_cause | with_reducible apply sound_modAx | split)

theorem sound_abortSlot : ∀ x0 x1 x2, Sound x0 → Sound (State.abortSlot x0 x1 x2) := by
  intro x0 x1 x2 h
  unfold State.abortSlot
  repeat' (first
    | with_reducible assumption | with_reducible apply sound_pmcShow | with_reducible apply sound_endSlot
    | with_reducible apply sound_undoAct | with_reducible apply sound_ite)

theorem sound_abortAll : ∀ x0 x1, Sound x0 → Sound (State.abortAll x0 x1) := by
  intro x0 x1 h
  unfold State.abortAll
  repeat' (first
    | with_reducible assumption | with_reducible apply sound_abortSlot | with_reducible apply sound_foldl
    | refine fun (s : State) _ (_ : Sound s) => ?_)

theorem sound_startAct : ∀ x0 x1 x2, Sound x0 → Sound (State.startAct x0 x1 x2) := by
  intro x0 x1 x2 h
  unfold State.startAct
  repeat' (first
    | with_reducible assumption | with_reducible apply sound_startPrbs | with_reducible apply sound_startSelfTest
    | with_reducible apply sound_pmcbGrant | with_reducible apply sound_startXcheck
    | with_reducible apply sound_startOffCal | with_reducible apply sound_modAx
    | (with_reducible apply sound_up; first | with_reducible assumption | with_reducible apply sound_startPrbs | with_reducible apply sound_startSelfTest | with_reducible apply sound_pmcbGrant | with_reducible apply sound_startXcheck | with_reducible apply sound_startOffCal | with_reducible apply sound_modAx | with_reducible apply sound_ite | with_reducible apply sound_foldl | split))

theorem sound_request : ∀ x0 x1 x2 x3, Sound x0 → Sound (State.request x0 x1 x2 x3).2.2 := by
  intro x0 x1 x2 x3 h
  unfold State.request
  repeat' (first
    | with_reducible assumption | with_reducible apply sound_claim | with_reducible apply sound_startAct
    | with_reducible apply sound_ite)

theorem sound_maintRequest : ∀ x0 x1 x2, Sound x2 → Sound (maintRequest x0 x1 x2) := by
  intro x0 x1 x2 h
  unfold maintRequest
  repeat' (first
    | with_reducible assumption | with_reducible apply sound_request | with_reducible apply sound_keepResult)

theorem sound_maintAbort : ∀ x0 x1, Sound x1 → Sound (maintAbort x0 x1) := by
  intro x0 x1 h
  unfold maintAbort
  repeat' (first | with_reducible assumption | with_reducible apply sound_abortSlot)

theorem sound_startupMeasure : ∀ x0, Sound x0 → Sound (State.startupMeasure x0) := by
  intro x0 h
  unfold State.startupMeasure
  repeat' (first | with_reducible assumption | with_reducible apply sound_request | with_reducible apply sound_ite)

theorem sound_maintTimeout : ∀ x0 x1, Sound x1 → Sound (maintTimeout x0 x1) := by
  intro x0 x1 h
  unfold maintTimeout
  repeat' (first
    | with_reducible assumption | with_reducible apply sound_abortSlot | with_reducible apply sound_logEntry
    | with_reducible apply sound_ite)

theorem sound_scheduledStart : ∀ x0 x1, Sound x1 → Sound (scheduledStart x0 x1) := by
  intro x0 x1 h
  unfold scheduledStart
  repeat' (first
    | with_reducible assumption | with_reducible apply sound_request | with_reducible apply sound_bump
    | with_reducible apply sound_ite)

/-! ## Gdr -/

theorem sound_bstUvClear : ∀ x0 x1, Sound x1 → Sound (bstUvClear x0 x1) := by
  intro x0 x1 h
  unfold bstUvClear
  repeat' (first
    | with_reducible assumption | with_reducible apply sound_put | with_reducible apply sound_ite
    | with_reducible apply sound_foldl | refine fun (s : State) _ (_ : Sound s) => ?_)

theorem sound_hsFailClear : ∀ x0 x1, Sound x1 → Sound (hsFailClear x0 x1) := by
  intro x0 x1 h
  unfold hsFailClear
  repeat' (first
    | with_reducible assumption | with_reducible apply sound_put | with_reducible apply sound_ite
    | with_reducible apply sound_foldl | refine fun (s : State) _ (_ : Sound s) => ?_)

theorem sound_vdrvTripClear : ∀ x0 x1, Sound x1 → Sound (vdrvTripClear x0 x1) := by
  intro x0 x1 h
  unfold vdrvTripClear
  repeat' (first | with_reducible assumption | with_reducible apply sound_put | with_reducible apply sound_ite)

theorem sound_vdrvTrip : ∀ x0, Sound x0 → Sound (State.vdrvTrip x0) := by
  intro x0 h
  unfold State.vdrvTrip
  repeat' (first | with_reducible assumption | with_reducible apply sound_raise | with_reducible apply sound_put)

theorem sound_demandEdge : ∀ k t s, Sound s → Sound (demandEdge k t s) := by
  intro k t s h
  unfold demandEdge
  exact sound_ite (sound_modBr _ _ _ (fun b hb => safe_pattern b _ hb) h) h

theorem sound_bstUvEvent : ∀ x0 x1, Sound x1 → Sound (bstUvEvent x0 x1) := by
  intro x0 x1 h
  unfold bstUvEvent
  repeat' (first
    | with_reducible assumption | with_reducible apply sound_put | with_reducible apply sound_bump
    | with_reducible apply sound_modBr | with_reducible apply sound_raise | with_reducible apply sound_ite
    | with_reducible apply sound_modBr | exact fun _ (hb : Bridge.safe _) => hb)

theorem sound_drvEnHigh : ∀ x0, Sound x0 → Sound (drvEnHigh x0) := by
  intro x0 h
  unfold drvEnHigh
  repeat' (first
    | with_reducible assumption | with_reducible apply sound_raise | with_reducible apply sound_put
    | with_reducible apply sound_ite)

theorem sound_drvEnLow : ∀ x0, Sound x0 → Sound (drvEnLow x0) := by
  intro x0 h
  unfold drvEnLow
  repeat' (first
    | with_reducible assumption | with_reducible apply sound_raise | with_reducible apply sound_put
    | with_reducible apply sound_modAx | with_reducible apply sound_guardRelease | with_reducible apply sound_ite
    | with_reducible apply sound_foldl | refine fun (s : State) _ (_ : Sound s) => ?_)

theorem sound_drvEnLowHeld : ∀ x0, Sound x0 → Sound (drvEnLowHeld x0) := by
  intro x0 h
  unfold drvEnLowHeld
  repeat' (first
    | with_reducible assumption | with_reducible apply sound_put | with_reducible apply sound_ite
    | with_reducible apply sound_foldl | refine fun (s : State) _ (_ : Sound s) => ?_)

theorem sound_gateTurnOn : ∀ k d s, Sound s → Sound (gateTurnOn k d s) := by
  intro k d s h
  have key : ∀ (f : Bridge → Bridge), (f (s.br k)).safe → Sound (s.modBr k f) := fun f hf =>
    ⟨h.1, bridgesSafe_set h.2 k _ hf⟩
  have hb := sound_br s k h
  unfold gateTurnOn
  dsimp only
  split
  · split
    · next e =>
      refine sound_put _ _ _ (key _ ⟨fun x => ?_, hb.2⟩)
      have y : (s.br k).lsOn = true := x.2
      rw [y] at e
      simp at e
    · exact h
  · split
    · next e =>
      refine sound_put _ _ _ (key _ ⟨fun x => ?_, hb.2⟩)
      have y : (s.br k).hsOn = true := x.1
      rw [y] at e
      simp at e
    · exact h
  · exact h

theorem sound_handshakeTimeout : ∀ x0 x1, Sound x1 → Sound (handshakeTimeout x0 x1) := by
  intro x0 x1 h
  unfold handshakeTimeout
  repeat' (first
    | with_reducible assumption | with_reducible apply sound_raise | with_reducible apply sound_put
    | with_reducible apply sound_modBr | with_reducible apply sound_ite | with_reducible apply sound_modBr
    | exact fun _ (hb : Bridge.safe _) => hb)

theorem sound_vdsTripHeld : ∀ x0 x1 x2, Sound x2 → Sound (vdsTripHeld x0 x1 x2) := by
  intro x0 x1 x2 h
  unfold vdsTripHeld
  repeat' (first | with_reducible assumption | with_reducible apply sound_put | with_reducible apply sound_ite)

theorem sound_vdsTrip : ∀ x0 x1 x2, Sound x2 → Sound (vdsTrip x0 x1 x2) := by
  intro x0 x1 x2 h
  unfold vdsTrip
  repeat' (first
    | with_reducible assumption | with_reducible apply sound_put | with_reducible apply sound_raise
    | with_reducible apply sound_guardRelease | with_reducible apply sound_ite)

theorem sound_faultNLow : ∀ x0, Sound x0 → Sound (faultNLow x0) := by
  intro x0 h
  unfold faultNLow
  repeat' (first
    | with_reducible assumption | with_reducible apply sound_raise | with_reducible apply sound_put
    | with_reducible apply sound_ite)

theorem sound_vdsRelease : ∀ x0 x1 x2, Sound x2 → Sound (vdsRelease x0 x1 x2) := by
  intro x0 x1 x2 h
  unfold vdsRelease
  repeat' (first | with_reducible assumption | with_reducible apply sound_put)

theorem sound_gateOffReached : ∀ k x s, Sound s → Sound (gateOffReached k x s) := by
  intro k x s h
  unfold gateOffReached
  refine sound_modBr _ _ _ (fun b hb => ?_) h
  split
  · split
    · exact hb
    · exact hb
  · split
    · exact hb
    · exact hb

/-! ## Sup -/

theorem sound_calSet : ∀ x0 x1, Sound x1 → Sound (calSet x0 x1).2 := by
  intro x0 x1 h
  unfold calSet
  repeat' (first
    | with_reducible assumption | with_reducible apply sound_put | with_reducible apply sound_wr
    | (with_reducible apply sound_up; first | with_reducible assumption | with_reducible apply sound_put | with_reducible apply sound_wr | with_reducible apply sound_ite | with_reducible apply sound_foldl | split))

theorem sound_vmCfgWrite : ∀ x0 x1 x2, Sound x2 → Sound (vmCfgWrite x0 x1 x2).2 := by
  intro x0 x1 x2 h
  unfold vmCfgWrite
  repeat' (first
    | with_reducible assumption | with_reducible apply sound_plainWrite | with_reducible apply sound_ite2)

theorem sound_setVdrv : ∀ x0 x1, Sound x0 → Sound (State.setVdrv x0 x1) := by
  intro x0 x1 h
  unfold State.setVdrv
  repeat' (first | with_reducible assumption | with_reducible apply sound_putB)

theorem sound_vdrvFall : ∀ x0, Sound x0 → Sound (State.vdrvFall x0) := by
  intro x0 h
  unfold State.vdrvFall
  repeat' (first
    | with_reducible assumption | with_reducible apply sound_setVdrv | with_reducible apply sound_vdrvTrip
    | with_reducible apply sound_raise | with_reducible apply sound_ite)

theorem sound_vdrvCfgWrite : ∀ x0 x1 x2, Sound x2 → Sound (vdrvCfgWrite x0 x1 x2).2 := by
  intro x0 x1 x2 h
  unfold vdrvCfgWrite
  repeat' (first
    | with_reducible assumption | with_reducible apply sound_plainWrite | with_reducible apply sound_vdrvFall
    | with_reducible apply sound_ite)

theorem sound_cutCommit : ∀ x0, Sound x0 → Sound (State.cutCommit x0) := by
  intro x0 h
  unfold State.cutCommit
  repeat' (first
    | with_reducible assumption | with_reducible apply sound_fresh | with_reducible apply sound_setCopies | split)

theorem sound_cutStore : ∀ x0 x1, Sound x0 → Sound (State.cutStore x0 x1) := by
  intro x0 x1 h
  unfold State.cutStore
  split
  · exact h
  · exact h

theorem wf_keep (s : State) (l : List (Nat × Nat)) (m : SMap Word) (h : SMap.wf resetWord m = true) :
    SMap.wf resetWord (l.foldl (fun (m : SMap Word) (p : Nat × Nat) =>
      SMap.set resetWord m p.1 (mergeMask (resetWord p.1) (s.rd p.1) p.2)) m) = true := by
  induction l generalizing m with
  | nil => exact h
  | cons p l ih => exact ih _ (SMap.wf_set _ _ _ _ h)

theorem wf_keptRegs (s : State) (c : Nat) : SMap.wf resetWord (s.keptRegs c) = true := by
  unfold State.keptRegs
  exact SMap.wf_set _ _ _ _ (SMap.wf_set _ _ _ _ (wf_keep s _ [] rfl))

theorem safe_resetGates (s : State) (h : Sound s) : BridgesSafe s.resetGates := by
  intro b hb
  unfold State.resetGates at hb
  simp only [Vector.toList_ofFn, List.mem_ofFn] at hb
  obtain ⟨k, rfl⟩ := hb
  have h1 := safe_off _ true (sound_br s k h)
  refine ⟨fun e => by simp [restBridge] at e, fun e => by simp [restBridge] at e⟩

theorem sound_controlReset : ∀ s c p, Sound s → Sound (State.controlReset s c p) := by
  intro s c p h
  have h1 : Sound (otpInterrupted ((s.cutStore (decide (4 ≤ c ∧ c ≤ 6))).cutCommit)) :=
    sound_otpInterrupted _ (sound_cutCommit _ (sound_cutStore _ _ h))
  unfold State.controlReset
  exact sound_plsShow _ (sound_logShow _ ⟨wf_keptRegs _ _, safe_resetGates _ h1⟩)

theorem sound_rstCmd : ∀ x0 x1, Sound x1 → Sound (rstCmd x0 x1).2 := by
  intro x0 x1 h
  unfold rstCmd
  repeat' (first
    | with_reducible assumption | with_reducible apply sound_controlReset | with_reducible apply sound_ite2)

theorem sound_wdtCfgWrite : ∀ x0 x1, Sound x1 → Sound (wdtCfgWrite x0 x1).2 := by
  intro x0 x1 h
  unfold wdtCfgWrite
  repeat' (first
    | with_reducible assumption | with_reducible apply sound_put | with_reducible apply sound_ite2
    | (with_reducible apply sound_up; first | with_reducible assumption | with_reducible apply sound_put | with_reducible apply sound_ite | with_reducible apply sound_foldl | split))

theorem sound_wdtKick : ∀ x0 x1, Sound x1 → Sound (wdtKick x0 x1).2 := by
  intro x0 x1 h
  unfold wdtKick
  repeat' (first
    | with_reducible assumption
    | (with_reducible apply sound_up; first | with_reducible assumption | with_reducible apply sound_ite | with_reducible apply sound_foldl | split))

theorem sound_calStatusClear : ∀ x0 x1, Sound x1 → Sound (calStatusClear x0 x1) := by
  intro x0 x1 h
  unfold calStatusClear
  repeat' (first | with_reducible assumption | with_reducible apply sound_put | with_reducible apply sound_ite)

theorem sound_endTableWrite : ∀ x0, Sound x0 → Sound (State.endTableWrite x0) := by
  intro x0 h
  unfold State.endTableWrite
  repeat' (first | with_reducible assumption | with_reducible apply sound_put | with_reducible apply sound_ite)

theorem sound_endHalt : ∀ x0 x1, Sound x0 → Sound (State.endHalt x0 x1) := by
  intro x0 x1 h
  unfold State.endHalt
  repeat' (first
    | with_reducible assumption | with_reducible apply sound_endTableWrite
    | (with_reducible apply sound_up; first | with_reducible assumption | with_reducible apply sound_endTableWrite | with_reducible apply sound_ite | with_reducible apply sound_foldl | split))

theorem sound_reach : ∀ x0 x1, Sound x0 → Sound (State.reach x0 x1) := by
  intro x0 x1 h
  unfold State.reach
  repeat' (first
    | with_reducible assumption | with_reducible apply sound_put
    | (with_reducible apply sound_up; first | with_reducible assumption | with_reducible apply sound_put | with_reducible apply sound_ite | with_reducible apply sound_foldl | split))

theorem sound_calStops : ∀ x0, Sound x0 → Sound (State.calStops x0) := by
  intro x0 h
  unfold State.calStops
  repeat' (first | with_reducible assumption | with_reducible apply sound_put | with_reducible apply sound_ite)

theorem sound_dropCommits : ∀ x0, Sound x0 → Sound (State.dropCommits x0) := by
  intro x0 h
  unfold State.dropCommits
  repeat' (first
    | with_reducible assumption | with_reducible apply sound_nvsShow | with_reducible apply sound_nvResult
    | (with_reducible apply sound_up; first | with_reducible assumption | with_reducible apply sound_nvsShow | with_reducible apply sound_nvResult | with_reducible apply sound_ite | with_reducible apply sound_foldl | split))

theorem sound_calSnapshot : ∀ x0, Sound x0 → Sound (calSnapshot x0) := by
  intro x0 h
  unfold calSnapshot
  repeat' (first | with_reducible assumption | with_reducible apply sound_wr)

theorem sound_monitor : ∀ x0 x1 x2 x3, Sound x0 → Sound (State.monitor x0 x1 x2 x3) := by
  intro x0 x1 x2 x3 h
  unfold State.monitor
  repeat' (first
    | with_reducible assumption | with_reducible apply sound_putB | with_reducible apply sound_raise
    | with_reducible apply sound_ite)

theorem sound_newSecond : ∀ x0 x1, Sound x0 → Sound (State.newSecond x0 x1) := by
  intro x0 x1 h
  unfold State.newSecond
  repeat' (first
    | with_reducible assumption
    | (with_reducible apply sound_up; first | with_reducible assumption | with_reducible apply sound_ite | with_reducible apply sound_foldl | split))

theorem sound_resetShort : ∀ x0 x1, Sound x0 → Sound (State.resetShort x0 x1) := by
  intro x0 x1 h
  unfold State.resetShort
  repeat' (first | with_reducible assumption | with_reducible apply sound_put | with_reducible apply sound_ite)

theorem sound_backupPor : ∀ x0, Sound x0 → Sound (backupPor x0) := by
  intro x0 h
  unfold backupPor
  repeat' (first
    | with_reducible assumption | with_reducible apply sound_controlReset | with_reducible apply sound_wr
    | with_reducible apply sound_put
    | (with_reducible apply sound_up; first | with_reducible assumption | with_reducible apply sound_controlReset | with_reducible apply sound_wr | with_reducible apply sound_put | with_reducible apply sound_ite | with_reducible apply sound_foldl | split))

theorem sound_calNetSync : ∀ x0, Sound x0 → Sound (calNetSync x0) := by
  intro x0 h
  unfold calNetSync
  repeat' (first
    | with_reducible assumption
    | (with_reducible apply sound_up; first | with_reducible assumption | with_reducible apply sound_ite | with_reducible apply sound_foldl | split))

theorem sound_calSecond : ∀ x0, Sound x0 → Sound (calSecond x0) := by
  intro x0 h
  unfold calSecond
  repeat' (first
    | with_reducible assumption | with_reducible apply sound_put | with_reducible apply sound_newSecond
    | with_reducible apply sound_raise
    | (with_reducible apply sound_up; first | with_reducible assumption | with_reducible apply sound_put | with_reducible apply sound_newSecond | with_reducible apply sound_raise | with_reducible apply sound_ite | with_reducible apply sound_foldl | split))

theorem sound_powerUp : ∀ x0, Sound x0 → Sound (powerUp x0) := by
  intro x0 h
  unfold powerUp
  repeat' (first
    | with_reducible assumption | with_reducible apply sound_putB
    | (with_reducible apply sound_up; first | with_reducible assumption | with_reducible apply sound_putB | with_reducible apply sound_ite | with_reducible apply sound_foldl | split))

theorem sound_supplyReset : ∀ x0, Sound x0 → Sound (supplyReset x0) := by
  intro x0 h
  unfold supplyReset
  repeat' (first
    | with_reducible assumption | with_reducible apply sound_calStops | with_reducible apply sound_controlReset
    | with_reducible apply sound_resetShort | with_reducible apply sound_ite)

theorem sound_watchdogExpire : ∀ x0, Sound x0 → Sound (watchdogExpire x0) := by
  intro x0 h
  unfold watchdogExpire
  repeat' (first
    | with_reducible assumption | with_reducible apply sound_controlReset | with_reducible apply sound_ite)

theorem sound_resetRelease : ∀ x0, Sound x0 → Sound (resetRelease x0) := by
  intro x0 h
  unfold resetRelease
  repeat' (first
    | with_reducible assumption | with_reducible apply sound_logEntry
    | (with_reducible apply sound_up; first | with_reducible assumption | with_reducible apply sound_logEntry | with_reducible apply sound_ite | with_reducible apply sound_foldl | split))

theorem sound_vmFail : ∀ x0, Sound x0 → Sound (vmFail x0) := by
  intro x0 h
  unfold vmFail
  repeat' (first
    | with_reducible assumption | with_reducible apply sound_put | with_reducible apply sound_endHalt
    | with_reducible apply sound_dropCommits | with_reducible apply sound_abortAll | with_reducible apply sound_raise
    | (with_reducible apply sound_up; first | with_reducible assumption | with_reducible apply sound_put | with_reducible apply sound_endHalt | with_reducible apply sound_dropCommits | with_reducible apply sound_abortAll | with_reducible apply sound_raise | with_reducible apply sound_ite | with_reducible apply sound_foldl | split))

theorem sound_vmGood : ∀ x0, Sound x0 → Sound (vmGood x0) := by
  intro x0 h
  unfold vmGood
  repeat' (first
    | with_reducible assumption | with_reducible apply sound_put | with_reducible apply sound_raise
    | (with_reducible apply sound_up; first | with_reducible assumption | with_reducible apply sound_put | with_reducible apply sound_raise | with_reducible apply sound_ite | with_reducible apply sound_foldl | split))

theorem sound_vdrvFail : ∀ x0 x1, Sound x1 → Sound (vdrvFail x0 x1) := by
  intro x0 x1 h
  unfold vdrvFail
  repeat' (first
    | with_reducible assumption | with_reducible apply sound_vdrvFall
    | (with_reducible apply sound_up; first | with_reducible assumption | with_reducible apply sound_vdrvFall | with_reducible apply sound_ite | with_reducible apply sound_foldl | split))

theorem sound_vdrvReady : ∀ x0, Sound x0 → Sound (vdrvReady x0) := by
  intro x0 h
  unfold vdrvReady
  repeat' (first | with_reducible assumption | with_reducible apply sound_setVdrv | with_reducible apply sound_ite)

theorem sound_tsd : ∀ x0, Sound x0 → Sound (tsd x0) := by
  intro x0 h
  unfold tsd
  repeat' (first
    | with_reducible assumption | with_reducible apply sound_vdrvFall | with_reducible apply sound_monitor)

theorem sound_huReady : ∀ x0, Sound x0 → Sound (huReady x0) := by
  intro x0 h
  unfold huReady
  repeat' (first
    | with_reducible assumption | with_reducible apply sound_startupMeasure | with_reducible apply sound_monitor)

theorem sound_shed : ∀ x0, Sound x0 → Sound (shed x0) := by
  intro x0 h
  unfold shed
  repeat' (first
    | with_reducible assumption | with_reducible apply sound_calStops | with_reducible apply sound_controlReset
    | with_reducible apply sound_resetShort
    | (with_reducible apply sound_up; first | with_reducible assumption | with_reducible apply sound_calStops | with_reducible apply sound_controlReset | with_reducible apply sound_resetShort | with_reducible apply sound_ite | with_reducible apply sound_foldl | split))

theorem sound_shedRestart : ∀ x0, Sound x0 → Sound (shedRestart x0) := by
  intro x0 h
  unfold shedRestart
  repeat' (first
    | with_reducible assumption | with_reducible apply sound_powerUp
    | (with_reducible apply sound_up; first | with_reducible assumption | with_reducible apply sound_powerUp | with_reducible apply sound_ite | with_reducible apply sound_foldl | split))

theorem sound_guardDomainReset : ∀ x0, Sound x0 → Sound (guardDomainReset x0) := by
  intro x0 h
  unfold guardDomainReset
  repeat' (first
    | with_reducible assumption | with_reducible apply sound_guardEnd | with_reducible apply sound_put
    | refine fun (s : State) _ (_ : Sound s) => ?_
    | (with_reducible apply sound_up; first | with_reducible assumption | with_reducible apply sound_guardEnd | with_reducible apply sound_put | with_reducible apply sound_ite | with_reducible apply sound_foldl | split))

theorem sound_oscStop : ∀ x0, Sound x0 → Sound (oscStop x0) := by
  intro x0 h
  unfold oscStop
  repeat' (first
    | with_reducible assumption | with_reducible apply sound_put | with_reducible apply sound_calStops
    | with_reducible apply sound_raise
    | (with_reducible apply sound_up; first | with_reducible assumption | with_reducible apply sound_put | with_reducible apply sound_calStops | with_reducible apply sound_raise | with_reducible apply sound_ite | with_reducible apply sound_foldl | split))

theorem sound_oscResume : ∀ x0, Sound x0 → Sound (oscResume x0) := by
  intro x0 h
  unfold oscResume
  repeat' (first
    | with_reducible assumption | with_reducible apply sound_put
    | (with_reducible apply sound_up; first | with_reducible assumption | with_reducible apply sound_put | with_reducible apply sound_ite | with_reducible apply sound_foldl | split))

theorem sound_vdrvRestart : ∀ x0, Sound x0 → Sound (vdrvRestart x0) := by
  intro x0 h
  unfold vdrvRestart
  repeat' (first
    | with_reducible assumption
    | (with_reducible apply sound_up; first | with_reducible assumption | with_reducible apply sound_ite | with_reducible apply sound_foldl | split))

/-! ## Table -/

theorem sound_setTableWord : ∀ x0 x1 x2, Sound x0 → Sound (State.setTableWord x0 x1 x2) := by
  intro x0 x1 x2 h
  unfold State.setTableWord
  repeat' (first
    | with_reducible assumption
    | (with_reducible apply sound_up; first | with_reducible assumption | with_reducible apply sound_ite | with_reducible apply sound_foldl | split))

theorem sound_reloadTable : ∀ x0, Sound x0 → Sound (State.reloadTable x0) := by
  intro x0 h
  unfold State.reloadTable
  repeat' (first
    | with_reducible assumption
    | (with_reducible apply sound_up; first | with_reducible assumption | with_reducible apply sound_ite | with_reducible apply sound_foldl | split))

/-! ## Dbg -/

theorem sound_haltCmd : ∀ x0 x1, Sound x0 → Sound (State.haltCmd x0 x1) := by
  intro x0 x1 h
  unfold State.haltCmd
  repeat' (first
    | with_reducible assumption | with_reducible apply sound_pwmFaultForce
    | (with_reducible apply sound_up; first | with_reducible assumption | with_reducible apply sound_pwmFaultForce | with_reducible apply sound_ite | with_reducible apply sound_foldl | split))

theorem sound_dbgCtrl : ∀ x0 x1, Sound x1 → Sound (dbgCtrl x0 x1).2 := by
  intro x0 x1 h
  unfold dbgCtrl
  repeat' (first
    | with_reducible assumption | with_reducible apply sound_haltCmd | with_reducible apply sound_endHalt
    | with_reducible apply sound_controlReset
    | (with_reducible apply sound_up; first | with_reducible assumption | with_reducible apply sound_haltCmd | with_reducible apply sound_endHalt | with_reducible apply sound_controlReset | with_reducible apply sound_ite | with_reducible apply sound_foldl | split))

theorem sound_dbgLock : ∀ x0 x1, Sound x1 → Sound (dbgLock x0 x1).2 := by
  intro x0 x1 h
  unfold dbgLock
  repeat' (first | with_reducible assumption | with_reducible apply sound_put | with_reducible apply sound_ite2)

theorem sound_testCtrl : ∀ x0 x1, Sound x1 → Sound (testCtrl x0 x1).2 := by
  intro x0 x1 h
  unfold testCtrl
  repeat' (first
    | with_reducible assumption | with_reducible apply sound_endTableWrite | with_reducible apply sound_put
    | with_reducible apply sound_ite | with_reducible apply sound_ite2)

theorem sound_mramWrite : ∀ x0 x1 x2, Sound x2 → Sound (mramWrite x0 x1 x2).2 := by
  intro x0 x1 x2 h
  unfold mramWrite
  repeat' (first
    | with_reducible assumption | with_reducible apply sound_askCommit | with_reducible apply sound_ite2
    | (with_reducible apply sound_up; first | with_reducible assumption | with_reducible apply sound_askCommit | with_reducible apply sound_ite | with_reducible apply sound_foldl | split))

theorem sound_tapLoad : ∀ x0 x1 x2, Sound x0 → Sound (State.tapLoad x0 x1 x2) := by
  intro x0 x1 x2 h
  unfold State.tapLoad
  repeat' (first
    | with_reducible assumption
    | (with_reducible apply sound_up; first | with_reducible assumption | with_reducible apply sound_ite | with_reducible apply sound_foldl | split))

theorem sound_tapBypass : ∀ x0, Sound x0 → Sound (State.tapBypass x0) := by
  intro x0 h
  unfold State.tapBypass
  repeat' (first | with_reducible assumption | with_reducible apply sound_tapLoad)

theorem sound_mramRead : ∀ x0 x1, Sound x1 → Sound (mramRead x0 x1).2 := by
  intro x0 x1 h
  unfold mramRead
  repeat' (first | with_reducible assumption | with_reducible apply sound_fresh | with_reducible apply sound_ite2)

theorem sound_tableReloadDone : ∀ x0, Sound x0 → Sound (tableReloadDone x0) := by
  intro x0 h
  unfold tableReloadDone
  repeat' (first
    | with_reducible assumption | with_reducible apply sound_put | with_reducible apply sound_reloadTable
    | with_reducible apply sound_ite)

theorem sound_tapTest : ∀ x0 x1, Sound x1 → Sound (tapTest x0 x1) := by
  intro x0 x1 h
  unfold tapTest
  repeat' (first
    | with_reducible assumption | with_reducible apply sound_tapBypass | with_reducible apply sound_put
    | with_reducible apply sound_tapLoad | with_reducible apply sound_haltCmd | with_reducible apply sound_ite)

theorem sound_tapPreload : ∀ x0 x1, Sound x1 → Sound (tapPreload x0 x1) := by
  intro x0 x1 h
  unfold tapPreload
  repeat' (first
    | with_reducible assumption | with_reducible apply sound_tapLoad
    | (with_reducible apply sound_up; first | with_reducible assumption | with_reducible apply sound_tapLoad | with_reducible apply sound_ite | with_reducible apply sound_foldl | split))

end Sys2Proof.Machine
end

