-- ==== Sys2Proof/Laws/Sound3.lean ====
section
/-!
SUPPORT. Every function keeps a state sound: the ring, the axis commands, the register space, the frame, the host port, and the shapes of a meaning.
-/
namespace Sys2Proof.Machine

/-! ## Ring -/

theorem sound_acceptAuth : ∀ x0 x1, Sound x0 → Sound (State.acceptAuth x0 x1).2 := by
  intro x0 x1 h
  unfold State.acceptAuth
  repeat' (first | with_reducible assumption | with_reducible apply sound_modNet | with_reducible apply sound_ite2)

theorem sound_alignFrames : ∀ x0 x1, Sound x0 → Sound (State.alignFrames x0 x1) := by
  intro x0 x1 h
  unfold State.alignFrames
  repeat' (first | with_reducible assumption | with_reducible apply sound_modNet)

theorem sound_respond : ∀ x0 x1 x2 x3 x4 x5, Sound x0 → Sound (State.respond x0 x1 x2 x3 x4 x5) := by
  intro x0 x1 x2 x3 x4 x5 h
  unfold State.respond
  repeat' (first | with_reducible assumption | with_reducible apply sound_modNet)

theorem sound_authFail : ∀ x0, Sound x0 → Sound (State.authFail x0) := by
  intro x0 h
  unfold State.authFail
  repeat' (first | with_reducible assumption | with_reducible apply sound_raise | with_reducible apply sound_bump)

theorem sound_shiftTime : ∀ x0 x1, Sound x0 → Sound (State.shiftTime x0 x1) := by
  intro x0 x1 h
  unfold State.shiftTime
  repeat' (first | with_reducible assumption | with_reducible apply sound_modNet)

theorem sound_takeEpoch : ∀ x0 x1 x2, Sound x0 → Sound (State.takeEpoch x0 x1 x2) := by
  intro x0 x1 x2 h
  unfold State.takeEpoch
  repeat' (first
    | with_reducible assumption | with_reducible apply sound_modNet | with_reducible apply sound_put
    | with_reducible apply sound_shiftTime | with_reducible apply sound_dropAllSlots
    | with_reducible apply sound_logEntry | with_reducible apply sound_raise)

theorem sound_servo : ∀ x0 x1 x2 x3, Sound x0 → Sound (State.servo x0 x1 x2 x3) := by
  intro x0 x1 x2 x3 h
  unfold State.servo
  repeat' (first
    | with_reducible assumption | with_reducible apply sound_putS | with_reducible apply sound_put
    | with_reducible apply sound_alignFrames | with_reducible apply sound_takeEpoch
    | with_reducible apply sound_loseLock | with_reducible apply sound_modNet | with_reducible apply sound_shiftTime
    | with_reducible apply sound_raise | with_reducible apply sound_ite)

theorem sound_sendPropagated : ∀ x0, Sound x0 → Sound (State.sendPropagated x0) := by
  intro x0 h
  unfold State.sendPropagated
  repeat' (first
    | with_reducible assumption | with_reducible apply sound_modNet | with_reducible apply sound_herdStop
    | refine fun (s : State) _ (_ : Sound s) => ?_
    | (with_reducible apply sound_up; first | with_reducible assumption | with_reducible apply sound_modNet | with_reducible apply sound_herdStop | with_reducible apply sound_ite | with_reducible apply sound_foldl | split))

theorem sound_takeReady : ∀ x0 x1, Sound x0 → Sound (State.takeReady x0 x1) := by
  intro x0 x1 h
  unfold State.takeReady
  repeat' (first
    | with_reducible assumption | with_reducible apply sound_modHerd | with_reducible apply sound_foldl
    | refine fun (s : State) _ (_ : Sound s) => ?_)

theorem sound_beginPass : ∀ x0 x1 x2 x3 x4, Sound x0 → Sound (State.beginPass x0 x1 x2 x3 x4) := by
  intro x0 x1 x2 x3 x4 h
  unfold State.beginPass
  repeat' (first
    | with_reducible assumption | with_reducible apply sound_modNet | with_reducible apply sound_put
    | with_reducible apply sound_servo | with_reducible apply sound_takeEpoch
    | with_reducible apply sound_sendPropagated | with_reducible apply sound_takeReady
    | with_reducible apply sound_ite)

theorem sound_nak : ∀ x0 x1 x2 x3, Sound x0 → Sound (State.nak x0 x1 x2 x3) := by
  intro x0 x1 x2 x3 h
  unfold State.nak
  repeat' (first | with_reducible assumption | with_reducible apply sound_respond)

theorem sound_takeResponse : ∀ x0 x1, Sound x0 → Sound (State.takeResponse x0 x1) := by
  intro x0 x1 h
  unfold State.takeResponse
  repeat' (first | with_reducible assumption | with_reducible apply sound_modNet | with_reducible apply sound_ite)

theorem sound_replicaMsg : ∀ x0 x1 x2, Sound x2 → Sound (replicaMsg x0 x1 x2) := by
  intro x0 x1 x2 h
  unfold replicaMsg
  repeat' (first
    | with_reducible assumption | with_reducible apply sound_replicaOffer
    | with_reducible apply sound_replicaAccepted | with_reducible apply sound_replicaDecline
    | with_reducible apply sound_replicaData | with_reducible apply sound_replicaBlockAck
    | with_reducible apply sound_replicaBlockNak | with_reducible apply sound_replicaComplete
    | with_reducible apply sound_replicaVerify | with_reducible apply sound_replicaVerifyAck
    | with_reducible apply sound_replicaRelease | with_reducible apply sound_replicaFetch | split)

theorem sound_takeReplica : ∀ x0 x1, Sound x0 → Sound (State.takeReplica x0 x1) := by
  intro x0 x1 h
  unfold State.takeReplica
  repeat' (first
    | with_reducible assumption | with_reducible apply sound_nak | with_reducible apply sound_acceptAuth
    | with_reducible apply sound_replicaMsg | with_reducible apply sound_authFail | with_reducible apply sound_ite)

theorem sound_receive : ∀ x0 x1 x2, Sound x0 → Sound (State.receive x0 x1 x2) := by
  intro x0 x1 x2 h
  unfold State.receive
  repeat' (first
    | with_reducible assumption | with_reducible apply sound_modNet | with_reducible apply sound_nak
    | with_reducible apply sound_takeResponse | with_reducible apply sound_takeReplica | split)

theorem sound_roleSet : ∀ x0 x1 x2, Sound x0 → Sound (State.roleSet x0 x1 x2) := by
  intro x0 x1 x2 h
  unfold State.roleSet
  repeat' (first | with_reducible assumption | with_reducible apply sound_setRole | with_reducible apply sound_ite)

theorem sound_seal (s : State) (m : Mbx) (r : Mbx × State) (h : Sound s) (hr : s.seal m = some r) : Sound r.2 := by
  unfold State.seal at hr
  extract_lets m0 ms n k m1 at hr
  split at hr
  · rw [← Option.some.inj hr]; exact h
  · split at hr
    · exact absurd hr (by simp)
    · rw [← Option.some.inj hr]; exact h

theorem sound_nextMsg (s : State) (r : Mbx × State) (h : Sound s) (hr : s.nextMsg = some r) : Sound r.2 := by
  have k : ∀ (m : Mbx) (f : State → State), (∀ s, Sound s → Sound (f s)) →
      (s.seal m).map (fun r => (r.1, f r.2)) = some r → Sound r.2 := by
    intro m f hf e
    cases hs : s.seal m with
    | none => rw [hs] at e; exact absurd e (by simp)
    | some x => rw [hs] at e; rw [← Option.some.inj e]; exact hf _ (sound_seal s m x h hs)
  have hn : ∀ (f : Net → Net) (s : State), Sound s → Sound (s.modNet f) := fun _ _ hs => hs
  unfold State.nextMsg at hr
  split at hr
  · exact k _ (fun s => s.modNet _) (hn _) hr
  · split at hr
    · exact k _ (fun s => s.modNet _) (hn _) hr
    · split at hr
      · exact k _ (fun s => { s with log := { s.log with evq := _, evLost := 0, evOvf := false } }) (fun _ hs => hs)
          hr
      · split at hr
        · exact k _ (fun s => s.modNet _) (hn _) hr
        · split at hr
          · exact k _ (fun s => s.modNet _) (hn _) hr
          · cases hr

theorem sound_masterOut : ∀ x0 x1 x2, Sound x0 → Sound (State.masterOut x0 x1 x2).2 := by
  intro x0 x1 x2 h
  unfold State.masterOut
  repeat' (first | with_reducible assumption | with_reducible apply sound_modHerd | with_reducible apply sound_ite2)

theorem sound_takeFeatures : ∀ x0 x1, Sound x0 → Sound (State.takeFeatures x0 x1) := by
  intro x0 x1 h
  unfold State.takeFeatures
  repeat' (first
    | with_reducible assumption | with_reducible apply sound_put | with_reducible apply sound_raise
    | with_reducible apply sound_ite)

theorem sound_newCycle : ∀ x0 x1 x2, Sound x0 → Sound (State.newCycle x0 x1 x2) := by
  intro x0 x1 x2 h
  unfold State.newCycle
  repeat' (first
    | with_reducible assumption | with_reducible apply sound_setPort | with_reducible apply sound_put
    | with_reducible apply sound_modNp | with_reducible apply sound_modNet | with_reducible apply sound_takeFeatures
    | with_reducible apply sound_putB | refine fun (s : State) _ (_ : Sound s) => ?_
    | (with_reducible apply sound_up; first | with_reducible assumption | with_reducible apply sound_setPort | with_reducible apply sound_put | with_reducible apply sound_modNp | with_reducible apply sound_modNet | with_reducible apply sound_takeFeatures | with_reducible apply sound_putB | with_reducible apply sound_ite | with_reducible apply sound_foldl | split))

theorem sound_renumbered : ∀ x0, Sound x0 → Sound (State.renumbered x0) := by
  intro x0 h
  unfold State.renumbered
  repeat' (first
    | with_reducible assumption | with_reducible apply sound_setRole | with_reducible apply sound_raise
    | with_reducible apply sound_queueRecord | with_reducible apply sound_ite | with_reducible apply sound_foldl
    | refine fun (s : State) _ (_ : Sound s) => ?_)

theorem sound_recordOut : ∀ x0 x1 x2, Sound x2 → Sound (recordOut x0 x1 x2).2 := by
  intro x0 x1 x2 h
  unfold recordOut
  repeat' (first
    | with_reducible assumption | with_reducible apply sound_masterOut | with_reducible apply sound_ite2 | split)

theorem sound_takeAssign : ∀ x0 x1 x2, Sound x0 → Sound (State.takeAssign x0 x1 x2) := by
  intro x0 x1 x2 h
  unfold State.takeAssign
  repeat' (first
    | with_reducible assumption | with_reducible apply sound_put | with_reducible apply sound_modNet
    | with_reducible apply sound_queueRecord | with_reducible apply sound_renumbered | with_reducible apply sound_ite)

theorem sound_yieldTo : ∀ x0 x1, Sound x0 → Sound (State.yieldTo x0 x1) := by
  intro x0 x1 h
  unfold State.yieldTo
  repeat' (first | with_reducible assumption | with_reducible apply sound_modNet | with_reducible apply sound_ite)

theorem sound_supervise : ∀ x0 x1 x2, Sound x0 → Sound (State.supervise x0 x1 x2) := by
  intro x0 x1 x2 h
  unfold State.supervise
  repeat' (first
    | with_reducible assumption | with_reducible apply sound_modNet | with_reducible apply sound_put
    | with_reducible apply sound_supStops | with_reducible apply sound_ite | split)

theorem sound_mailSlot (h : Hdr) (b : List Byte) (w : PassWork) (hw : Sound w.s) : Sound (mailSlot h b w).1.s := by
  unfold mailSlot
  dsimp only
  split
  · split
    · split
      · next e => exact sound_nextMsg _ _ hw e
      · exact hw
    · exact hw
  · split
    · exact hw
    · split
      · exact hw
      · split
        · split
          · next e => exact sound_seal _ _ _ hw e
          · exact hw
        · exact hw
      · exact hw

theorem sound_mailSlots (h : Hdr) (l : List (List Byte)) (w : PassWork) (hw : Sound w.s) :
    Sound (mailSlots h l w).1.s := by
  induction l generalizing w with
  | nil => exact hw
  | cons b l ih => exact ih _ (sound_mailSlot h b w hw)

theorem sound_recordsOut : ∀ h l s, Sound s → Sound (recordsOut h l s).2 := by
  intro h l
  induction l with
  | nil => intro s hs; exact hs
  | cons b l ih => intro s hs; exact ih _ (sound_recordOut _ _ _ hs)

theorem sound_passSeg (h : Hdr) (proc mism own : Bool) (q : PortIx) (g : Seg) (w : PassWork) (hw : Sound w.s) :
    Sound (passSeg h proc mism own q g w).1.s := by
  unfold passSeg
  dsimp only
  split
  · split
    · dsimp only
      split
      · exact hw
      · exact hw
    · exact hw
  · split
    · dsimp only
      exact sound_ite (sound_takeRecords _ _ (sound_recordsOut _ _ _ hw)) (sound_recordsOut _ _ _ hw)
    · dsimp only
      exact sound_ite (sound_takeRecords _ _ hw) hw
  · split
    · have h1 : Sound (mailSlots h (piecesOf 64 (g.body.length / 64) g.body) { w with inbox := [] }).1.s :=
        sound_mailSlots _ _ _ hw
      dsimp only
      exact sound_ite (sound_foldl _ _ _ (fun s m hs => sound_receive _ _ _ hs) h1) h1
    · exact hw
  · split
    · exact hw
    · split
      · exact hw
      · exact hw
  · split
    · exact hw
    · split
      · split
        · exact sound_takeAssign _ _ _ hw
        · exact hw
      · exact hw
  · split
    · exact hw
    · exact hw
  · exact hw

theorem sound_passSegs (h : Hdr) (proc mism : Bool) (q : PortIx) (l : List (List Byte)) (w : PassWork) (hw : Sound
    w.s) :
    Sound (passSegs h proc mism q l w).s := by
  induction l generalizing w with
  | nil => exact hw
  | cons b l ih =>
    unfold passSegs
    dsimp only
    split
    · exact hw
    · refine ih _ (sound_countSeg _ _ _ ?_)
      have h1 := sound_forward _ q.val (passSeg h proc mism false q (parseSeg b) w).2
        (sound_passSeg h proc mism false q (parseSeg b) w hw)
      exact sound_ite (sound_countWraps _ _ h1) h1

theorem sound_passAll : ∀ q l s, Sound s → Sound (passAll q l s) := by
  intro q l s h
  exact sound_foldl _ _ _ (fun s b hs => sound_segmentReceived _ _ _ hs) h

theorem sound_ringPass : ∀ q l t c r s, Sound s → Sound (ringPass q l t c r s) := by
  intro q l t c r s h
  have hs : Sound (s.at c) := h
  unfold ringPass
  dsimp only
  split
  · exact hs
  · next b l =>
    have h1 := sound_openOnHeader _ q.val (parseSeg b) hs
    split
    · exact sound_passAll _ _ _ h1
    · split
      · exact sound_passAll _ _ _ (sound_yieldTo _ _ h1)
      · split
        · exact sound_passAll _ _ _ h1
        · have h2 := sound_newCycle _ q.val (parseHdr (parseSeg b).body) h1
          have key : ∀ (w : PassWork) (p : Bool) (hd : Hdr), Sound w.s →
              Sound (if p = true then w.s.supervise hd w.goose else w.s) := fun w p hd hw =>
            sound_ite (sound_supervise _ _ _ hw) hw
          refine key _ _ _ (sound_passSegs _ _ _ _ _ _ ?_)
          refine sound_forward _ _ _ ?_
          exact sound_ite (sound_beginPass _ _ _ _ _ h2) (sound_modNet _ _ h2)

/-! ## RootCmd -/

theorem sound_timeSet : ∀ x0 x1, Sound x1 → Sound (timeSet x0 x1).2 := by
  intro x0 x1 h
  unfold timeSet
  repeat' (first
    | with_reducible assumption | with_reducible apply sound_modNet | with_reducible apply sound_putB
    | with_reducible apply sound_ite2)

theorem sound_enumerate : ∀ x0, Sound x0 → Sound (enumerate x0).2 := by
  intro x0 h
  unfold enumerate
  repeat' (first | with_reducible assumption | with_reducible apply sound_modNet | with_reducible apply sound_ite2)

theorem sound_rootCmdWrite : ∀ x0 x1, Sound x1 → Sound (rootCmdWrite x0 x1).2 := by
  intro x0 x1 h
  unfold rootCmdWrite
  repeat' (first
    | with_reducible assumption | with_reducible apply sound_timeSet | with_reducible apply sound_enumerate | split)

theorem sound_rootCycleWrite : ∀ x0 x1, Sound x1 → Sound (rootCycleWrite x0 x1).2 := by
  intro x0 x1 h
  unfold rootCycleWrite
  repeat' (first | with_reducible assumption | with_reducible apply sound_wr | with_reducible apply sound_ite2)

theorem sound_hostShow : ∀ x0, Sound x0 → Sound (State.hostShow x0) := by
  intro x0 h
  unfold State.hostShow
  repeat' (first | with_reducible assumption | with_reducible apply sound_put)

theorem sound_resignHost : ∀ x0 x1, Sound x0 → Sound (State.resignHost x0 x1) := by
  intro x0 x1 h
  unfold State.resignHost
  repeat' (first | with_reducible assumption | with_reducible apply sound_hostShow | with_reducible apply sound_put)

theorem sound_herdCfgWrite : ∀ x0 x1 x2, Sound x2 → Sound (herdCfgWrite x0 x1 x2).2 := by
  intro x0 x1 x2 h
  unfold herdCfgWrite
  repeat' (first
    | with_reducible assumption | with_reducible apply sound_wr | with_reducible apply sound_resignHost
    | with_reducible apply sound_ite | with_reducible apply sound_ite2)

theorem sound_herdHostWrite : ∀ x0 x1 x2, Sound x2 → Sound (herdHostWrite x0 x1 x2).2 := by
  intro x0 x1 x2 h
  unfold herdHostWrite
  repeat' (first
    | with_reducible assumption | with_reducible apply sound_put | with_reducible apply sound_resignHost
    | with_reducible apply sound_ite | with_reducible apply sound_ite2 | with_reducible apply sound_foldl
    | refine fun (s : State) _ (_ : Sound s) => ?_)

theorem sound_herdResult : ∀ x0 x1, Sound x0 → Sound (State.herdResult x0 x1) := by
  intro x0 x1 h
  unfold State.herdResult
  repeat' (first | with_reducible assumption | with_reducible apply sound_wr)

theorem sound_sendOwn : ∀ x0 x1, Sound x0 → Sound (State.sendOwn x0 x1) := by
  intro x0 x1 h
  unfold State.sendOwn
  repeat' (first | with_reducible assumption | with_reducible apply sound_modNet)

theorem sound_herdWrite : ∀ x0 x1 x2 x3, Sound x0 → Sound (State.herdWrite x0 x1 x2 x3) := by
  intro x0 x1 x2 x3 h
  unfold State.herdWrite
  repeat' (first | with_reducible assumption | with_reducible apply sound_sendOwn)

theorem sound_syncStart : ∀ p x1 x2 s, Sound s → Sound (syncStart p x1 x2 s) := by
  intro p x1 x2 s h
  unfold syncStart
  split
  · exact sound_herdResult _ _ (sound_herdWrite _ _ _ _ (sound_onHerd _ _ _ (fun s _ hs => sound_tcmdSubmit _ _ _ _ _
      _ _ hs) h))
  · exact sound_herdResult _ _ (sound_raise _ _ h)

theorem sound_syncCommand : ∀ x0 x1 x2, Sound x2 → Sound (syncCommand x0 x1 x2) := by
  intro x0 x1 x2 h
  unfold syncCommand
  repeat' (first
    | with_reducible assumption | with_reducible apply sound_herdResult | with_reducible apply sound_syncStart
    | with_reducible apply sound_herdWrite | split)

theorem sound_herdCommand : ∀ x0 x1 x2, Sound x2 → Sound (herdCommand x0 x1 x2).2 := by
  intro x0 x1 x2 h
  unfold herdCommand
  repeat' (first
    | with_reducible assumption | with_reducible apply sound_herdResult | with_reducible apply sound_syncCommand
    | with_reducible apply sound_herdStop | with_reducible apply sound_herdStart
    | with_reducible apply sound_herdWrite | with_reducible apply sound_ite | with_reducible apply sound_ite2)

theorem sound_elected : ∀ x0 x1 x2 x3 x4, Sound x0 → Sound (State.elected x0 x1 x2 x3 x4) := by
  intro x0 x1 x2 x3 x4 h
  unfold State.elected
  repeat' (first
    | with_reducible assumption | with_reducible apply sound_resignHost | with_reducible apply sound_put
    | with_reducible apply sound_raise | with_reducible apply sound_modHerd | with_reducible apply sound_hostShow
    | with_reducible apply sound_sendOwn | with_reducible apply sound_ite)

theorem sound_electWin : ∀ x0 x1 x2 x3, Sound x3 → Sound (electWin x0 x1 x2 x3) := by
  intro x0 x1 x2 x3 h
  unfold electWin
  repeat' (first
    | with_reducible assumption | with_reducible apply sound_elected | with_reducible apply sound_foldl
    | refine fun (s : State) _ (_ : Sound s) => ?_)

theorem sound_herdCommandHere : ∀ x0 x1 x2, Sound x2 → Sound (herdCommandHere x0 x1 x2) := by
  intro x0 x1 x2 h
  unfold herdCommandHere
  repeat' (first
    | with_reducible assumption | with_reducible apply sound_syncStart | (intro y; clear_value y) | split | lift_lets)

theorem sound_startRoot : ∀ x0 x1, Sound x0 → Sound (State.startRoot x0 x1) := by
  intro x0 x1 h
  unfold State.startRoot
  repeat' (first
    | with_reducible assumption | with_reducible apply sound_modNet | with_reducible apply sound_put
    | with_reducible apply sound_raise | with_reducible apply sound_ite)

theorem sound_becomeRoot : ∀ x0, Sound x0 → Sound (becomeRoot x0) := by
  intro x0 h
  unfold becomeRoot
  repeat' (first
    | with_reducible assumption | with_reducible apply sound_put | with_reducible apply sound_startRoot
    | with_reducible apply sound_ite)

/-! ## AxisCmd -/

theorem sound_armGroup : ∀ x0 x1, Sound x0 → Sound (State.armGroup x0 x1) := by
  intro x0 x1 h
  unfold State.armGroup
  repeat' (first
    | with_reducible assumption | with_reducible apply sound_put | with_reducible apply sound_foldl
    | refine fun (s : State) _ (_ : Sound s) => ?_)

theorem sound_armLimits : ∀ x0 x1, Sound x0 → Sound (State.armLimits x0 x1) := by
  intro x0 x1 h
  unfold State.armLimits
  repeat' (first | with_reducible assumption | with_reducible apply sound_put | with_reducible apply sound_ite)

theorem sound_armCmd : ∀ x0 x1 x2, Sound x2 → Sound (armCmd x0 x1 x2) := by
  intro x0 x1 x2 h
  unfold armCmd
  repeat' (first
    | with_reducible assumption | with_reducible apply sound_motResult | with_reducible apply sound_modAx
    | with_reducible apply sound_armGroup | with_reducible apply sound_curArm | with_reducible apply sound_armLimits
    | with_reducible apply sound_setTarget | with_reducible apply sound_maintRefused | with_reducible apply sound_ite)

theorem sound_endCal : ∀ x0 x1, Sound x0 → Sound (State.endCal x0 x1) := by
  intro x0 x1 h
  unfold State.endCal
  repeat' (first
    | with_reducible assumption | with_reducible apply sound_modAx | with_reducible apply sound_endSlot
    | (intro y; refine (fun (hy : Sound y) => ?_) ?_; clear_value y) | split | lift_lets)

theorem sound_disarmCmd : ∀ x0 x1, Sound x1 → Sound (disarmCmd x0 x1) := by
  intro x0 x1 h
  unfold disarmCmd
  repeat' (first
    | with_reducible assumption | with_reducible apply sound_motResult | with_reducible apply sound_endCal
    | with_reducible apply sound_disarmStop | with_reducible apply sound_autoSave
    | with_reducible apply sound_curDisarm | with_reducible apply sound_disarmMotion | with_reducible apply sound_ite)

theorem sound_axisCommand : ∀ x0 x1 x2 x3, Sound x3 → Sound (axisCommand x0 x1 x2 x3) := by
  intro x0 x1 x2 x3 h
  unfold axisCommand
  repeat' (first
    | with_reducible assumption | with_reducible apply sound_armCmd | with_reducible apply sound_disarmCmd
    | with_reducible apply sound_stopCmd | with_reducible apply sound_startCmd | with_reducible apply sound_homeCmd
    | with_reducible apply sound_clearLimit | with_reducible apply sound_clearFault
    | with_reducible apply sound_clearUncertain | split)

/-! ## Regs -/

theorem sound_frmShow : ∀ x0, Sound x0 → Sound (State.frmShow x0) := by
  intro x0 h
  unfold State.frmShow
  repeat' (first | with_reducible assumption | with_reducible apply sound_put)

theorem sound_moduloWrite : ∀ x0 x1 x2 x3, Sound x3 → Sound (moduloWrite x0 x1 x2 x3).2 := by
  intro x0 x1 x2 x3 h
  unfold moduloWrite
  repeat' (first
    | with_reducible assumption | with_reducible apply sound_modAx | with_reducible apply sound_putWide
    | with_reducible apply sound_ite2)

theorem sound_softWrite : ∀ x0 x1 x2 x3, Sound x3 → Sound (softWrite x0 x1 x2 x3).2 := by
  intro x0 x1 x2 x3 h
  unfold softWrite
  repeat' (first | with_reducible assumption | with_reducible apply sound_putWide | with_reducible apply sound_ite2)

theorem sound_speedWrite : ∀ x0 x1 x2 x3, Sound x3 → Sound (speedWrite x0 x1 x2 x3).2 := by
  intro x0 x1 x2 x3 h
  unfold speedWrite
  repeat' (first | with_reducible assumption | with_reducible apply sound_putWide | with_reducible apply sound_ite2)

theorem sound_atLatch (s : State) (p : Path) (c : Instr) (f : State → State) (h : Sound s) (hf : Sound (f s)) :
    Sound (s.atLatch p c f) := by
  unfold State.atLatch
  split
  · exact h
  · exact h
  · exact hf
  · exact hf

theorem sound_writeMotWide : ∀ x0 x1 x2 x3 x4, Sound x4 → Sound (writeMotWide x0 x1 x2 x3 x4).2 := by
  intro x0 x1 x2 x3 x4 h
  have hid : Sound (id x4) := h
  unfold writeMotWide
  repeat' (first
    | with_reducible assumption | with_reducible apply hid | with_reducible apply sound_atLatch
    | with_reducible apply sound_targetWrite | with_reducible apply sound_vtargetWrite
    | with_reducible apply sound_posFull | with_reducible apply sound_moduloWrite
    | with_reducible apply sound_softWrite | with_reducible apply sound_putWide
    | with_reducible apply sound_speedWrite | with_reducible apply sound_ite2 | split)

theorem sound_writeWide : ∀ x0 x1 x2 x3, Sound x3 → Sound (writeWide x0 x1 x2 x3).2 := by
  intro x0 x1 x2 x3 h
  unfold writeWide
  repeat' (first
    | with_reducible assumption | with_reducible apply sound_writeMotWide | with_reducible apply sound_fbPosFull
    | with_reducible apply sound_putWide | with_reducible apply sound_calSet | with_reducible apply sound_wr
    | with_reducible apply sound_ite2)

theorem sound_writeLow : ∀ x0 x1 x2 x3 x4, Sound x4 → Sound (writeLow x0 x1 x2 x3 x4).2 := by
  intro x0 x1 x2 x3 x4 h
  unfold writeLow
  repeat' (first
    | with_reducible assumption | with_reducible apply sound_writeWide
    | (with_reducible apply sound_up; first | with_reducible assumption | with_reducible apply sound_writeWide | with_reducible apply sound_ite | with_reducible apply sound_foldl | split))

theorem sound_stage : ∀ x0 x1 x2 x3, Sound x0 → Sound (State.stage x0 x1 x2 x3) := by
  intro x0 x1 x2 x3 h
  unfold State.stage
  repeat' (first
    | with_reducible assumption
    | (with_reducible apply sound_up; first | with_reducible assumption | with_reducible apply sound_ite | with_reducible apply sound_foldl | split))

theorem sound_writeWindow : ∀ x0 x1 x2, Sound x2 → Sound (writeWindow x0 x1 x2).2 := by
  intro x0 x1 x2 h
  unfold writeWindow
  repeat' (first
    | with_reducible assumption | with_reducible apply sound_setTableWord
    | (with_reducible apply sound_up; first | with_reducible assumption | with_reducible apply sound_setTableWord | with_reducible apply sound_ite | with_reducible apply sound_foldl | split))

theorem sound_writeFrm : ∀ x0 x1 x2 x3, Sound x3 → Sound (writeFrm x0 x1 x2 x3).2 := by
  intro x0 x1 x2 x3 h
  unfold writeFrm
  repeat' (first
    | with_reducible assumption | with_reducible apply sound_plainWrite | with_reducible apply sound_frmShow
    | with_reducible apply sound_maintRequest | with_reducible apply sound_maintAbort
    | with_reducible apply sound_ite2)

theorem sound_writeCfg : ∀ x0 x1 x2 x3, Sound x3 → Sound (writeCfg x0 x1 x2 x3).2 := by
  intro x0 x1 x2 x3 h
  unfold writeCfg
  repeat' (first
    | with_reducible assumption | with_reducible apply sound_loadCmd | with_reducible apply sound_loadAddr
    | with_reducible apply sound_loadData | with_reducible apply sound_otpCmd | with_reducible apply sound_plainWrite
    | (with_reducible apply sound_up; first | with_reducible assumption | with_reducible apply sound_loadCmd | with_reducible apply sound_loadAddr | with_reducible apply sound_loadData | with_reducible apply sound_otpCmd | with_reducible apply sound_plainWrite | with_reducible apply sound_ite | with_reducible apply sound_foldl | split))

theorem sound_modeOnPort : ∀ x0 x1 x2 x3, Sound x3 → Sound (modeOnPort x0 x1 x2 x3).2 := by
  intro x0 x1 x2 x3 h
  have hid : Sound (id x3) := h
  unfold modeOnPort
  repeat' (first
    | with_reducible assumption | with_reducible apply sound_atLatch | with_reducible apply sound_modeApply
    | with_reducible apply sound_modeWrite | split)

theorem sound_writeMot : ∀ x0 x1 x2 x3 x4, Sound x4 → Sound (writeMot x0 x1 x2 x3 x4).2 := by
  intro x0 x1 x2 x3 x4 h
  have hid : ∀ s, Sound s → Sound (id s) := fun s h => h
  unfold writeMot
  repeat' (first
    | with_reducible assumption | with_reducible apply sound_atLatch | with_reducible apply hid
    | with_reducible apply sound_modeOnPort | with_reducible apply sound_axisCommand | with_reducible apply sound_put
    | with_reducible apply sound_gearCtrl | with_reducible apply sound_tcmdWrite
    | with_reducible apply sound_tcmdCancel | with_reducible apply sound_plainWrite | with_reducible apply sound_ite2
    | (with_reducible apply sound_up; first | with_reducible assumption | with_reducible apply sound_atLatch | with_reducible apply hid | with_reducible apply sound_modeOnPort | with_reducible apply sound_axisCommand | with_reducible apply sound_put | with_reducible apply sound_gearCtrl | with_reducible apply sound_tcmdWrite | with_reducible apply sound_tcmdCancel | with_reducible apply sound_plainWrite | with_reducible apply sound_ite | with_reducible apply sound_foldl | split))

theorem sound_writeCur : ∀ x0 x1 x2 x3 x4 x5, Sound x5 → Sound (writeCur x0 x1 x2 x3 x4 x5).2 := by
  intro x0 x1 x2 x3 x4 x5 h
  unfold writeCur
  repeat' (first
    | with_reducible assumption | with_reducible apply sound_curCfgWrite | with_reducible apply sound_standstillWrite
    | with_reducible apply sound_guardWrite | with_reducible apply sound_commOffsetWrite
    | with_reducible apply sound_encScaleFull | with_reducible apply sound_plainWrite
    | with_reducible apply sound_ite2)

theorem sound_writePwm : ∀ x0 x1 x2 x3, Sound x3 → Sound (writePwm x0 x1 x2 x3).2 := by
  intro x0 x1 x2 x3 h
  unfold writePwm
  repeat' (first
    | with_reducible assumption | with_reducible apply sound_pwmCommit | with_reducible apply sound_pwmForce
    | with_reducible apply sound_plainWrite | with_reducible apply sound_auxCommit
    | with_reducible apply sound_auxCfgWrite | with_reducible apply sound_timerCfgWrite
    | with_reducible apply sound_faultLatchClear | with_reducible apply sound_pwmFaultForce
    | with_reducible apply sound_evtStatusClear | with_reducible apply sound_ite | with_reducible apply sound_ite2)

theorem sound_writeGdr : ∀ x0 x1 x2 x3, Sound x3 → Sound (writeGdr x0 x1 x2 x3).2 := by
  intro x0 x1 x2 x3 h
  unfold writeGdr
  repeat' (first
    | with_reducible assumption | with_reducible apply sound_bstUvClear | with_reducible apply sound_hsFailClear
    | with_reducible apply sound_vdrvTripClear | with_reducible apply sound_plainWrite
    | with_reducible apply sound_copyDrven | with_reducible apply sound_ite2)

theorem sound_writeCsa : ∀ x0 x1 x2 x3, Sound x3 → Sound (writeCsa x0 x1 x2 x3).2 := by
  intro x0 x1 x2 x3 h
  unfold writeCsa
  repeat' (first
    | with_reducible assumption | with_reducible apply sound_csaCfgWrite | with_reducible apply sound_csaOffsetWrite
    | with_reducible apply sound_dcbEstWrite | with_reducible apply sound_plainWrite
    | with_reducible apply sound_csaSync | with_reducible apply sound_dcbCfgWrite | with_reducible apply sound_ite2)

theorem sound_writePmc : ∀ x0 x1 x2 x3, Sound x3 → Sound (writePmc x0 x1 x2 x3).2 := by
  intro x0 x1 x2 x3 h
  unfold writePmc
  extract_lets e o
  clear_value e o
  repeat' (first
    | with_reducible assumption | with_reducible apply sound_pmcCtrlWrite
    | with_reducible apply sound_pmcScanCfgWrite | with_reducible apply sound_pmcRefWrite
    | with_reducible apply sound_refFailedClear | with_reducible apply sound_pmcCfgWrite
    | with_reducible apply sound_pmcLimWrite | with_reducible apply sound_plainWrite
    | with_reducible apply sound_ite2)

theorem sound_writeFbk : ∀ x0 x1 x2 x3 x4 x5, Sound x5 → Sound (writeFbk x0 x1 x2 x3 x4 x5).2 := by
  intro x0 x1 x2 x3 x4 x5 h
  unfold writeFbk
  repeat' (first
    | with_reducible assumption | with_reducible apply sound_fbCfgFull | with_reducible apply sound_fbFaultClear
    | with_reducible apply sound_fbChkWrite | with_reducible apply sound_fbAmpWrite
    | with_reducible apply sound_fbSsiWrite | with_reducible apply sound_plainWrite | with_reducible apply sound_ite2)

theorem sound_keyWrite : ∀ x0 x1 x2 x3, Sound x3 → Sound (keyWrite x0 x1 x2 x3).2 := by
  intro x0 x1 x2 x3 h
  unfold keyWrite
  repeat' (first
    | with_reducible assumption | with_reducible apply sound_queueRecord | with_reducible apply sound_wr | split)

theorem sound_writeNet : ∀ x0 x1 x2 x3, Sound x3 → Sound (writeNet x0 x1 x2 x3).2 := by
  intro x0 x1 x2 x3 h
  unfold writeNet
  repeat' (first
    | with_reducible assumption | with_reducible apply sound_atLatch | with_reducible apply sound_netCfgWrite
    | with_reducible apply sound_netOffsetWrite | with_reducible apply sound_plainWrite
    | with_reducible apply sound_rootCmdWrite | with_reducible apply sound_rootCycleWrite
    | with_reducible apply sound_keyWrite | with_reducible apply sound_herdCfgWrite
    | with_reducible apply sound_herdHostWrite | with_reducible apply sound_herdCommand | split)

theorem sound_writeNvs : ∀ x0 x1 x2 x3, Sound x3 → Sound (writeNvs x0 x1 x2 x3).2 := by
  intro x0 x1 x2 x3 h
  unfold writeNvs
  repeat' (first
    | with_reducible assumption | with_reducible apply sound_nvsCmd | with_reducible apply sound_nvsLenWrite
    | with_reducible apply sound_logSelect | with_reducible apply sound_nvsBufWrite
    | with_reducible apply sound_plainWrite | with_reducible apply sound_ite2)

theorem sound_writeSup : ∀ x0 x1 x2 x3, Sound x3 → Sound (writeSup x0 x1 x2 x3).2 := by
  intro x0 x1 x2 x3 h
  unfold writeSup
  repeat' (first
    | with_reducible assumption | with_reducible apply sound_vmCfgWrite | with_reducible apply sound_vdrvCfgWrite
    | with_reducible apply sound_rstCmd | with_reducible apply sound_wdtCfgWrite | with_reducible apply sound_wdtKick
    | with_reducible apply sound_calStatusClear | with_reducible apply sound_plainWrite
    | with_reducible apply sound_ite2)

theorem sound_writeDbg : ∀ x0 x1 x2 x3, Sound x3 → Sound (writeDbg x0 x1 x2 x3).2 := by
  intro x0 x1 x2 x3 h
  unfold writeDbg
  repeat' (first
    | with_reducible assumption | with_reducible apply sound_dbgCtrl | with_reducible apply sound_dbgLock
    | with_reducible apply sound_testCtrl | with_reducible apply sound_mramWrite
    | with_reducible apply sound_plainWrite | with_reducible apply sound_ite2)

theorem sound_writeWord : ∀ x0 x1 x2 x3, Sound x3 → Sound (writeWord x0 x1 x2 x3).2 := by
  intro x0 x1 x2 x3 h
  unfold writeWord
  repeat' (first
    | with_reducible assumption | with_reducible apply sound_writeWindow | with_reducible apply sound_writeFrm
    | with_reducible apply sound_writeCfg | with_reducible apply sound_writeMot | with_reducible apply sound_writeCur
    | with_reducible apply sound_writePwm | with_reducible apply sound_writeGdr | with_reducible apply sound_writeCsa
    | with_reducible apply sound_writePmc | with_reducible apply sound_cmpCfgWrite
    | with_reducible apply sound_cmpDacWrite | with_reducible apply sound_plainWrite
    | with_reducible apply sound_writeFbk | with_reducible apply sound_obsCfgWrite
    | with_reducible apply sound_motorRWrite | with_reducible apply sound_devCfgWrite
    | with_reducible apply sound_writeNet | with_reducible apply sound_writeNvs | with_reducible apply sound_writeSup
    | with_reducible apply sound_writeDbg | with_reducible apply sound_ite2)

theorem sound_writeReg : ∀ x0 x1 x2 x3, Sound x3 → Sound (writeReg x0 x1 x2 x3).2 := by
  intro x0 x1 x2 x3 h
  unfold writeReg
  repeat' (first
    | with_reducible assumption | with_reducible apply sound_writeLow | with_reducible apply sound_safetyWritten
    | with_reducible apply sound_stage | with_reducible apply sound_writeWord | with_reducible apply sound_ite2
    | split)

theorem sound_writeSeq : ∀ p a l k s, Sound s → Sound (writeSeq p a l k s).2.2 := by
  intro p a l
  induction l generalizing a with
  | nil => intro k s h; exact h
  | cons w l ih =>
    intro k s h
    cases l with
    | nil => exact sound_writeReg p a w s h
    | cons v l =>
      have key : ∀ t : State, Sound t → Sound (if (writeReg p a w t).1 then writeSeq p (a + 4) (v :: l) (k + 1)
          (writeReg p a w t).2 else (k, true, (writeReg p a w t).2)).2.2 := by
        intro t ht
        split
        · exact ih _ _ _ (sound_writeReg _ _ _ _ ht)
        · exact sound_writeReg _ _ _ _ ht
      unfold writeSeq
      refine key _ ?_
      repeat' (first | with_reducible assumption | with_reducible apply sound_stage | split)

theorem sound_endPath : ∀ x0 x1, Sound x0 → Sound (State.endPath x0 x1) := by
  intro x0 x1 h
  unfold State.endPath
  repeat' (first
    | with_reducible assumption
    | (with_reducible apply sound_up; first | with_reducible assumption | with_reducible apply sound_ite | with_reducible apply sound_foldl | split))

theorem sound_snap : ∀ x0 x1 x2 x3, Sound x0 → Sound (State.snap x0 x1 x2 x3) := by
  intro x0 x1 x2 x3 h
  unfold State.snap
  repeat' (first
    | with_reducible assumption
    | (with_reducible apply sound_up; first | with_reducible assumption | with_reducible apply sound_ite | with_reducible apply sound_foldl | split))

theorem sound_readClear : ∀ x0 x1, Sound x0 → Sound (State.readClear x0 x1) := by
  intro x0 x1 h
  unfold State.readClear
  repeat' (first | with_reducible assumption | with_reducible apply sound_wr | split)

theorem sound_readReg : ∀ x0 x1 x2, Sound x2 → Sound (readReg x0 x1 x2).2 := by
  intro x0 x1 x2 h
  unfold readReg
  repeat' (first
    | with_reducible assumption | with_reducible apply sound_mramRead | with_reducible apply sound_calSnapshot
    | with_reducible apply sound_snap | with_reducible apply sound_readClear | split)

/-! ## Activate -/

theorem sound_showBank : ∀ x0, Sound x0 → Sound (State.showBank x0) := by
  intro x0 h
  unfold State.showBank
  repeat' (first
    | with_reducible assumption | with_reducible apply sound_putB | with_reducible apply sound_wr
    | with_reducible apply sound_put | with_reducible apply sound_foldl
    | refine fun (s : State) _ (_ : Sound s) => ?_)

theorem sound_showDev : ∀ x0 x1, Sound x0 → Sound (State.showDev x0 x1) := by
  intro x0 x1 h
  unfold State.showDev
  repeat' (first | with_reducible assumption | with_reducible apply sound_wr | with_reducible apply sound_put)

theorem sound_showPlace : ∀ x0 x1 x2, Sound x0 → Sound (State.showPlace x0 x1 x2) := by
  intro x0 x1 x2 h
  unfold State.showPlace
  repeat' (first
    | with_reducible assumption | with_reducible apply sound_put | with_reducible apply sound_wr
    | with_reducible apply sound_putB | with_reducible apply sound_foldl
    | refine fun (s : State) _ (_ : Sound s) => ?_)

theorem sound_useTable : ∀ x0 x1, Sound x0 → Sound (State.useTable x0 x1) := by
  intro x0 x1 h
  unfold State.useTable
  repeat' (first
    | with_reducible assumption | with_reducible apply sound_frmShow | with_reducible apply sound_showPlace
    | (with_reducible apply sound_up; first | with_reducible assumption | with_reducible apply sound_frmShow | with_reducible apply sound_showPlace | with_reducible apply sound_ite | with_reducible apply sound_foldl | split))

theorem sound_useBank : ∀ x0 x1 x2, Sound x0 → Sound (State.useBank x0 x1 x2) := by
  intro x0 x1 x2 h
  unfold State.useBank
  repeat' (first | with_reducible assumption | with_reducible apply sound_put | with_reducible apply sound_ite)

theorem sound_applyDmem : ∀ x0 x1 x2, Sound x0 → Sound (State.applyDmem x0 x1 x2) := by
  intro x0 x1 x2 h
  unfold State.applyDmem
  repeat' (first
    | with_reducible assumption
    | (with_reducible apply sound_up; first | with_reducible assumption | with_reducible apply sound_ite | with_reducible apply sound_foldl | split))

theorem sound_applyRegs : ∀ x0 x1, Sound x0 → Sound (State.applyRegs x0 x1) := by
  intro x0 x1 h
  unfold State.applyRegs
  repeat' (first
    | with_reducible assumption | with_reducible apply sound_writeSeq | with_reducible apply sound_endPath
    | with_reducible apply sound_wr | with_reducible apply sound_foldl | refine fun (s : State) _ (_ : Sound s) => ?_)

theorem sound_autoStart : ∀ x0, Sound x0 → Sound (State.autoStart x0) := by
  intro x0 h
  unfold State.autoStart
  repeat' (first | with_reducible assumption | with_reducible apply sound_pmcStart | with_reducible apply sound_ite)

theorem sound_copyGuards : ∀ x0, Sound x0 → Sound (State.copyGuards x0) := by
  intro x0 h
  unfold State.copyGuards
  repeat' (first
    | with_reducible assumption | with_reducible apply sound_copyDrven | with_reducible apply sound_copyPf)

theorem sound_applyFull : ∀ x0 x1, Sound x0 → Sound (State.applyFull x0 x1) := by
  intro x0 x1 h
  unfold State.applyFull
  repeat' (first
    | with_reducible assumption | with_reducible apply sound_showBank | with_reducible apply sound_showDev
    | with_reducible apply sound_useTable | with_reducible apply sound_useBank | with_reducible apply sound_applyDmem
    | with_reducible apply sound_applyRegs | with_reducible apply sound_autoStart | with_reducible apply sound_put
    | with_reducible apply sound_pwmRestart | with_reducible apply sound_reach
    | with_reducible apply sound_copyGuards | with_reducible apply sound_raise | with_reducible apply sound_repTouch
    | refine fun (s : State) _ (_ : Sound s) => ?_
    | (with_reducible apply sound_up; first | with_reducible assumption | with_reducible apply sound_showBank | with_reducible apply sound_showDev | with_reducible apply sound_useTable | with_reducible apply sound_useBank | with_reducible apply sound_applyDmem | with_reducible apply sound_applyRegs | with_reducible apply sound_autoStart | with_reducible apply sound_put | with_reducible apply sound_pwmRestart | with_reducible apply sound_reach | with_reducible apply sound_copyGuards | with_reducible apply sound_raise | with_reducible apply sound_repTouch | with_reducible apply sound_ite | with_reducible apply sound_foldl | split))

theorem sound_applySwap : ∀ x0 x1 x2, Sound x0 → Sound (State.applySwap x0 x1 x2) := by
  intro x0 x1 x2 h
  unfold State.applySwap
  repeat' (first
    | with_reducible assumption | with_reducible apply sound_applyRegs | with_reducible apply sound_showBank
    | with_reducible apply sound_useTable | with_reducible apply sound_useBank | with_reducible apply sound_applyDmem
    | with_reducible apply sound_wr | with_reducible apply sound_put | with_reducible apply sound_raise
    | with_reducible apply sound_endAct | with_reducible apply sound_closeSession
    | with_reducible apply sound_repTouch
    | (with_reducible apply sound_up; first | with_reducible assumption | with_reducible apply sound_applyRegs | with_reducible apply sound_showBank | with_reducible apply sound_useTable | with_reducible apply sound_useBank | with_reducible apply sound_applyDmem | with_reducible apply sound_wr | with_reducible apply sound_put | with_reducible apply sound_raise | with_reducible apply sound_endAct | with_reducible apply sound_closeSession | with_reducible apply sound_repTouch | with_reducible apply sound_ite | with_reducible apply sound_foldl | split))

theorem sound_activateNow : ∀ x0, Sound x0 → Sound (State.activateNow x0) := by
  intro x0 h
  unfold State.activateNow
  repeat' (first
    | with_reducible assumption | with_reducible apply sound_applyFull | with_reducible apply sound_applySwap | split)

theorem sound_bootAdmission : ∀ x0, Sound x0 → Sound (bootAdmission x0) := by
  intro x0 h
  unfold bootAdmission
  repeat' (first
    | with_reducible assumption | with_reducible apply sound_admissionDone | with_reducible apply sound_reach
    | with_reducible apply sound_ite)

theorem sound_bootLoad : ∀ x0, Sound x0 → Sound (bootLoad x0) := by
  intro x0 h
  unfold bootLoad
  repeat' (first
    | with_reducible assumption | with_reducible apply sound_bootTry | with_reducible apply sound_plsRestore
    | with_reducible apply sound_reach | with_reducible apply sound_ite)

/-! ## Task -/

theorem sound_writeSel : ∀ x0 x1 x2 x3, Sound x1 → Sound (writeSel x0 x1 x2 x3).2 := by
  intro x0 x1 x2 x3 h
  unfold writeSel
  repeat' (first
    | with_reducible assumption
    | (with_reducible apply sound_up; first | with_reducible assumption | with_reducible apply sound_ite | with_reducible apply sound_foldl | split))

theorem sound_operate : ∀ v r m s, Sound s → Sound (operate v r m s).2.1 := by
  intro v r m s h
  have hs : Sound s.fresh.2 := h
  have hw : ∀ r u d w, Sound u → Sound (writeSel r u d w).2 := fun r u d w hu => sound_writeSel _ _ _ _ hu
  unfold operate
  dsimp only
  split
  · exact hs
  · split
    · exact hw _ _ _ _ (hw _ _ _ _ hs)
    · exact hw _ _ _ _ hs
  · exact hw _ _ _ _ hs
  · exact hw _ _ _ _ hs
  · exact hw _ _ _ _ hs
  · exact hs

theorem sound_setFlag : ∀ x0 x1 x2, Sound x0 → Sound (State.setFlag x0 x1 x2) := by
  intro x0 x1 x2 h
  unfold State.setFlag
  repeat' (first
    | with_reducible assumption
    | (with_reducible apply sound_up; first | with_reducible assumption | with_reducible apply sound_ite | with_reducible apply sound_foldl | split))

theorem sound_flagStep : ∀ x0 x1 x2, Sound x2 → Sound (flagStep x0 x1 x2) := by
  intro x0 x1 x2 h
  unfold flagStep
  repeat' (first | with_reducible assumption | with_reducible apply sound_setFlag | split)

theorem sound_laneStep : ∀ x0 x1 x2 x3, Sound x3 → Sound (laneStep x0 x1 x2 x3).2 := by
  intro x0 x1 x2 x3 h
  unfold laneStep
  repeat' (first
    | with_reducible assumption | with_reducible apply sound_operate | with_reducible apply sound_flagStep
    | with_reducible apply sound_ite2)

theorem sound_issueStep (v : State) (num : Nat) (x : TableRun) (i : Issue) (h : Sound x.s) : Sound (issueStep v num x
    i).s := by
  unfold issueStep
  extract_lets x1 r y
  have h1 : Sound x1.s := by
    unfold x1
    split
    · exact h
    · exact h
  split
  · exact sound_laneStep _ _ _ _ h1
  · exact h1

theorem sound_runTable : ∀ x0 x1, Sound x0 → Sound (State.runTable x0 x1) := by
  intro x0 x1 h
  have : ∀ (v : State) (n : Nat) (l : List Issue) (x : TableRun), Sound x.s → Sound (l.foldl (issueStep v n) x).s :=
      by
    intro v n l
    induction l with
    | nil => intro x hx; exact hx
    | cons i l ih => intro x hx; exact ih _ (sound_issueStep _ _ _ _ hx)
  unfold State.runTable
  exact this _ _ _ _ h

/-! ## Mgmt -/

theorem sound_announce : ∀ x0 x1 x2 x3, Sound x0 → Sound (State.announce x0 x1 x2 x3) := by
  intro x0 x1 x2 x3 h
  unfold State.announce
  repeat' (first
    | with_reducible assumption | with_reducible apply sound_modNet | with_reducible apply sound_electWin
    | with_reducible apply sound_sendOwn)

theorem sound_answer : ∀ x0 x1 x2 x3, Sound x0 → Sound (State.answer x0 x1 x2 x3) := by
  intro x0 x1 x2 x3 h
  unfold State.answer
  repeat' (first | with_reducible assumption | with_reducible apply sound_respond | with_reducible apply sound_ite)

theorem sound_checkAuth : ∀ x0 x1, Sound x0 → Sound (State.checkAuth x0 x1).2 := by
  intro x0 x1 h
  unfold State.checkAuth
  repeat' (first
    | with_reducible assumption | with_reducible apply sound_acceptAuth | with_reducible apply sound_authFail
    | with_reducible apply sound_bump | with_reducible apply sound_ite2)

theorem sound_refuse : ∀ x0 x1 x2 x3, Sound x0 → Sound (State.refuse x0 x1 x2 x3) := by
  intro x0 x1 x2 x3 h
  unfold State.refuse
  repeat' (first | with_reducible assumption | with_reducible apply sound_nak)

theorem sound_readSeq : ∀ p l s, Sound s → Sound (readSeq p l s).2 := by
  intro p l
  induction l with
  | nil => intro s h; exact h
  | cons a l ih => intro s h; exact ih _ (sound_readReg _ _ _ h)

theorem sound_mgmtRead : ∀ x0 x1, Sound x1 → Sound (mgmtRead x0 x1) := by
  intro x0 x1 h
  unfold mgmtRead
  repeat' (first
    | with_reducible assumption | with_reducible apply sound_readSeq | with_reducible apply sound_answer
    | with_reducible apply sound_endPath)

theorem sound_mgmtWrite : ∀ r s, Sound s → Sound (mgmtWrite r s) := by
  intro r s h
  unfold mgmtWrite
  extract_lets p ws t
  have ht : Sound t.2 := by
    have : ∀ (l : List Nat) (a : Option (List Word) × State), Sound a.2 → Sound (l.foldl (fun (x : Option (List Word)
        × State) a =>
      let y := writeSeq p a ws 0 x.2
      (if y.2.1 ∧ x.1.isNone then some (ws.take y.1) else x.1, y.2.2.endPath p)) a).2 := by
      intro l
      induction l with
      | nil => intro a ha; exact ha
      | cons c l ih => intro a ha; exact ih _ (sound_endPath _ _ (sound_writeSeq _ _ _ _ _ ha))
    exact this _ _ h
  split
  · exact sound_herdCommandHere _ _ _ h
  · split
    · exact sound_refuse _ _ _ _ ht
    · exact sound_ite (sound_answer _ _ _ _ ht) (sound_answer _ _ _ _ ht)

theorem sound_mgmtRoleSet : ∀ x0 x1, Sound x1 → Sound (mgmtRoleSet x0 x1) := by
  intro x0 x1 h
  unfold mgmtRoleSet
  repeat' (first
    | with_reducible assumption | with_reducible apply sound_refuse | with_reducible apply sound_roleSet
    | with_reducible apply sound_answer | with_reducible apply sound_queueRecord | with_reducible apply sound_ite)

theorem sound_electDecline : ∀ x0 x1 x2 x3, Sound x3 → Sound (electDecline x0 x1 x2 x3) := by
  intro x0 x1 x2 x3 h
  unfold electDecline
  repeat' (first
    | with_reducible assumption | with_reducible apply sound_modNet | with_reducible apply sound_announce
    | with_reducible apply sound_ite)

theorem sound_mgmtRun : ∀ x0 x1, Sound x1 → Sound (mgmtRun x0 x1) := by
  intro x0 x1 h
  unfold mgmtRun
  repeat' (first
    | with_reducible assumption | with_reducible apply sound_mgmtRead | with_reducible apply sound_mgmtWrite
    | with_reducible apply sound_mgmtRoleSet | with_reducible apply sound_answer
    | with_reducible apply sound_electWin | with_reducible apply sound_electDecline | split)

theorem sound_mgmtExec : ∀ x0 x1, Sound x1 → Sound (mgmtExec x0 x1) := by
  intro x0 x1 h
  unfold mgmtExec
  repeat' (first
    | with_reducible assumption | with_reducible apply sound_refuse | with_reducible apply sound_checkAuth
    | with_reducible apply sound_raise | with_reducible apply sound_bump | with_reducible apply sound_mgmtRun
    | with_reducible apply sound_ite)

theorem sound_runReqs : ∀ x0, Sound x0 → Sound (State.runReqs x0) := by
  intro x0 h
  unfold State.runReqs
  repeat' (first
    | with_reducible assumption | with_reducible apply sound_modNet | with_reducible apply sound_mgmtExec
    | with_reducible apply sound_foldl | refine fun (s : State) _ (_ : Sound s) => ?_)

theorem sound_bellwetherElection : ∀ x0 x1 x2, Sound x2 → Sound (bellwetherElection x0 x1 x2) := by
  intro x0 x1 x2 h
  unfold bellwetherElection
  repeat' (first
    | with_reducible assumption | with_reducible apply sound_modNet | with_reducible apply sound_announce
    | with_reducible apply sound_ite)

/-! ## Root -/

theorem sound_askNode : ∀ x0 x1 x2 x3 x4, Sound x0 → Sound (State.askNode x0 x1 x2 x3 x4) := by
  intro x0 x1 x2 x3 x4 h
  unfold State.askNode
  repeat' (first | with_reducible assumption | with_reducible apply sound_sendOwn)

theorem sound_modRs : ∀ x0 x1, Sound x0 → Sound (State.modRs x0 x1) := by
  intro x0 x1 h
  unfold State.modRs
  repeat' (first | with_reducible assumption | with_reducible apply sound_modNet)

theorem sound_takeSlots : ∀ x0 x1 x2 x3, Sound x0 → Sound (State.takeSlots x0 x1 x2 x3) := by
  intro x0 x1 x2 x3 h
  unfold State.takeSlots
  repeat' (first | with_reducible assumption | with_reducible apply sound_modRs | with_reducible apply sound_ite)

theorem sound_rootMessage : ∀ x0 x1 x2, Sound x1 → Sound (State.rootMessage x0 x1 x2) := by
  intro x0 x1 x2 h
  unfold State.rootMessage
  repeat' (first
    | with_reducible assumption | with_reducible apply sound_receive | with_reducible apply sound_modRs
    | with_reducible apply sound_nak | with_reducible apply sound_ite)

theorem sound_takeReturn : ∀ q c l k s, Sound s → Sound (takeReturn q c l k s) := by
  intro q c l
  induction l with
  | nil => intro k s h; exact h
  | cons g l ih =>
    intro k s h
    unfold takeReturn
    split
    · exact ih _ _ h
    · split
      · exact ih _ _ (sound_takeSlots _ _ _ _ h)
      · exact ih _ _ (sound_foldl _ _ _ (fun s m hs => sound_rootMessage _ _ _ hs) h)
      · exact ih _ _ h

theorem sound_wantOffsets : ∀ x0, Sound x0 → Sound (State.wantOffsets x0) := by
  intro x0 h
  unfold State.wantOffsets
  repeat' (first | with_reducible assumption | with_reducible apply sound_modRs)

theorem sound_judgeGoose : ∀ x0 x1 x2, Sound x0 → Sound (State.judgeGoose x0 x1 x2) := by
  intro x0 x1 x2 h
  unfold State.judgeGoose
  repeat' (first
    | with_reducible assumption | with_reducible apply sound_modRs | with_reducible apply sound_raise
    | with_reducible apply sound_wantOffsets | with_reducible apply sound_ite)

theorem sound_finishEnum : ∀ x0 x1 x2 x3, Sound x0 → Sound (State.finishEnum x0 x1 x2 x3) := by
  intro x0 x1 x2 x3 h
  unfold State.finishEnum
  repeat' (first | with_reducible assumption | with_reducible apply sound_modRs | with_reducible apply sound_ite)

theorem sound_judgeSummaries : ∀ x0 x1, Sound x0 → Sound (State.judgeSummaries x0 x1) := by
  intro x0 x1 h
  unfold State.judgeSummaries
  repeat' (first
    | with_reducible assumption | with_reducible apply sound_modRs | with_reducible apply sound_wantOffsets
    | with_reducible apply sound_ite | split)

theorem sound_endReturn : ∀ x0 x1 x2 x3 x4, Sound x0 → Sound (State.endReturn x0 x1 x2 x3 x4) := by
  intro x0 x1 x2 x3 x4 h
  unfold State.endReturn
  repeat' (first
    | with_reducible assumption | with_reducible apply sound_countSeg | with_reducible apply sound_takeReturn
    | with_reducible apply sound_judgeGoose | with_reducible apply sound_finishEnum
    | with_reducible apply sound_modRs | with_reducible apply sound_judgeSummaries | with_reducible apply sound_ite
    | with_reducible apply sound_foldl | refine fun (s : State) _ (_ : Sound s) => ?_ | split)

theorem sound_rootMail : ∀ f k s, Sound s → Sound (rootMail f k s).2 := by
  intro f
  induction f with
  | zero => intro k s h; exact h
  | succ f ih =>
    intro k s h
    cases k with
    | zero => exact h
    | succ k =>
      unfold rootMail
      split
      · exact ih _ _ (sound_modRs _ _ h)
      · split
        · exact h
        · next m t e =>
          have ht : Sound t := sound_nextMsg s (m, t) h e
          split
          · exact ih _ _ (sound_receive _ _ _ ht)
          · exact ih _ _ ht

theorem sound_mailEntries : ∀ x0, Sound x0 → Sound (State.mailEntries x0).2 := by
  intro x0 h
  unfold State.mailEntries
  repeat' (first | with_reducible assumption | with_reducible apply sound_rootMail)

theorem sound_offsetDuty : ∀ x0, Sound x0 → Sound (State.offsetDuty x0) := by
  intro x0 h
  unfold State.offsetDuty
  repeat' (first
    | with_reducible assumption | with_reducible apply sound_modRs | with_reducible apply sound_askNode
    | with_reducible apply sound_ite | with_reducible apply sound_foldl
    | refine fun (s : State) _ (_ : Sound s) => ?_ | split)

theorem sound_ownCycle : ∀ x0 x1, Sound x0 → Sound (State.ownCycle x0 x1) := by
  intro x0 x1 h
  unfold State.ownCycle
  repeat' (first
    | with_reducible assumption | with_reducible apply sound_setPort | with_reducible apply sound_modNp
    | with_reducible apply sound_modNet | with_reducible apply sound_sendPropagated
    | with_reducible apply sound_takeFeatures | with_reducible apply sound_put
    | refine fun (s : State) _ (_ : Sound s) => ?_
    | (with_reducible apply sound_up; first | with_reducible assumption | with_reducible apply sound_setPort | with_reducible apply sound_modNp | with_reducible apply sound_modNet | with_reducible apply sound_sendPropagated | with_reducible apply sound_takeFeatures | with_reducible apply sound_put | with_reducible apply sound_ite | with_reducible apply sound_foldl | split))

theorem sound_rootStart : ∀ x0, Sound x0 → Sound (State.rootStart x0) := by
  intro x0 h
  unfold State.rootStart
  repeat' (first
    | with_reducible assumption | with_reducible apply sound_startRoot | with_reducible apply sound_put
    | with_reducible apply sound_ite)

theorem sound_rootStep : ∀ x0, Sound x0 → Sound (State.rootStep x0) := by
  intro x0 h
  unfold State.rootStep
  repeat' (first
    | with_reducible assumption | with_reducible apply sound_modRs | with_reducible apply sound_takeEpoch | split)

theorem sound_rootYield : ∀ x0, Sound x0 → Sound (State.rootYield x0) := by
  intro x0 h
  unfold State.rootYield
  repeat' (first | with_reducible assumption | with_reducible apply sound_modNet | with_reducible apply sound_put)

theorem sound_ownPass (h : Hdr) (proc : Bool) (q : PortIx) (l : List Seg) (w : PassWork) (hw : Sound w.s) :
    Sound (ownPass h proc q l w).2.s := by
  induction l generalizing w with
  | nil => exact hw
  | cons g l ih =>
    unfold ownPass
    dsimp only
    split
    · exact ih _ hw
    · exact ih _ (sound_passSeg _ _ _ _ _ _ _ hw)

theorem sound_sendCycle : ∀ s c x, Sound s → Sound (State.sendCycle s c x) := by
  intro s0 cmds sources h
  unfold State.sendCycle
  extract_lets kind s r tree nodes recs hd life s1 s2 first s3 mail body q x segs s4 s5
  have h0 : Sound s := sound_rootStep _ h
  have h1 : Sound s1 := sound_ownCycle _ _ h0
  have h2 : Sound s2 := by
    unfold s2
    exact sound_ite (sound_foldl _ _ _ (fun u p hu => sound_ite (sound_setPort _ _ _ hu) hu) h1) h1
  have h3 : Sound s3 := sound_ite (sound_offsetDuty _ h2) h2
  have hm : Sound mail.2 := sound_ite2 (sound_mailEntries _ h3) h3
  have hx : Sound x.2.s := sound_ownPass _ _ _ _ _ hm
  have h4 : Sound s4 := by
    unfold s4
    clear_value first
    split
    · exact sound_foldl _ _ _ (fun u g hu => sound_sendSeg _ _ _ _ hu) hx
    · exact hx
  have h5 : Sound s5 := sound_modRs _ _ (sound_modNet _ _ h4)
  clear_value s5 first kind
  split
  · exact sound_finishEnum _ _ _ _ h5
  · exact sound_wantOffsets _ h5
  · exact h5

theorem sound_rootCycleStart : ∀ x0 x1 x2, Sound x2 → Sound (rootCycleStart x0 x1 x2) := by
  intro x0 x1 x2 h
  unfold rootCycleStart
  repeat' (first
    | with_reducible assumption | with_reducible apply sound_rootStart | with_reducible apply sound_rootYield
    | with_reducible apply sound_sendCycle | with_reducible apply sound_ite)

theorem sound_rootPassReturn : ∀ x0 x1 x2 x3, Sound x3 → Sound (rootPassReturn x0 x1 x2 x3) := by
  intro x0 x1 x2 x3 h
  unfold rootPassReturn
  repeat' (first
    | with_reducible assumption | with_reducible apply sound_openOnHeader | with_reducible apply sound_passAll
    | with_reducible apply sound_yieldTo | with_reducible apply sound_endReturn | with_reducible apply sound_countSeg
    | with_reducible apply sound_modRs | with_reducible apply sound_ite | split)

/-! ## MotionStep -/

theorem sound_calFrame : ∀ x0 x1 x2, Sound x0 → Sound (State.calFrame x0 x1 x2) := by
  intro x0 x1 x2 h
  unfold State.calFrame
  repeat' (first | with_reducible assumption | with_reducible apply sound_modAx)

theorem sound_exportFeedback : ∀ x0 x1 x2, Sound x0 → Sound (State.exportFeedback x0 x1 x2) := by
  intro x0 x1 x2 h
  unfold State.exportFeedback
  repeat' (first
    | with_reducible assumption
    | (with_reducible apply sound_up; first | with_reducible assumption | with_reducible apply sound_ite | with_reducible apply sound_foldl | split))

theorem sound_dropEdges : ∀ x0 x1 x2, Sound x0 → Sound (State.dropEdges x0 x1 x2) := by
  intro x0 x1 x2 h
  unfold State.dropEdges
  repeat' (first | with_reducible assumption | with_reducible apply sound_bump | with_reducible apply sound_ite)

theorem sound_exportMotion : ∀ x0 x1, Sound x0 → Sound (State.exportMotion x0 x1) := by
  intro x0 x1 h
  exact h

theorem sound_setKin : ∀ x0 x1 x2, Sound x0 → Sound (State.setKin x0 x1 x2) := by
  intro x0 x1 x2 h
  unfold State.setKin
  repeat' (first | with_reducible assumption | with_reducible apply sound_modAx)

theorem sound_followFrame : ∀ x0 x1, Sound x0 → Sound (State.followFrame x0 x1) := by
  intro x0 x1 h
  unfold State.followFrame
  repeat' (first
    | with_reducible assumption | with_reducible apply sound_setKin | with_reducible apply sound_dropEdges
    | with_reducible apply sound_applyIncrement | with_reducible apply sound_ite)

theorem sound_homeFrame : ∀ x0 x1 x2, Sound x0 → Sound (State.homeFrame x0 x1 x2) := by
  intro x0 x1 x2 h
  unfold State.homeFrame
  repeat' (first | with_reducible assumption | with_reducible apply sound_modAx)

theorem sound_rangeClamp : ∀ x0 x1 x2, Sound x0 → Sound (State.rangeClamp x0 x1 x2) := by
  intro x0 x1 x2 h
  unfold State.rangeClamp
  repeat' (first
    | with_reducible assumption | with_reducible apply sound_raise | with_reducible apply sound_stopNow
    | with_reducible apply sound_setKin | with_reducible apply sound_ite)

theorem sound_stopFrame : ∀ x0 x1, Sound x0 → Sound (State.stopFrame x0 x1) := by
  intro x0 x1 h
  unfold State.stopFrame
  repeat' (first
    | with_reducible assumption | with_reducible apply sound_modAx | with_reducible apply sound_stopUncertain
    | with_reducible apply sound_when | refine fun (s : State) (_ : Sound s) => ?_)

theorem sound_rampFrame : ∀ x0 x1, Sound x0 → Sound (State.rampFrame x0 x1) := by
  intro x0 x1 h
  unfold State.rampFrame
  repeat' (first | with_reducible assumption | with_reducible apply sound_setKin)

theorem sound_posFrame : ∀ x0 x1, Sound x0 → Sound (State.posFrame x0 x1) := by
  intro x0 x1 h
  unfold State.posFrame
  repeat' (first | with_reducible assumption | with_reducible apply sound_raiseIf | with_reducible apply sound_setKin)

theorem sound_velFrame : ∀ x0 x1, Sound x0 → Sound (State.velFrame x0 x1) := by
  intro x0 x1 h
  unfold State.velFrame
  repeat' (first
    | with_reducible assumption | with_reducible apply sound_setKin | with_reducible apply sound_raise
    | with_reducible apply sound_stopNow | with_reducible apply sound_modAx | with_reducible apply sound_stopWith
    | with_reducible apply sound_ite | split)

theorem sound_moveAxis : ∀ x0 x1, Sound x0 → Sound (State.moveAxis x0 x1) := by
  intro x0 x1 h
  unfold State.moveAxis
  repeat' (first
    | with_reducible assumption | with_reducible apply sound_setKin | with_reducible apply sound_stopFrame
    | with_reducible apply sound_dropEdges | with_reducible apply sound_rampFrame
    | with_reducible apply sound_calFrame | with_reducible apply sound_homeFrame
    | with_reducible apply sound_posFrame | with_reducible apply sound_velFrame
    | with_reducible apply sound_followFrame | with_reducible apply sound_gearStep | with_reducible apply sound_ite
    | split)

theorem sound_profileStep : ∀ x0 x1, Sound x0 → Sound (State.profileStep x0 x1) := by
  intro x0 x1 h
  unfold State.profileStep
  repeat' (first
    | with_reducible assumption | with_reducible apply sound_rangeClamp | with_reducible apply sound_moveAxis
    | with_reducible apply sound_modAx | with_reducible apply sound_dropEdges | with_reducible apply sound_keepMaster
    | with_reducible apply sound_ite)

/-! ## Frame -/

theorem sound_modFrm : ∀ x0 x1, Sound x0 → Sound (State.modFrm x0 x1) := by
  intro x0 x1 h
  unfold State.modFrm
  repeat' (first
    | with_reducible assumption
    | (with_reducible apply sound_up; first | with_reducible assumption | with_reducible apply sound_ite | with_reducible apply sound_foldl | split))

theorem sound_beginFrame : ∀ x0 x1, Sound x0 → Sound (State.beginFrame x0 x1) := by
  intro x0 x1 h
  unfold State.beginFrame
  repeat' (first
    | with_reducible assumption | with_reducible apply sound_passCommits | with_reducible apply sound_modFrm
    | with_reducible apply sound_activateNow | with_reducible apply sound_put | with_reducible apply sound_frmShow
    | (with_reducible apply sound_up; first | with_reducible assumption | with_reducible apply sound_passCommits | with_reducible apply sound_modFrm | with_reducible apply sound_activateNow | with_reducible apply sound_put | with_reducible apply sound_frmShow | with_reducible apply sound_ite | with_reducible apply sound_foldl | split))

theorem sound_commitAux : ∀ x0 x1, Sound x0 → Sound (State.commitAux x0 x1) := by
  intro x0 x1 h
  unfold State.commitAux
  repeat' (first
    | with_reducible assumption | with_reducible apply sound_put | with_reducible apply sound_modAxu
    | with_reducible apply sound_modFrm | split | dsimp only)

theorem sound_commitBridge : ∀ x0 x1, Sound x0 → Sound (State.commitBridge x0 x1) := by
  intro x0 x1 h
  unfold State.commitBridge
  repeat' (first
    | with_reducible assumption | with_reducible apply sound_wr | with_reducible apply sound_modBr
    | with_reducible apply sound_modBr | exact fun _ (hb : Bridge.safe _) => hb | split | dsimp only)

theorem sound_powerShort : ∀ x0 x1, Sound x0 → Sound (State.powerShort x0 x1) := by
  intro x0 x1 h
  unfold State.powerShort
  repeat' (first
    | with_reducible assumption | with_reducible apply sound_modCur | with_reducible apply sound_curDisarm
    | with_reducible apply sound_disarmMotion | with_reducible apply sound_endCal | with_reducible apply sound_ite)

theorem sound_enterStill : ∀ x0 x1, Sound x0 → Sound (State.enterStill x0 x1) := by
  intro x0 x1 h
  unfold State.enterStill
  repeat' (first | with_reducible assumption | with_reducible apply sound_setCoil | with_reducible apply sound_ite)

theorem sound_commitLevel : ∀ x0 x1, Sound x0 → Sound (State.commitLevel x0 x1) := by
  intro x0 x1 h
  unfold State.commitLevel
  repeat' (first | with_reducible assumption | with_reducible apply sound_modPw | with_reducible apply sound_ite)

theorem sound_publishRing : ∀ x0, Sound x0 → Sound (State.publishRing x0) := by
  intro x0 h
  unfold State.publishRing
  repeat' (first | with_reducible assumption | with_reducible apply sound_modNet)

theorem sound_commitFrame : ∀ x0, Sound x0 → Sound (State.commitFrame x0) := by
  intro x0 h
  unfold State.commitFrame
  repeat' (first
    | with_reducible assumption | with_reducible apply sound_stallPublish | with_reducible apply sound_publishMot
    | with_reducible apply sound_powerShort | with_reducible apply sound_enterStill
    | with_reducible apply sound_commitBridge | with_reducible apply sound_commitAux
    | with_reducible apply sound_commitLevel | with_reducible apply sound_publishRing
    | with_reducible apply sound_ite | with_reducible apply sound_foldl | with_reducible apply sound_eachAxis
    | refine fun (s : State) _ (_ : Sound s) => ?_)

theorem sound_currentTask : ∀ x0 x1 x2, Sound x1 → Sound (State.currentTask x0 x1 x2) := by
  intro x0 x1 x2 h
  unfold State.currentTask
  repeat' (first
    | with_reducible assumption | with_reducible apply sound_exportFeedback | with_reducible apply sound_commutate
    | with_reducible apply sound_obsFrame | with_reducible apply sound_diagFrame | with_reducible apply sound_loops
    | with_reducible apply sound_ite)

theorem sound_haltFrame : ∀ x0 x1, Sound x0 → Sound (State.haltFrame x0 x1) := by
  intro x0 x1 h
  unfold State.haltFrame
  repeat' (first
    | with_reducible assumption | with_reducible apply sound_passCommits | with_reducible apply sound_put
    | with_reducible apply sound_csaLatch | with_reducible apply sound_modFrm | with_reducible apply sound_slotTimes
    | with_reducible apply sound_frmShow
    | (with_reducible apply sound_up; first | with_reducible assumption | with_reducible apply sound_passCommits | with_reducible apply sound_put | with_reducible apply sound_csaLatch | with_reducible apply sound_modFrm | with_reducible apply sound_slotTimes | with_reducible apply sound_frmShow | with_reducible apply sound_ite | with_reducible apply sound_foldl | split))

theorem sound_houseKeeping : ∀ x0, Sound x0 → Sound (State.houseKeeping x0) := by
  intro x0 h
  unfold State.houseKeeping
  repeat' (first
    | with_reducible assumption | with_reducible apply sound_slotTimes | with_reducible apply sound_plsArm
    | with_reducible apply sound_plsSample | with_reducible apply sound_pmcFrame
    | with_reducible apply sound_selfTestFrame)

theorem sound_latchSense : ∀ x0 x1, Sound x0 → Sound (State.latchSense x0 x1) := by
  intro x0 x1 h
  unfold State.latchSense
  repeat' (first
    | with_reducible assumption | with_reducible apply sound_cmpFollow | with_reducible apply sound_csaLatch
    | with_reducible apply sound_clFallback | with_reducible apply sound_fbFrame
    | with_reducible apply sound_showCurrent | with_reducible apply sound_stallLatch
    | with_reducible apply sound_devLatch | with_reducible apply sound_rangeSettle
    | with_reducible apply sound_eachAxis | refine fun (s : State) _ (_ : Sound s) => ?_)

theorem sound_latchSupply : ∀ x0 x1, Sound x0 → Sound (State.latchSupply x0 x1) := by
  intro x0 x1 h
  unfold State.latchSupply
  repeat' (first
    | with_reducible assumption | with_reducible apply sound_put
    | (with_reducible apply sound_up; first | with_reducible assumption | with_reducible apply sound_put | with_reducible apply sound_ite | with_reducible apply sound_foldl | split))

theorem sound_latchPower : ∀ x0, Sound x0 → Sound (State.latchPower x0) := by
  intro x0 h
  unfold State.latchPower
  repeat' (first
    | with_reducible assumption | with_reducible apply sound_causeAll
    | (with_reducible apply sound_up; first | with_reducible assumption | with_reducible apply sound_causeAll | with_reducible apply sound_ite | with_reducible apply sound_foldl | split))

theorem sound_latchEncoder : ∀ x0 x1, Sound x0 → Sound (State.latchEncoder x0 x1) := by
  intro x0 x1 h
  unfold State.latchEncoder
  repeat' (first
    | with_reducible assumption | with_reducible apply sound_modFb | with_reducible apply sound_causeAll
    | with_reducible apply sound_ite)

theorem sound_runLatched : ∀ x0 x1, Sound x1 → Sound (runLatched x0 x1) := by
  intro x0 x1 h
  unfold runLatched
  repeat' (first
    | with_reducible assumption | with_reducible apply sound_tcmdSubmit | with_reducible apply sound_axisCommand
    | with_reducible apply sound_targetWrite | with_reducible apply sound_vtargetWrite
    | with_reducible apply sound_posFull | with_reducible apply sound_modeApply | with_reducible apply sound_gearCtrl
    | with_reducible apply sound_tcmdCancel | with_reducible apply sound_herdCommand | split)

theorem sound_latchCommands : ∀ x0, Sound x0 → Sound (State.latchCommands x0) := by
  intro x0 h
  unfold State.latchCommands
  repeat' (first
    | with_reducible assumption | with_reducible apply sound_runLatched | with_reducible apply sound_runReqs
    | with_reducible apply sound_modFrm | with_reducible apply sound_runDue | with_reducible apply sound_eachAxis
    | refine fun (s : State) _ (_ : Sound s) => ?_
    | (with_reducible apply sound_up; first | with_reducible assumption | with_reducible apply sound_runLatched | with_reducible apply sound_runReqs | with_reducible apply sound_modFrm | with_reducible apply sound_runDue | with_reducible apply sound_ite | with_reducible apply sound_foldl | split))

theorem sound_tripDisarm : ∀ x0 x1 x2, Sound x0 → Sound (State.tripDisarm x0 x1 x2) := by
  intro x0 x1 x2 h
  unfold State.tripDisarm
  repeat' (first
    | with_reducible assumption | with_reducible apply sound_modAx | with_reducible apply sound_curTripDisarm
    | with_reducible apply sound_disarmMotion | with_reducible apply sound_disarmStop
    | with_reducible apply sound_endCal)

theorem sound_latchBridge : ∀ x0 x1, Sound x0 → Sound (State.latchBridge x0 x1) := by
  intro x0 x1 h
  unfold State.latchBridge
  repeat' (first
    | with_reducible assumption | with_reducible apply sound_tripDisarm | with_reducible apply sound_modAx
    | with_reducible apply sound_ite)

theorem sound_latchHome : ∀ x0 x1, Sound x0 → Sound (State.latchHome x0 x1) := by
  intro x0 x1 h
  unfold State.latchHome
  repeat' (first
    | with_reducible assumption | with_reducible apply sound_homeLatch | with_reducible apply sound_devRefSet
    | with_reducible apply sound_ite)

theorem sound_latchRing : ∀ x0, Sound x0 → Sound (State.latchRing x0) := by
  intro x0 h
  unfold State.latchRing
  repeat' (first | with_reducible assumption | with_reducible apply sound_modNet)

theorem sound_latchStops : ∀ x0 x1, Sound x0 → Sound (State.latchStops x0 x1) := by
  intro x0 x1 h
  unfold State.latchStops
  repeat' (first
    | with_reducible assumption | with_reducible apply sound_endCal | with_reducible apply sound_modAx
    | with_reducible apply sound_setTarget | with_reducible apply sound_stopWith | with_reducible apply sound_ite)

theorem sound_inputLatch : ∀ x0 x1, Sound x0 → Sound (State.inputLatch x0 x1) := by
  intro x0 x1 h
  unfold State.inputLatch
  repeat' (first
    | with_reducible assumption | with_reducible apply sound_latchSense | with_reducible apply sound_latchSupply
    | with_reducible apply sound_latchPower | with_reducible apply sound_latchEncoder
    | with_reducible apply sound_latchCommands | with_reducible apply sound_sampleInputs
    | with_reducible apply sound_latchBridge | with_reducible apply sound_gearLatch
    | with_reducible apply sound_latchHome | with_reducible apply sound_latchInputs
    | with_reducible apply sound_latchRing | with_reducible apply sound_latchStops
    | with_reducible apply sound_modFrm | with_reducible apply sound_eachAxis
    | refine fun (s : State) _ (_ : Sound s) => ?_)

theorem sound_keepShown : ∀ x0 x1, Sound x1 → Sound (State.keepShown x0 x1) := by
  intro x0 x1 h
  unfold State.keepShown
  repeat' (first
    | with_reducible assumption | with_reducible apply sound_put | with_reducible apply sound_wr
    | with_reducible apply sound_foldl | with_reducible apply sound_eachAxis
    | refine fun (s : State) _ (_ : Sound s) => ?_)

theorem sound_leaveHalt : ∀ x0, Sound x0 → Sound (State.leaveHalt x0) := by
  intro x0 h
  unfold State.leaveHalt
  repeat' (first
    | with_reducible assumption | with_reducible apply sound_put | with_reducible apply sound_dropSlots
    | with_reducible apply sound_eachAxis | refine fun (s : State) _ (_ : Sound s) => ?_
    | (with_reducible apply sound_up; first | with_reducible assumption | with_reducible apply sound_put | with_reducible apply sound_dropSlots | with_reducible apply sound_ite | with_reducible apply sound_foldl | split))

theorem sound_motionTask : ∀ x0 x1 x2, Sound x1 → Sound (State.motionTask x0 x1 x2) := by
  intro x0 x1 x2 h
  unfold State.motionTask
  repeat' (first
    | with_reducible assumption | with_reducible apply sound_encCalFrame | with_reducible apply sound_curAmp
    | with_reducible apply sound_profileStep | with_reducible apply sound_exportMotion
    | with_reducible apply sound_ite)

theorem sound_overrunFault : ∀ x0, Sound x0 → Sound (State.overrunFault x0) := by
  intro x0 h
  unfold State.overrunFault
  repeat' (first
    | with_reducible assumption | with_reducible apply sound_tripDisarm | with_reducible apply sound_raise
    | with_reducible apply sound_frmShow | with_reducible apply sound_put | with_reducible apply sound_ite
    | with_reducible apply sound_eachAxis | refine fun (s : State) _ (_ : Sound s) => ?_)

theorem sound_overrunFrame : ∀ x0, Sound x0 → Sound (State.overrunFrame x0) := by
  intro x0 h
  unfold State.overrunFrame
  repeat' (first
    | with_reducible assumption | with_reducible apply sound_raise | with_reducible apply sound_bump
    | with_reducible apply sound_modFrm | with_reducible apply sound_overrunFault | with_reducible apply sound_ite)

theorem sound_passTime : ∀ x0, Sound x0 → Sound (State.passTime x0) := by
  intro x0 h
  unfold State.passTime
  repeat' (first
    | with_reducible assumption | with_reducible apply sound_modNet | with_reducible apply sound_put
    | (with_reducible apply sound_up; first | with_reducible assumption | with_reducible apply sound_modNet | with_reducible apply sound_put | with_reducible apply sound_ite | with_reducible apply sound_foldl | split))

theorem sound_tableWindow : ∀ x0 x1, Sound x0 → Sound (State.tableWindow x0 x1) := by
  intro x0 x1 h
  unfold State.tableWindow
  repeat' (first
    | with_reducible assumption | with_reducible apply sound_runTable | with_reducible apply sound_motionTask
    | with_reducible apply sound_currentTask | with_reducible apply sound_keepShown | with_reducible apply sound_ite
    | with_reducible apply sound_eachAxis)

theorem sound_frameStart : ∀ x0 x1, Sound x1 → Sound (frameStart x0 x1) := by
  intro x0 x1 h
  unfold frameStart
  repeat' (first
    | with_reducible assumption | with_reducible apply sound_passTime | with_reducible apply sound_haltFrame
    | with_reducible apply sound_inputLatch | with_reducible apply sound_beginFrame
    | with_reducible apply sound_leaveHalt | with_reducible apply sound_modFrm
    | with_reducible apply sound_houseKeeping | with_reducible apply sound_tableWindow
    | with_reducible apply sound_ite)

theorem sound_outputStage : ∀ x0, Sound x0 → Sound (outputStage x0) := by
  intro x0 h
  unfold outputStage
  repeat' (first
    | with_reducible assumption | with_reducible apply sound_overrunFrame | with_reducible apply sound_modFrm
    | with_reducible apply sound_commitFrame | with_reducible apply sound_plsOutput | with_reducible apply sound_ite)

theorem sound_guardStageCheck : ∀ x0, Sound x0 → Sound (guardStageCheck x0) := by
  intro x0 h
  unfold guardStageCheck
  repeat' (first | with_reducible assumption | with_reducible apply sound_modFrm | split)

/-! ## HostPort -/

theorem sound_hostOut : ∀ x0 x1, Sound x0 → Sound (State.hostOut x0 x1) := by
  intro x0 x1 h
  unfold State.hostOut
  repeat' (first
    | with_reducible assumption
    | (with_reducible apply sound_up; first | with_reducible assumption | with_reducible apply sound_ite | with_reducible apply sound_foldl | split))

theorem sound_tstat : ∀ x0 x1 x2, Sound x0 → Sound (State.tstat x0 x1 x2) := by
  intro x0 x1 x2 h
  unfold State.tstat
  repeat' (first | with_reducible assumption | with_reducible apply sound_wr)

theorem sound_badHeader : ∀ x0 x1, Sound x0 → Sound (State.badHeader x0 x1) := by
  intro x0 x1 h
  unfold State.badHeader
  repeat' (first
    | with_reducible assumption | with_reducible apply sound_bump | with_reducible apply sound_hostOut
    | with_reducible apply sound_tstat)

theorem sound_readWords : ∀ p l s, Sound s → Sound (readWords p l s).2 := by
  intro p l
  induction l with
  | nil => intro s h; exact h
  | cons a l ih => intro s h; exact ih _ (sound_readReg _ _ _ h)

theorem sound_hostRead : ∀ x0 x1 x2, Sound x2 → Sound (hostRead x0 x1 x2) := by
  intro x0 x1 x2 h
  unfold hostRead
  repeat' (first
    | with_reducible assumption | with_reducible apply sound_hostOut | with_reducible apply sound_tstat
    | with_reducible apply sound_readWords
    | (with_reducible apply sound_up; first | with_reducible assumption | with_reducible apply sound_hostOut | with_reducible apply sound_tstat | with_reducible apply sound_readWords | with_reducible apply sound_ite | with_reducible apply sound_foldl | split))

theorem sound_writeWords : ∀ p l k s, Sound s → Sound (writeWords p l k s).2.2 := by
  intro p l
  induction l with
  | nil => intro k s h; exact h
  | cons a l ih =>
    intro k s h
    unfold writeWords
    dsimp only
    split
    · exact ih _ _ (sound_writeReg _ _ _ _ h)
    · exact sound_writeReg _ _ _ _ h

theorem sound_hostWrite : ∀ x0 x1 x2 x3 x4 x5, Sound x5 → Sound (hostWrite x0 x1 x2 x3 x4 x5) := by
  intro x0 x1 x2 x3 x4 x5 h
  unfold hostWrite
  repeat' (first
    | with_reducible assumption | with_reducible apply sound_at | with_reducible apply sound_hostOut
    | with_reducible apply sound_tstat | with_reducible apply sound_bump | with_reducible apply sound_writeWords
    | (with_reducible apply sound_up; first | with_reducible assumption | with_reducible apply sound_at | with_reducible apply sound_hostOut | with_reducible apply sound_tstat | with_reducible apply sound_bump | with_reducible apply sound_writeWords | with_reducible apply sound_ite | with_reducible apply sound_foldl | split))

theorem sound_hostReread : ∀ x0, Sound x0 → Sound (hostReread x0) := by
  intro x0 h
  unfold hostReread
  repeat' (first | with_reducible assumption | with_reducible apply sound_hostOut | with_reducible apply sound_tstat)

theorem sound_hostAbort : ∀ x0 x1 x2 x3, Sound x3 → Sound (hostAbort x0 x1 x2 x3) := by
  intro x0 x1 x2 x3 h
  unfold hostAbort
  repeat' (first | with_reducible assumption | with_reducible apply sound_readWords | with_reducible apply sound_ite)

/-! ## Sense -/

theorem sound_fastStep : ∀ x0 x1 x2 x3, Sound x3 → Sound (fastStep x0 x1 x2 x3) := by
  intro x0 x1 x2 x3 h
  unfold fastStep
  repeat' (first
    | with_reducible assumption | with_reducible apply sound_fastOutput | with_reducible apply sound_openCheck
    | with_reducible apply sound_sincosOutput | with_reducible apply sound_ite)

/-! ## Functions that take functions, and the shapes of a meaning -/

theorem sound_transact (s : State) (c : Nat) (f : State → State) (hf : ∀ s, Sound s → Sound (f s)) (h : Sound s) :
    Sound (s.transact c f) := by
  unfold State.transact
  refine sound_ite h (sound_hostOut _ _ (sound_ite ?_ (hf _ ?_)))
  · exact sound_hostOut _ _ (sound_at _ _ h)
  · exact sound_hostOut _ _ (sound_at _ _ h)

theorem sound_dbgShift (s : State) (f : State → (Nat × Word) × State) (hf : ∀ s, Sound s → Sound (f s).2) (h : Sound s) :
    Sound (s.dbgShift f) := by
  unfold State.dbgShift
  exact sound_ite (sound_tapBypass _ h) (hf _ (sound_tapLoad _ _ _ h))

/-- Every next state of an outcome satisfies `P`. -/
def Leaves (P : State → Prop) (o : Host.Outcome State Fault Refusal) : Prop := ∀ t, o = .next t → P t

theorem leaves_next {P : State → Prop} {s : State} (h : P s) : Leaves P (.next s) := by
  intro t e
  injection e with e
  exact e ▸ h

theorem sound_act {s : State} {f : State → State} (hf : Sound (f s)) : Sound (s.act f) := hf

theorem sound_live {s : State} {f : State → State} (h : Sound s) (hf : ∀ s, Sound s → Sound (f s)) :
    Leaves Sound (live s f) := by
  unfold live
  split
  · exact leaves_next h
  · exact leaves_next (hf s h)

theorem sound_always {s : State} {f : State → State} (h : Sound s) (hf : ∀ s, Sound s → Sound (f s)) :
    Leaves Sound (always s f) := leaves_next (hf s h)

theorem sound_liveA {s : State} {f : State → State} (h : Sound s) (hf : ∀ s, Sound s → Sound (f s)) :
    Leaves Sound (liveA s f) := sound_live h fun _ hs => sound_settle _ _ (hf _ hs)

theorem sound_alwaysA {s : State} {f g : State → State} (h : Sound s) (hf : ∀ s, Sound s → Sound (f s))
    (hg : ∀ s, Sound s → Sound (g s)) : Leaves Sound (alwaysA s f g) :=
  sound_always h fun _ hs => sound_ite (sound_settleHeld _ _ (hf _ hs)) (sound_settle _ _ (hg _ hs))

theorem sound_liveIn {s : State} {f : State → State} (h : Sound s) (hf : ∀ s, Sound s → Sound (f s)) :
    Leaves Sound (liveIn s f) := sound_live h fun _ hs => sound_ite hs (hf _ hs)

theorem sound_liveN {s : State} {f : State → State} (h : Sound s) (hf : ∀ s, Sound s → Sound (f s)) :
    Leaves Sound (liveN s f) := sound_live h fun _ hs => hf _ (sound_modNet _ _ hs)

theorem sound_liveNA {s : State} {f : State → State} (h : Sound s) (hf : ∀ s, Sound s → Sound (f s)) :
    Leaves Sound (liveNA s f) := sound_live h fun _ hs => sound_settle _ _ (hf _ (sound_modNet _ _ hs))

end Sys2Proof.Machine
end

