-- ==== Sys2Proof/Laws/State.lean ====
section
/-!
SUPPORT. The small lemmas of the updates of State: what each leaves alone, field by field, and what it stores.
-/
namespace Sys2Proof.Machine

/-! ### wr -/

@[simp] theorem wr_pending (s : State) (a : Nat) (w : Word) : (s.wr a w).pending = s.pending := rfl
@[simp] theorem wr_free (s : State) (a : Nat) (w : Word) : (s.wr a w).free = s.free := rfl
@[simp] theorem wr_held (s : State) (a : Nat) (w : Word) : (s.wr a w).held = s.held := rfl
@[simp] theorem wr_now (s : State) (a : Nat) (w : Word) : (s.wr a w).now = s.now := rfl
@[simp] theorem wr_staged (s : State) (a : Nat) (w : Word) : (s.wr a w).staged = s.staged := rfl
@[simp] theorem wr_snaps (s : State) (a : Nat) (w : Word) : (s.wr a w).snaps = s.snaps := rfl
@[simp] theorem wr_frm (s : State) (a : Nat) (w : Word) : (s.wr a w).frm = s.frm := rfl
@[simp] theorem wr_cfg (s : State) (a : Nat) (w : Word) : (s.wr a w).cfg = s.cfg := rfl
@[simp] theorem wr_log (s : State) (a : Nat) (w : Word) : (s.wr a w).log = s.log := rfl
@[simp] theorem wr_nvs (s : State) (a : Nat) (w : Word) : (s.wr a w).nvs = s.nvs := rfl
@[simp] theorem wr_backup (s : State) (a : Nat) (w : Word) : (s.wr a w).backup = s.backup := rfl
@[simp] theorem wr_guard (s : State) (a : Nat) (w : Word) : (s.wr a w).guard = s.guard := rfl
@[simp] theorem wr_sup (s : State) (a : Nat) (w : Word) : (s.wr a w).sup = s.sup := rfl
@[simp] theorem wr_net (s : State) (a : Nat) (w : Word) : (s.wr a w).net = s.net := rfl
@[simp] theorem wr_axes (s : State) (a : Nat) (w : Word) : (s.wr a w).axes = s.axes := rfl
@[simp] theorem wr_herds (s : State) (a : Nat) (w : Word) : (s.wr a w).herds = s.herds := rfl
@[simp] theorem wr_latchQ (s : State) (a : Nat) (w : Word) : (s.wr a w).latchQ = s.latchQ := rfl
@[simp] theorem wr_sub (s : State) (a : Nat) (w : Word) : (s.wr a w).sub = s.sub := rfl
@[simp] theorem wr_vm (s : State) (a : Nat) (w : Word) : (s.wr a w).vm = s.vm := rfl
@[simp] theorem wr_balls (s : State) (a : Nat) (w : Word) : (s.wr a w).balls = s.balls := rfl
@[simp] theorem wr_chans (s : State) (a : Nat) (w : Word) : (s.wr a w).chans = s.chans := rfl
@[simp] theorem wr_bridges (s : State) (a : Nat) (w : Word) : (s.wr a w).bridges = s.bridges := rfl
@[simp] theorem wr_pwmAxes (s : State) (a : Nat) (w : Word) : (s.wr a w).pwmAxes = s.pwmAxes := rfl
@[simp] theorem wr_aux (s : State) (a : Nat) (w : Word) : (s.wr a w).aux = s.aux := rfl
@[simp] theorem wr_timers (s : State) (a : Nat) (w : Word) : (s.wr a w).timers = s.timers := rfl
@[simp] theorem wr_phases (s : State) (a : Nat) (w : Word) : (s.wr a w).phases = s.phases := rfl
@[simp] theorem wr_curs (s : State) (a : Nat) (w : Word) : (s.wr a w).curs = s.curs := rfl
@[simp] theorem wr_fbks (s : State) (a : Nat) (w : Word) : (s.wr a w).fbks = s.fbks := rfl
@[simp] theorem wr_obss (s : State) (a : Nat) (w : Word) : (s.wr a w).obss = s.obss := rfl
@[simp] theorem wr_dcb (s : State) (a : Nat) (w : Word) : (s.wr a w).dcb = s.dcb := rfl
@[simp] theorem wr_cmp (s : State) (a : Nat) (w : Word) : (s.wr a w).cmp = s.cmp := rfl
@[simp] theorem wr_pmc (s : State) (a : Nat) (w : Word) : (s.wr a w).pmc = s.pmc := rfl
@[simp] theorem wr_host (s : State) (a : Nat) (w : Word) : (s.wr a w).host = s.host := rfl
@[simp] theorem wr_dbg (s : State) (a : Nat) (w : Word) : (s.wr a w).dbg = s.dbg := rfl

/-! ### put -/

@[simp] theorem put_pending (s : State) (g : Fld) (v : Nat) : (s.put g v).pending = s.pending := rfl
@[simp] theorem put_free (s : State) (g : Fld) (v : Nat) : (s.put g v).free = s.free := rfl
@[simp] theorem put_held (s : State) (g : Fld) (v : Nat) : (s.put g v).held = s.held := rfl
@[simp] theorem put_now (s : State) (g : Fld) (v : Nat) : (s.put g v).now = s.now := rfl
@[simp] theorem put_staged (s : State) (g : Fld) (v : Nat) : (s.put g v).staged = s.staged := rfl
@[simp] theorem put_snaps (s : State) (g : Fld) (v : Nat) : (s.put g v).snaps = s.snaps := rfl
@[simp] theorem put_frm (s : State) (g : Fld) (v : Nat) : (s.put g v).frm = s.frm := rfl
@[simp] theorem put_cfg (s : State) (g : Fld) (v : Nat) : (s.put g v).cfg = s.cfg := rfl
@[simp] theorem put_log (s : State) (g : Fld) (v : Nat) : (s.put g v).log = s.log := rfl
@[simp] theorem put_nvs (s : State) (g : Fld) (v : Nat) : (s.put g v).nvs = s.nvs := rfl
@[simp] theorem put_backup (s : State) (g : Fld) (v : Nat) : (s.put g v).backup = s.backup := rfl
@[simp] theorem put_guard (s : State) (g : Fld) (v : Nat) : (s.put g v).guard = s.guard := rfl
@[simp] theorem put_sup (s : State) (g : Fld) (v : Nat) : (s.put g v).sup = s.sup := rfl
@[simp] theorem put_net (s : State) (g : Fld) (v : Nat) : (s.put g v).net = s.net := rfl
@[simp] theorem put_axes (s : State) (g : Fld) (v : Nat) : (s.put g v).axes = s.axes := rfl
@[simp] theorem put_herds (s : State) (g : Fld) (v : Nat) : (s.put g v).herds = s.herds := rfl
@[simp] theorem put_latchQ (s : State) (g : Fld) (v : Nat) : (s.put g v).latchQ = s.latchQ := rfl
@[simp] theorem put_sub (s : State) (g : Fld) (v : Nat) : (s.put g v).sub = s.sub := rfl
@[simp] theorem put_vm (s : State) (g : Fld) (v : Nat) : (s.put g v).vm = s.vm := rfl
@[simp] theorem put_balls (s : State) (g : Fld) (v : Nat) : (s.put g v).balls = s.balls := rfl
@[simp] theorem put_chans (s : State) (g : Fld) (v : Nat) : (s.put g v).chans = s.chans := rfl
@[simp] theorem put_bridges (s : State) (g : Fld) (v : Nat) : (s.put g v).bridges = s.bridges := rfl
@[simp] theorem put_pwmAxes (s : State) (g : Fld) (v : Nat) : (s.put g v).pwmAxes = s.pwmAxes := rfl
@[simp] theorem put_aux (s : State) (g : Fld) (v : Nat) : (s.put g v).aux = s.aux := rfl
@[simp] theorem put_timers (s : State) (g : Fld) (v : Nat) : (s.put g v).timers = s.timers := rfl
@[simp] theorem put_phases (s : State) (g : Fld) (v : Nat) : (s.put g v).phases = s.phases := rfl
@[simp] theorem put_curs (s : State) (g : Fld) (v : Nat) : (s.put g v).curs = s.curs := rfl
@[simp] theorem put_fbks (s : State) (g : Fld) (v : Nat) : (s.put g v).fbks = s.fbks := rfl
@[simp] theorem put_obss (s : State) (g : Fld) (v : Nat) : (s.put g v).obss = s.obss := rfl
@[simp] theorem put_dcb (s : State) (g : Fld) (v : Nat) : (s.put g v).dcb = s.dcb := rfl
@[simp] theorem put_cmp (s : State) (g : Fld) (v : Nat) : (s.put g v).cmp = s.cmp := rfl
@[simp] theorem put_pmc (s : State) (g : Fld) (v : Nat) : (s.put g v).pmc = s.pmc := rfl
@[simp] theorem put_host (s : State) (g : Fld) (v : Nat) : (s.put g v).host = s.host := rfl
@[simp] theorem put_dbg (s : State) (g : Fld) (v : Nat) : (s.put g v).dbg = s.dbg := rfl

/-! ### putB -/

@[simp] theorem putB_pending (s : State) (g : Fld) (b : Bool) : (s.putB g b).pending = s.pending := rfl
@[simp] theorem putB_free (s : State) (g : Fld) (b : Bool) : (s.putB g b).free = s.free := rfl
@[simp] theorem putB_held (s : State) (g : Fld) (b : Bool) : (s.putB g b).held = s.held := rfl
@[simp] theorem putB_now (s : State) (g : Fld) (b : Bool) : (s.putB g b).now = s.now := rfl
@[simp] theorem putB_staged (s : State) (g : Fld) (b : Bool) : (s.putB g b).staged = s.staged := rfl
@[simp] theorem putB_snaps (s : State) (g : Fld) (b : Bool) : (s.putB g b).snaps = s.snaps := rfl
@[simp] theorem putB_frm (s : State) (g : Fld) (b : Bool) : (s.putB g b).frm = s.frm := rfl
@[simp] theorem putB_cfg (s : State) (g : Fld) (b : Bool) : (s.putB g b).cfg = s.cfg := rfl
@[simp] theorem putB_log (s : State) (g : Fld) (b : Bool) : (s.putB g b).log = s.log := rfl
@[simp] theorem putB_nvs (s : State) (g : Fld) (b : Bool) : (s.putB g b).nvs = s.nvs := rfl
@[simp] theorem putB_backup (s : State) (g : Fld) (b : Bool) : (s.putB g b).backup = s.backup := rfl
@[simp] theorem putB_guard (s : State) (g : Fld) (b : Bool) : (s.putB g b).guard = s.guard := rfl
@[simp] theorem putB_sup (s : State) (g : Fld) (b : Bool) : (s.putB g b).sup = s.sup := rfl
@[simp] theorem putB_net (s : State) (g : Fld) (b : Bool) : (s.putB g b).net = s.net := rfl
@[simp] theorem putB_axes (s : State) (g : Fld) (b : Bool) : (s.putB g b).axes = s.axes := rfl
@[simp] theorem putB_herds (s : State) (g : Fld) (b : Bool) : (s.putB g b).herds = s.herds := rfl
@[simp] theorem putB_latchQ (s : State) (g : Fld) (b : Bool) : (s.putB g b).latchQ = s.latchQ := rfl
@[simp] theorem putB_sub (s : State) (g : Fld) (b : Bool) : (s.putB g b).sub = s.sub := rfl
@[simp] theorem putB_vm (s : State) (g : Fld) (b : Bool) : (s.putB g b).vm = s.vm := rfl
@[simp] theorem putB_balls (s : State) (g : Fld) (b : Bool) : (s.putB g b).balls = s.balls := rfl
@[simp] theorem putB_chans (s : State) (g : Fld) (b : Bool) : (s.putB g b).chans = s.chans := rfl
@[simp] theorem putB_bridges (s : State) (g : Fld) (b : Bool) : (s.putB g b).bridges = s.bridges := rfl
@[simp] theorem putB_pwmAxes (s : State) (g : Fld) (b : Bool) : (s.putB g b).pwmAxes = s.pwmAxes := rfl
@[simp] theorem putB_aux (s : State) (g : Fld) (b : Bool) : (s.putB g b).aux = s.aux := rfl
@[simp] theorem putB_timers (s : State) (g : Fld) (b : Bool) : (s.putB g b).timers = s.timers := rfl
@[simp] theorem putB_phases (s : State) (g : Fld) (b : Bool) : (s.putB g b).phases = s.phases := rfl
@[simp] theorem putB_curs (s : State) (g : Fld) (b : Bool) : (s.putB g b).curs = s.curs := rfl
@[simp] theorem putB_fbks (s : State) (g : Fld) (b : Bool) : (s.putB g b).fbks = s.fbks := rfl
@[simp] theorem putB_obss (s : State) (g : Fld) (b : Bool) : (s.putB g b).obss = s.obss := rfl
@[simp] theorem putB_dcb (s : State) (g : Fld) (b : Bool) : (s.putB g b).dcb = s.dcb := rfl
@[simp] theorem putB_cmp (s : State) (g : Fld) (b : Bool) : (s.putB g b).cmp = s.cmp := rfl
@[simp] theorem putB_pmc (s : State) (g : Fld) (b : Bool) : (s.putB g b).pmc = s.pmc := rfl
@[simp] theorem putB_host (s : State) (g : Fld) (b : Bool) : (s.putB g b).host = s.host := rfl
@[simp] theorem putB_dbg (s : State) (g : Fld) (b : Bool) : (s.putB g b).dbg = s.dbg := rfl

/-! ### putS -/

@[simp] theorem putS_pending (s : State) (g : Fld) (x : Int) : (s.putS g x).pending = s.pending := rfl
@[simp] theorem putS_free (s : State) (g : Fld) (x : Int) : (s.putS g x).free = s.free := rfl
@[simp] theorem putS_held (s : State) (g : Fld) (x : Int) : (s.putS g x).held = s.held := rfl
@[simp] theorem putS_now (s : State) (g : Fld) (x : Int) : (s.putS g x).now = s.now := rfl
@[simp] theorem putS_staged (s : State) (g : Fld) (x : Int) : (s.putS g x).staged = s.staged := rfl
@[simp] theorem putS_snaps (s : State) (g : Fld) (x : Int) : (s.putS g x).snaps = s.snaps := rfl
@[simp] theorem putS_frm (s : State) (g : Fld) (x : Int) : (s.putS g x).frm = s.frm := rfl
@[simp] theorem putS_cfg (s : State) (g : Fld) (x : Int) : (s.putS g x).cfg = s.cfg := rfl
@[simp] theorem putS_log (s : State) (g : Fld) (x : Int) : (s.putS g x).log = s.log := rfl
@[simp] theorem putS_nvs (s : State) (g : Fld) (x : Int) : (s.putS g x).nvs = s.nvs := rfl
@[simp] theorem putS_backup (s : State) (g : Fld) (x : Int) : (s.putS g x).backup = s.backup := rfl
@[simp] theorem putS_guard (s : State) (g : Fld) (x : Int) : (s.putS g x).guard = s.guard := rfl
@[simp] theorem putS_sup (s : State) (g : Fld) (x : Int) : (s.putS g x).sup = s.sup := rfl
@[simp] theorem putS_net (s : State) (g : Fld) (x : Int) : (s.putS g x).net = s.net := rfl
@[simp] theorem putS_axes (s : State) (g : Fld) (x : Int) : (s.putS g x).axes = s.axes := rfl
@[simp] theorem putS_herds (s : State) (g : Fld) (x : Int) : (s.putS g x).herds = s.herds := rfl
@[simp] theorem putS_latchQ (s : State) (g : Fld) (x : Int) : (s.putS g x).latchQ = s.latchQ := rfl
@[simp] theorem putS_sub (s : State) (g : Fld) (x : Int) : (s.putS g x).sub = s.sub := rfl
@[simp] theorem putS_vm (s : State) (g : Fld) (x : Int) : (s.putS g x).vm = s.vm := rfl
@[simp] theorem putS_balls (s : State) (g : Fld) (x : Int) : (s.putS g x).balls = s.balls := rfl
@[simp] theorem putS_chans (s : State) (g : Fld) (x : Int) : (s.putS g x).chans = s.chans := rfl
@[simp] theorem putS_bridges (s : State) (g : Fld) (x : Int) : (s.putS g x).bridges = s.bridges := rfl
@[simp] theorem putS_pwmAxes (s : State) (g : Fld) (x : Int) : (s.putS g x).pwmAxes = s.pwmAxes := rfl
@[simp] theorem putS_aux (s : State) (g : Fld) (x : Int) : (s.putS g x).aux = s.aux := rfl
@[simp] theorem putS_timers (s : State) (g : Fld) (x : Int) : (s.putS g x).timers = s.timers := rfl
@[simp] theorem putS_phases (s : State) (g : Fld) (x : Int) : (s.putS g x).phases = s.phases := rfl
@[simp] theorem putS_curs (s : State) (g : Fld) (x : Int) : (s.putS g x).curs = s.curs := rfl
@[simp] theorem putS_fbks (s : State) (g : Fld) (x : Int) : (s.putS g x).fbks = s.fbks := rfl
@[simp] theorem putS_obss (s : State) (g : Fld) (x : Int) : (s.putS g x).obss = s.obss := rfl
@[simp] theorem putS_dcb (s : State) (g : Fld) (x : Int) : (s.putS g x).dcb = s.dcb := rfl
@[simp] theorem putS_cmp (s : State) (g : Fld) (x : Int) : (s.putS g x).cmp = s.cmp := rfl
@[simp] theorem putS_pmc (s : State) (g : Fld) (x : Int) : (s.putS g x).pmc = s.pmc := rfl
@[simp] theorem putS_host (s : State) (g : Fld) (x : Int) : (s.putS g x).host = s.host := rfl
@[simp] theorem putS_dbg (s : State) (g : Fld) (x : Int) : (s.putS g x).dbg = s.dbg := rfl

/-! ### putWide -/

@[simp] theorem putWide_pending (s : State) (w a v : Nat) : (s.putWide w a v).pending = s.pending := rfl
@[simp] theorem putWide_free (s : State) (w a v : Nat) : (s.putWide w a v).free = s.free := rfl
@[simp] theorem putWide_held (s : State) (w a v : Nat) : (s.putWide w a v).held = s.held := rfl
@[simp] theorem putWide_now (s : State) (w a v : Nat) : (s.putWide w a v).now = s.now := rfl
@[simp] theorem putWide_staged (s : State) (w a v : Nat) : (s.putWide w a v).staged = s.staged := rfl
@[simp] theorem putWide_snaps (s : State) (w a v : Nat) : (s.putWide w a v).snaps = s.snaps := rfl
@[simp] theorem putWide_frm (s : State) (w a v : Nat) : (s.putWide w a v).frm = s.frm := rfl
@[simp] theorem putWide_cfg (s : State) (w a v : Nat) : (s.putWide w a v).cfg = s.cfg := rfl
@[simp] theorem putWide_log (s : State) (w a v : Nat) : (s.putWide w a v).log = s.log := rfl
@[simp] theorem putWide_nvs (s : State) (w a v : Nat) : (s.putWide w a v).nvs = s.nvs := rfl
@[simp] theorem putWide_backup (s : State) (w a v : Nat) : (s.putWide w a v).backup = s.backup := rfl
@[simp] theorem putWide_guard (s : State) (w a v : Nat) : (s.putWide w a v).guard = s.guard := rfl
@[simp] theorem putWide_sup (s : State) (w a v : Nat) : (s.putWide w a v).sup = s.sup := rfl
@[simp] theorem putWide_net (s : State) (w a v : Nat) : (s.putWide w a v).net = s.net := rfl
@[simp] theorem putWide_axes (s : State) (w a v : Nat) : (s.putWide w a v).axes = s.axes := rfl
@[simp] theorem putWide_herds (s : State) (w a v : Nat) : (s.putWide w a v).herds = s.herds := rfl
@[simp] theorem putWide_latchQ (s : State) (w a v : Nat) : (s.putWide w a v).latchQ = s.latchQ := rfl
@[simp] theorem putWide_sub (s : State) (w a v : Nat) : (s.putWide w a v).sub = s.sub := rfl
@[simp] theorem putWide_vm (s : State) (w a v : Nat) : (s.putWide w a v).vm = s.vm := rfl
@[simp] theorem putWide_balls (s : State) (w a v : Nat) : (s.putWide w a v).balls = s.balls := rfl
@[simp] theorem putWide_chans (s : State) (w a v : Nat) : (s.putWide w a v).chans = s.chans := rfl
@[simp] theorem putWide_bridges (s : State) (w a v : Nat) : (s.putWide w a v).bridges = s.bridges := rfl
@[simp] theorem putWide_pwmAxes (s : State) (w a v : Nat) : (s.putWide w a v).pwmAxes = s.pwmAxes := rfl
@[simp] theorem putWide_aux (s : State) (w a v : Nat) : (s.putWide w a v).aux = s.aux := rfl
@[simp] theorem putWide_timers (s : State) (w a v : Nat) : (s.putWide w a v).timers = s.timers := rfl
@[simp] theorem putWide_phases (s : State) (w a v : Nat) : (s.putWide w a v).phases = s.phases := rfl
@[simp] theorem putWide_curs (s : State) (w a v : Nat) : (s.putWide w a v).curs = s.curs := rfl
@[simp] theorem putWide_fbks (s : State) (w a v : Nat) : (s.putWide w a v).fbks = s.fbks := rfl
@[simp] theorem putWide_obss (s : State) (w a v : Nat) : (s.putWide w a v).obss = s.obss := rfl
@[simp] theorem putWide_dcb (s : State) (w a v : Nat) : (s.putWide w a v).dcb = s.dcb := rfl
@[simp] theorem putWide_cmp (s : State) (w a v : Nat) : (s.putWide w a v).cmp = s.cmp := rfl
@[simp] theorem putWide_pmc (s : State) (w a v : Nat) : (s.putWide w a v).pmc = s.pmc := rfl
@[simp] theorem putWide_host (s : State) (w a v : Nat) : (s.putWide w a v).host = s.host := rfl
@[simp] theorem putWide_dbg (s : State) (w a v : Nat) : (s.putWide w a v).dbg = s.dbg := rfl

/-! ### modFrm -/

@[simp] theorem modFrm_pending (s : State) (f : Frm → Frm) : (s.modFrm f).pending = s.pending := rfl
@[simp] theorem modFrm_free (s : State) (f : Frm → Frm) : (s.modFrm f).free = s.free := rfl
@[simp] theorem modFrm_held (s : State) (f : Frm → Frm) : (s.modFrm f).held = s.held := rfl
@[simp] theorem modFrm_now (s : State) (f : Frm → Frm) : (s.modFrm f).now = s.now := rfl
@[simp] theorem modFrm_regs (s : State) (f : Frm → Frm) : (s.modFrm f).regs = s.regs := rfl
@[simp] theorem modFrm_staged (s : State) (f : Frm → Frm) : (s.modFrm f).staged = s.staged := rfl
@[simp] theorem modFrm_snaps (s : State) (f : Frm → Frm) : (s.modFrm f).snaps = s.snaps := rfl
@[simp] theorem modFrm_cfg (s : State) (f : Frm → Frm) : (s.modFrm f).cfg = s.cfg := rfl
@[simp] theorem modFrm_log (s : State) (f : Frm → Frm) : (s.modFrm f).log = s.log := rfl
@[simp] theorem modFrm_nvs (s : State) (f : Frm → Frm) : (s.modFrm f).nvs = s.nvs := rfl
@[simp] theorem modFrm_backup (s : State) (f : Frm → Frm) : (s.modFrm f).backup = s.backup := rfl
@[simp] theorem modFrm_guard (s : State) (f : Frm → Frm) : (s.modFrm f).guard = s.guard := rfl
@[simp] theorem modFrm_sup (s : State) (f : Frm → Frm) : (s.modFrm f).sup = s.sup := rfl
@[simp] theorem modFrm_net (s : State) (f : Frm → Frm) : (s.modFrm f).net = s.net := rfl
@[simp] theorem modFrm_axes (s : State) (f : Frm → Frm) : (s.modFrm f).axes = s.axes := rfl
@[simp] theorem modFrm_herds (s : State) (f : Frm → Frm) : (s.modFrm f).herds = s.herds := rfl
@[simp] theorem modFrm_latchQ (s : State) (f : Frm → Frm) : (s.modFrm f).latchQ = s.latchQ := rfl
@[simp] theorem modFrm_sub (s : State) (f : Frm → Frm) : (s.modFrm f).sub = s.sub := rfl
@[simp] theorem modFrm_vm (s : State) (f : Frm → Frm) : (s.modFrm f).vm = s.vm := rfl
@[simp] theorem modFrm_balls (s : State) (f : Frm → Frm) : (s.modFrm f).balls = s.balls := rfl
@[simp] theorem modFrm_chans (s : State) (f : Frm → Frm) : (s.modFrm f).chans = s.chans := rfl
@[simp] theorem modFrm_bridges (s : State) (f : Frm → Frm) : (s.modFrm f).bridges = s.bridges := rfl
@[simp] theorem modFrm_pwmAxes (s : State) (f : Frm → Frm) : (s.modFrm f).pwmAxes = s.pwmAxes := rfl
@[simp] theorem modFrm_aux (s : State) (f : Frm → Frm) : (s.modFrm f).aux = s.aux := rfl
@[simp] theorem modFrm_timers (s : State) (f : Frm → Frm) : (s.modFrm f).timers = s.timers := rfl
@[simp] theorem modFrm_phases (s : State) (f : Frm → Frm) : (s.modFrm f).phases = s.phases := rfl
@[simp] theorem modFrm_curs (s : State) (f : Frm → Frm) : (s.modFrm f).curs = s.curs := rfl
@[simp] theorem modFrm_fbks (s : State) (f : Frm → Frm) : (s.modFrm f).fbks = s.fbks := rfl
@[simp] theorem modFrm_obss (s : State) (f : Frm → Frm) : (s.modFrm f).obss = s.obss := rfl
@[simp] theorem modFrm_dcb (s : State) (f : Frm → Frm) : (s.modFrm f).dcb = s.dcb := rfl
@[simp] theorem modFrm_cmp (s : State) (f : Frm → Frm) : (s.modFrm f).cmp = s.cmp := rfl
@[simp] theorem modFrm_pmc (s : State) (f : Frm → Frm) : (s.modFrm f).pmc = s.pmc := rfl
@[simp] theorem modFrm_host (s : State) (f : Frm → Frm) : (s.modFrm f).host = s.host := rfl
@[simp] theorem modFrm_dbg (s : State) (f : Frm → Frm) : (s.modFrm f).dbg = s.dbg := rfl
@[simp] theorem modFrm_rd (s : State) (f : Frm → Frm) (a : Nat) : (s.modFrm f).rd a = s.rd a := rfl
@[simp] theorem modFrm_get (s : State) (f : Frm → Frm) (g : Fld) : (s.modFrm f).get g = s.get g := rfl
@[simp] theorem modFrm_flag (s : State) (f : Frm → Frm) (g : Fld) : (s.modFrm f).flag g = s.flag g := rfl

/-! ### modNet -/

@[simp] theorem modNet_pending (s : State) (f : Net → Net) : (s.modNet f).pending = s.pending := rfl
@[simp] theorem modNet_free (s : State) (f : Net → Net) : (s.modNet f).free = s.free := rfl
@[simp] theorem modNet_held (s : State) (f : Net → Net) : (s.modNet f).held = s.held := rfl
@[simp] theorem modNet_now (s : State) (f : Net → Net) : (s.modNet f).now = s.now := rfl
@[simp] theorem modNet_regs (s : State) (f : Net → Net) : (s.modNet f).regs = s.regs := rfl
@[simp] theorem modNet_staged (s : State) (f : Net → Net) : (s.modNet f).staged = s.staged := rfl
@[simp] theorem modNet_snaps (s : State) (f : Net → Net) : (s.modNet f).snaps = s.snaps := rfl
@[simp] theorem modNet_frm (s : State) (f : Net → Net) : (s.modNet f).frm = s.frm := rfl
@[simp] theorem modNet_cfg (s : State) (f : Net → Net) : (s.modNet f).cfg = s.cfg := rfl
@[simp] theorem modNet_log (s : State) (f : Net → Net) : (s.modNet f).log = s.log := rfl
@[simp] theorem modNet_nvs (s : State) (f : Net → Net) : (s.modNet f).nvs = s.nvs := rfl
@[simp] theorem modNet_backup (s : State) (f : Net → Net) : (s.modNet f).backup = s.backup := rfl
@[simp] theorem modNet_guard (s : State) (f : Net → Net) : (s.modNet f).guard = s.guard := rfl
@[simp] theorem modNet_sup (s : State) (f : Net → Net) : (s.modNet f).sup = s.sup := rfl
@[simp] theorem modNet_axes (s : State) (f : Net → Net) : (s.modNet f).axes = s.axes := rfl
@[simp] theorem modNet_herds (s : State) (f : Net → Net) : (s.modNet f).herds = s.herds := rfl
@[simp] theorem modNet_latchQ (s : State) (f : Net → Net) : (s.modNet f).latchQ = s.latchQ := rfl
@[simp] theorem modNet_sub (s : State) (f : Net → Net) : (s.modNet f).sub = s.sub := rfl
@[simp] theorem modNet_vm (s : State) (f : Net → Net) : (s.modNet f).vm = s.vm := rfl
@[simp] theorem modNet_balls (s : State) (f : Net → Net) : (s.modNet f).balls = s.balls := rfl
@[simp] theorem modNet_chans (s : State) (f : Net → Net) : (s.modNet f).chans = s.chans := rfl
@[simp] theorem modNet_bridges (s : State) (f : Net → Net) : (s.modNet f).bridges = s.bridges := rfl
@[simp] theorem modNet_pwmAxes (s : State) (f : Net → Net) : (s.modNet f).pwmAxes = s.pwmAxes := rfl
@[simp] theorem modNet_aux (s : State) (f : Net → Net) : (s.modNet f).aux = s.aux := rfl
@[simp] theorem modNet_timers (s : State) (f : Net → Net) : (s.modNet f).timers = s.timers := rfl
@[simp] theorem modNet_phases (s : State) (f : Net → Net) : (s.modNet f).phases = s.phases := rfl
@[simp] theorem modNet_curs (s : State) (f : Net → Net) : (s.modNet f).curs = s.curs := rfl
@[simp] theorem modNet_fbks (s : State) (f : Net → Net) : (s.modNet f).fbks = s.fbks := rfl
@[simp] theorem modNet_obss (s : State) (f : Net → Net) : (s.modNet f).obss = s.obss := rfl
@[simp] theorem modNet_dcb (s : State) (f : Net → Net) : (s.modNet f).dcb = s.dcb := rfl
@[simp] theorem modNet_cmp (s : State) (f : Net → Net) : (s.modNet f).cmp = s.cmp := rfl
@[simp] theorem modNet_pmc (s : State) (f : Net → Net) : (s.modNet f).pmc = s.pmc := rfl
@[simp] theorem modNet_host (s : State) (f : Net → Net) : (s.modNet f).host = s.host := rfl
@[simp] theorem modNet_dbg (s : State) (f : Net → Net) : (s.modNet f).dbg = s.dbg := rfl
@[simp] theorem modNet_rd (s : State) (f : Net → Net) (a : Nat) : (s.modNet f).rd a = s.rd a := rfl
@[simp] theorem modNet_get (s : State) (f : Net → Net) (g : Fld) : (s.modNet f).get g = s.get g := rfl
@[simp] theorem modNet_flag (s : State) (f : Net → Net) (g : Fld) : (s.modNet f).flag g = s.flag g := rfl

/-! ### modRs -/

@[simp] theorem modRs_pending (s : State) (f : RootSt → RootSt) : (s.modRs f).pending = s.pending := rfl
@[simp] theorem modRs_free (s : State) (f : RootSt → RootSt) : (s.modRs f).free = s.free := rfl
@[simp] theorem modRs_held (s : State) (f : RootSt → RootSt) : (s.modRs f).held = s.held := rfl
@[simp] theorem modRs_now (s : State) (f : RootSt → RootSt) : (s.modRs f).now = s.now := rfl
@[simp] theorem modRs_regs (s : State) (f : RootSt → RootSt) : (s.modRs f).regs = s.regs := rfl
@[simp] theorem modRs_staged (s : State) (f : RootSt → RootSt) : (s.modRs f).staged = s.staged := rfl
@[simp] theorem modRs_snaps (s : State) (f : RootSt → RootSt) : (s.modRs f).snaps = s.snaps := rfl
@[simp] theorem modRs_frm (s : State) (f : RootSt → RootSt) : (s.modRs f).frm = s.frm := rfl
@[simp] theorem modRs_cfg (s : State) (f : RootSt → RootSt) : (s.modRs f).cfg = s.cfg := rfl
@[simp] theorem modRs_log (s : State) (f : RootSt → RootSt) : (s.modRs f).log = s.log := rfl
@[simp] theorem modRs_nvs (s : State) (f : RootSt → RootSt) : (s.modRs f).nvs = s.nvs := rfl
@[simp] theorem modRs_backup (s : State) (f : RootSt → RootSt) : (s.modRs f).backup = s.backup := rfl
@[simp] theorem modRs_guard (s : State) (f : RootSt → RootSt) : (s.modRs f).guard = s.guard := rfl
@[simp] theorem modRs_sup (s : State) (f : RootSt → RootSt) : (s.modRs f).sup = s.sup := rfl
@[simp] theorem modRs_axes (s : State) (f : RootSt → RootSt) : (s.modRs f).axes = s.axes := rfl
@[simp] theorem modRs_herds (s : State) (f : RootSt → RootSt) : (s.modRs f).herds = s.herds := rfl
@[simp] theorem modRs_latchQ (s : State) (f : RootSt → RootSt) : (s.modRs f).latchQ = s.latchQ := rfl
@[simp] theorem modRs_sub (s : State) (f : RootSt → RootSt) : (s.modRs f).sub = s.sub := rfl
@[simp] theorem modRs_vm (s : State) (f : RootSt → RootSt) : (s.modRs f).vm = s.vm := rfl
@[simp] theorem modRs_balls (s : State) (f : RootSt → RootSt) : (s.modRs f).balls = s.balls := rfl
@[simp] theorem modRs_chans (s : State) (f : RootSt → RootSt) : (s.modRs f).chans = s.chans := rfl
@[simp] theorem modRs_bridges (s : State) (f : RootSt → RootSt) : (s.modRs f).bridges = s.bridges := rfl
@[simp] theorem modRs_pwmAxes (s : State) (f : RootSt → RootSt) : (s.modRs f).pwmAxes = s.pwmAxes := rfl
@[simp] theorem modRs_aux (s : State) (f : RootSt → RootSt) : (s.modRs f).aux = s.aux := rfl
@[simp] theorem modRs_timers (s : State) (f : RootSt → RootSt) : (s.modRs f).timers = s.timers := rfl
@[simp] theorem modRs_phases (s : State) (f : RootSt → RootSt) : (s.modRs f).phases = s.phases := rfl
@[simp] theorem modRs_curs (s : State) (f : RootSt → RootSt) : (s.modRs f).curs = s.curs := rfl
@[simp] theorem modRs_fbks (s : State) (f : RootSt → RootSt) : (s.modRs f).fbks = s.fbks := rfl
@[simp] theorem modRs_obss (s : State) (f : RootSt → RootSt) : (s.modRs f).obss = s.obss := rfl
@[simp] theorem modRs_dcb (s : State) (f : RootSt → RootSt) : (s.modRs f).dcb = s.dcb := rfl
@[simp] theorem modRs_cmp (s : State) (f : RootSt → RootSt) : (s.modRs f).cmp = s.cmp := rfl
@[simp] theorem modRs_pmc (s : State) (f : RootSt → RootSt) : (s.modRs f).pmc = s.pmc := rfl
@[simp] theorem modRs_host (s : State) (f : RootSt → RootSt) : (s.modRs f).host = s.host := rfl
@[simp] theorem modRs_dbg (s : State) (f : RootSt → RootSt) : (s.modRs f).dbg = s.dbg := rfl
@[simp] theorem modRs_rd (s : State) (f : RootSt → RootSt) (a : Nat) : (s.modRs f).rd a = s.rd a := rfl
@[simp] theorem modRs_get (s : State) (f : RootSt → RootSt) (g : Fld) : (s.modRs f).get g = s.get g := rfl
@[simp] theorem modRs_flag (s : State) (f : RootSt → RootSt) (g : Fld) : (s.modRs f).flag g = s.flag g := rfl

/-! ### modNp -/

@[simp] theorem modNp_pending (s : State) (q : Nat) (f : NetPort → NetPort) : (s.modNp q f).pending = s.pending := rfl
@[simp] theorem modNp_free (s : State) (q : Nat) (f : NetPort → NetPort) : (s.modNp q f).free = s.free := rfl
@[simp] theorem modNp_held (s : State) (q : Nat) (f : NetPort → NetPort) : (s.modNp q f).held = s.held := rfl
@[simp] theorem modNp_now (s : State) (q : Nat) (f : NetPort → NetPort) : (s.modNp q f).now = s.now := rfl
@[simp] theorem modNp_regs (s : State) (q : Nat) (f : NetPort → NetPort) : (s.modNp q f).regs = s.regs := rfl
@[simp] theorem modNp_staged (s : State) (q : Nat) (f : NetPort → NetPort) : (s.modNp q f).staged = s.staged := rfl
@[simp] theorem modNp_snaps (s : State) (q : Nat) (f : NetPort → NetPort) : (s.modNp q f).snaps = s.snaps := rfl
@[simp] theorem modNp_frm (s : State) (q : Nat) (f : NetPort → NetPort) : (s.modNp q f).frm = s.frm := rfl
@[simp] theorem modNp_cfg (s : State) (q : Nat) (f : NetPort → NetPort) : (s.modNp q f).cfg = s.cfg := rfl
@[simp] theorem modNp_log (s : State) (q : Nat) (f : NetPort → NetPort) : (s.modNp q f).log = s.log := rfl
@[simp] theorem modNp_nvs (s : State) (q : Nat) (f : NetPort → NetPort) : (s.modNp q f).nvs = s.nvs := rfl
@[simp] theorem modNp_backup (s : State) (q : Nat) (f : NetPort → NetPort) : (s.modNp q f).backup = s.backup := rfl
@[simp] theorem modNp_guard (s : State) (q : Nat) (f : NetPort → NetPort) : (s.modNp q f).guard = s.guard := rfl
@[simp] theorem modNp_sup (s : State) (q : Nat) (f : NetPort → NetPort) : (s.modNp q f).sup = s.sup := rfl
@[simp] theorem modNp_axes (s : State) (q : Nat) (f : NetPort → NetPort) : (s.modNp q f).axes = s.axes := rfl
@[simp] theorem modNp_herds (s : State) (q : Nat) (f : NetPort → NetPort) : (s.modNp q f).herds = s.herds := rfl
@[simp] theorem modNp_latchQ (s : State) (q : Nat) (f : NetPort → NetPort) : (s.modNp q f).latchQ = s.latchQ := rfl
@[simp] theorem modNp_sub (s : State) (q : Nat) (f : NetPort → NetPort) : (s.modNp q f).sub = s.sub := rfl
@[simp] theorem modNp_vm (s : State) (q : Nat) (f : NetPort → NetPort) : (s.modNp q f).vm = s.vm := rfl
@[simp] theorem modNp_balls (s : State) (q : Nat) (f : NetPort → NetPort) : (s.modNp q f).balls = s.balls := rfl
@[simp] theorem modNp_chans (s : State) (q : Nat) (f : NetPort → NetPort) : (s.modNp q f).chans = s.chans := rfl
@[simp] theorem modNp_bridges (s : State) (q : Nat) (f : NetPort → NetPort) : (s.modNp q f).bridges = s.bridges := rfl
@[simp] theorem modNp_pwmAxes (s : State) (q : Nat) (f : NetPort → NetPort) : (s.modNp q f).pwmAxes = s.pwmAxes := rfl
@[simp] theorem modNp_aux (s : State) (q : Nat) (f : NetPort → NetPort) : (s.modNp q f).aux = s.aux := rfl
@[simp] theorem modNp_timers (s : State) (q : Nat) (f : NetPort → NetPort) : (s.modNp q f).timers = s.timers := rfl
@[simp] theorem modNp_phases (s : State) (q : Nat) (f : NetPort → NetPort) : (s.modNp q f).phases = s.phases := rfl
@[simp] theorem modNp_curs (s : State) (q : Nat) (f : NetPort → NetPort) : (s.modNp q f).curs = s.curs := rfl
@[simp] theorem modNp_fbks (s : State) (q : Nat) (f : NetPort → NetPort) : (s.modNp q f).fbks = s.fbks := rfl
@[simp] theorem modNp_obss (s : State) (q : Nat) (f : NetPort → NetPort) : (s.modNp q f).obss = s.obss := rfl
@[simp] theorem modNp_dcb (s : State) (q : Nat) (f : NetPort → NetPort) : (s.modNp q f).dcb = s.dcb := rfl
@[simp] theorem modNp_cmp (s : State) (q : Nat) (f : NetPort → NetPort) : (s.modNp q f).cmp = s.cmp := rfl
@[simp] theorem modNp_pmc (s : State) (q : Nat) (f : NetPort → NetPort) : (s.modNp q f).pmc = s.pmc := rfl
@[simp] theorem modNp_host (s : State) (q : Nat) (f : NetPort → NetPort) : (s.modNp q f).host = s.host := rfl
@[simp] theorem modNp_dbg (s : State) (q : Nat) (f : NetPort → NetPort) : (s.modNp q f).dbg = s.dbg := rfl
@[simp] theorem modNp_rd (s : State) (q : Nat) (f : NetPort → NetPort) (a : Nat) : (s.modNp q f).rd a = s.rd a := rfl
@[simp] theorem modNp_get (s : State) (q : Nat) (f : NetPort → NetPort) (g : Fld) : (s.modNp q f).get g = s.get g := rfl
@[simp] theorem modNp_flag (s : State) (q : Nat) (f : NetPort → NetPort) (g : Fld) : (s.modNp q f).flag g = s.flag g := rfl

/-! ### modAx -/

@[simp] theorem modAx_pending (s : State) (n : Nat) (f : Axis → Axis) : (s.modAx n f).pending = s.pending := rfl
@[simp] theorem modAx_free (s : State) (n : Nat) (f : Axis → Axis) : (s.modAx n f).free = s.free := rfl
@[simp] theorem modAx_held (s : State) (n : Nat) (f : Axis → Axis) : (s.modAx n f).held = s.held := rfl
@[simp] theorem modAx_now (s : State) (n : Nat) (f : Axis → Axis) : (s.modAx n f).now = s.now := rfl
@[simp] theorem modAx_regs (s : State) (n : Nat) (f : Axis → Axis) : (s.modAx n f).regs = s.regs := rfl
@[simp] theorem modAx_staged (s : State) (n : Nat) (f : Axis → Axis) : (s.modAx n f).staged = s.staged := rfl
@[simp] theorem modAx_snaps (s : State) (n : Nat) (f : Axis → Axis) : (s.modAx n f).snaps = s.snaps := rfl
@[simp] theorem modAx_frm (s : State) (n : Nat) (f : Axis → Axis) : (s.modAx n f).frm = s.frm := rfl
@[simp] theorem modAx_cfg (s : State) (n : Nat) (f : Axis → Axis) : (s.modAx n f).cfg = s.cfg := rfl
@[simp] theorem modAx_log (s : State) (n : Nat) (f : Axis → Axis) : (s.modAx n f).log = s.log := rfl
@[simp] theorem modAx_nvs (s : State) (n : Nat) (f : Axis → Axis) : (s.modAx n f).nvs = s.nvs := rfl
@[simp] theorem modAx_backup (s : State) (n : Nat) (f : Axis → Axis) : (s.modAx n f).backup = s.backup := rfl
@[simp] theorem modAx_guard (s : State) (n : Nat) (f : Axis → Axis) : (s.modAx n f).guard = s.guard := rfl
@[simp] theorem modAx_sup (s : State) (n : Nat) (f : Axis → Axis) : (s.modAx n f).sup = s.sup := rfl
@[simp] theorem modAx_net (s : State) (n : Nat) (f : Axis → Axis) : (s.modAx n f).net = s.net := rfl
@[simp] theorem modAx_herds (s : State) (n : Nat) (f : Axis → Axis) : (s.modAx n f).herds = s.herds := rfl
@[simp] theorem modAx_latchQ (s : State) (n : Nat) (f : Axis → Axis) : (s.modAx n f).latchQ = s.latchQ := rfl
@[simp] theorem modAx_sub (s : State) (n : Nat) (f : Axis → Axis) : (s.modAx n f).sub = s.sub := rfl
@[simp] theorem modAx_vm (s : State) (n : Nat) (f : Axis → Axis) : (s.modAx n f).vm = s.vm := rfl
@[simp] theorem modAx_balls (s : State) (n : Nat) (f : Axis → Axis) : (s.modAx n f).balls = s.balls := rfl
@[simp] theorem modAx_chans (s : State) (n : Nat) (f : Axis → Axis) : (s.modAx n f).chans = s.chans := rfl
@[simp] theorem modAx_bridges (s : State) (n : Nat) (f : Axis → Axis) : (s.modAx n f).bridges = s.bridges := rfl
@[simp] theorem modAx_pwmAxes (s : State) (n : Nat) (f : Axis → Axis) : (s.modAx n f).pwmAxes = s.pwmAxes := rfl
@[simp] theorem modAx_aux (s : State) (n : Nat) (f : Axis → Axis) : (s.modAx n f).aux = s.aux := rfl
@[simp] theorem modAx_timers (s : State) (n : Nat) (f : Axis → Axis) : (s.modAx n f).timers = s.timers := rfl
@[simp] theorem modAx_phases (s : State) (n : Nat) (f : Axis → Axis) : (s.modAx n f).phases = s.phases := rfl
@[simp] theorem modAx_curs (s : State) (n : Nat) (f : Axis → Axis) : (s.modAx n f).curs = s.curs := rfl
@[simp] theorem modAx_fbks (s : State) (n : Nat) (f : Axis → Axis) : (s.modAx n f).fbks = s.fbks := rfl
@[simp] theorem modAx_obss (s : State) (n : Nat) (f : Axis → Axis) : (s.modAx n f).obss = s.obss := rfl
@[simp] theorem modAx_dcb (s : State) (n : Nat) (f : Axis → Axis) : (s.modAx n f).dcb = s.dcb := rfl
@[simp] theorem modAx_cmp (s : State) (n : Nat) (f : Axis → Axis) : (s.modAx n f).cmp = s.cmp := rfl
@[simp] theorem modAx_pmc (s : State) (n : Nat) (f : Axis → Axis) : (s.modAx n f).pmc = s.pmc := rfl
@[simp] theorem modAx_host (s : State) (n : Nat) (f : Axis → Axis) : (s.modAx n f).host = s.host := rfl
@[simp] theorem modAx_dbg (s : State) (n : Nat) (f : Axis → Axis) : (s.modAx n f).dbg = s.dbg := rfl
@[simp] theorem modAx_rd (s : State) (n : Nat) (f : Axis → Axis) (a : Nat) : (s.modAx n f).rd a = s.rd a := rfl
@[simp] theorem modAx_get (s : State) (n : Nat) (f : Axis → Axis) (g : Fld) : (s.modAx n f).get g = s.get g := rfl
@[simp] theorem modAx_flag (s : State) (n : Nat) (f : Axis → Axis) (g : Fld) : (s.modAx n f).flag g = s.flag g := rfl

/-! ### modBr -/

@[simp] theorem modBr_pending (s : State) (k : Nat) (f : Bridge → Bridge) : (s.modBr k f).pending = s.pending := rfl
@[simp] theorem modBr_free (s : State) (k : Nat) (f : Bridge → Bridge) : (s.modBr k f).free = s.free := rfl
@[simp] theorem modBr_held (s : State) (k : Nat) (f : Bridge → Bridge) : (s.modBr k f).held = s.held := rfl
@[simp] theorem modBr_now (s : State) (k : Nat) (f : Bridge → Bridge) : (s.modBr k f).now = s.now := rfl
@[simp] theorem modBr_regs (s : State) (k : Nat) (f : Bridge → Bridge) : (s.modBr k f).regs = s.regs := rfl
@[simp] theorem modBr_staged (s : State) (k : Nat) (f : Bridge → Bridge) : (s.modBr k f).staged = s.staged := rfl
@[simp] theorem modBr_snaps (s : State) (k : Nat) (f : Bridge → Bridge) : (s.modBr k f).snaps = s.snaps := rfl
@[simp] theorem modBr_frm (s : State) (k : Nat) (f : Bridge → Bridge) : (s.modBr k f).frm = s.frm := rfl
@[simp] theorem modBr_cfg (s : State) (k : Nat) (f : Bridge → Bridge) : (s.modBr k f).cfg = s.cfg := rfl
@[simp] theorem modBr_log (s : State) (k : Nat) (f : Bridge → Bridge) : (s.modBr k f).log = s.log := rfl
@[simp] theorem modBr_nvs (s : State) (k : Nat) (f : Bridge → Bridge) : (s.modBr k f).nvs = s.nvs := rfl
@[simp] theorem modBr_backup (s : State) (k : Nat) (f : Bridge → Bridge) : (s.modBr k f).backup = s.backup := rfl
@[simp] theorem modBr_guard (s : State) (k : Nat) (f : Bridge → Bridge) : (s.modBr k f).guard = s.guard := rfl
@[simp] theorem modBr_sup (s : State) (k : Nat) (f : Bridge → Bridge) : (s.modBr k f).sup = s.sup := rfl
@[simp] theorem modBr_net (s : State) (k : Nat) (f : Bridge → Bridge) : (s.modBr k f).net = s.net := rfl
@[simp] theorem modBr_axes (s : State) (k : Nat) (f : Bridge → Bridge) : (s.modBr k f).axes = s.axes := rfl
@[simp] theorem modBr_herds (s : State) (k : Nat) (f : Bridge → Bridge) : (s.modBr k f).herds = s.herds := rfl
@[simp] theorem modBr_latchQ (s : State) (k : Nat) (f : Bridge → Bridge) : (s.modBr k f).latchQ = s.latchQ := rfl
@[simp] theorem modBr_sub (s : State) (k : Nat) (f : Bridge → Bridge) : (s.modBr k f).sub = s.sub := rfl
@[simp] theorem modBr_vm (s : State) (k : Nat) (f : Bridge → Bridge) : (s.modBr k f).vm = s.vm := rfl
@[simp] theorem modBr_balls (s : State) (k : Nat) (f : Bridge → Bridge) : (s.modBr k f).balls = s.balls := rfl
@[simp] theorem modBr_chans (s : State) (k : Nat) (f : Bridge → Bridge) : (s.modBr k f).chans = s.chans := rfl
@[simp] theorem modBr_pwmAxes (s : State) (k : Nat) (f : Bridge → Bridge) : (s.modBr k f).pwmAxes = s.pwmAxes := rfl
@[simp] theorem modBr_aux (s : State) (k : Nat) (f : Bridge → Bridge) : (s.modBr k f).aux = s.aux := rfl
@[simp] theorem modBr_timers (s : State) (k : Nat) (f : Bridge → Bridge) : (s.modBr k f).timers = s.timers := rfl
@[simp] theorem modBr_phases (s : State) (k : Nat) (f : Bridge → Bridge) : (s.modBr k f).phases = s.phases := rfl
@[simp] theorem modBr_curs (s : State) (k : Nat) (f : Bridge → Bridge) : (s.modBr k f).curs = s.curs := rfl
@[simp] theorem modBr_fbks (s : State) (k : Nat) (f : Bridge → Bridge) : (s.modBr k f).fbks = s.fbks := rfl
@[simp] theorem modBr_obss (s : State) (k : Nat) (f : Bridge → Bridge) : (s.modBr k f).obss = s.obss := rfl
@[simp] theorem modBr_dcb (s : State) (k : Nat) (f : Bridge → Bridge) : (s.modBr k f).dcb = s.dcb := rfl
@[simp] theorem modBr_cmp (s : State) (k : Nat) (f : Bridge → Bridge) : (s.modBr k f).cmp = s.cmp := rfl
@[simp] theorem modBr_pmc (s : State) (k : Nat) (f : Bridge → Bridge) : (s.modBr k f).pmc = s.pmc := rfl
@[simp] theorem modBr_host (s : State) (k : Nat) (f : Bridge → Bridge) : (s.modBr k f).host = s.host := rfl
@[simp] theorem modBr_dbg (s : State) (k : Nat) (f : Bridge → Bridge) : (s.modBr k f).dbg = s.dbg := rfl
@[simp] theorem modBr_rd (s : State) (k : Nat) (f : Bridge → Bridge) (a : Nat) : (s.modBr k f).rd a = s.rd a := rfl
@[simp] theorem modBr_get (s : State) (k : Nat) (f : Bridge → Bridge) (g : Fld) : (s.modBr k f).get g = s.get g := rfl
@[simp] theorem modBr_flag (s : State) (k : Nat) (f : Bridge → Bridge) (g : Fld) : (s.modBr k f).flag g = s.flag g := rfl

/-! ### modPw -/

@[simp] theorem modPw_pending (s : State) (n : Nat) (f : PwmAxis → PwmAxis) : (s.modPw n f).pending = s.pending := rfl
@[simp] theorem modPw_free (s : State) (n : Nat) (f : PwmAxis → PwmAxis) : (s.modPw n f).free = s.free := rfl
@[simp] theorem modPw_held (s : State) (n : Nat) (f : PwmAxis → PwmAxis) : (s.modPw n f).held = s.held := rfl
@[simp] theorem modPw_now (s : State) (n : Nat) (f : PwmAxis → PwmAxis) : (s.modPw n f).now = s.now := rfl
@[simp] theorem modPw_regs (s : State) (n : Nat) (f : PwmAxis → PwmAxis) : (s.modPw n f).regs = s.regs := rfl
@[simp] theorem modPw_staged (s : State) (n : Nat) (f : PwmAxis → PwmAxis) : (s.modPw n f).staged = s.staged := rfl
@[simp] theorem modPw_snaps (s : State) (n : Nat) (f : PwmAxis → PwmAxis) : (s.modPw n f).snaps = s.snaps := rfl
@[simp] theorem modPw_frm (s : State) (n : Nat) (f : PwmAxis → PwmAxis) : (s.modPw n f).frm = s.frm := rfl
@[simp] theorem modPw_cfg (s : State) (n : Nat) (f : PwmAxis → PwmAxis) : (s.modPw n f).cfg = s.cfg := rfl
@[simp] theorem modPw_log (s : State) (n : Nat) (f : PwmAxis → PwmAxis) : (s.modPw n f).log = s.log := rfl
@[simp] theorem modPw_nvs (s : State) (n : Nat) (f : PwmAxis → PwmAxis) : (s.modPw n f).nvs = s.nvs := rfl
@[simp] theorem modPw_backup (s : State) (n : Nat) (f : PwmAxis → PwmAxis) : (s.modPw n f).backup = s.backup := rfl
@[simp] theorem modPw_guard (s : State) (n : Nat) (f : PwmAxis → PwmAxis) : (s.modPw n f).guard = s.guard := rfl
@[simp] theorem modPw_sup (s : State) (n : Nat) (f : PwmAxis → PwmAxis) : (s.modPw n f).sup = s.sup := rfl
@[simp] theorem modPw_net (s : State) (n : Nat) (f : PwmAxis → PwmAxis) : (s.modPw n f).net = s.net := rfl
@[simp] theorem modPw_axes (s : State) (n : Nat) (f : PwmAxis → PwmAxis) : (s.modPw n f).axes = s.axes := rfl
@[simp] theorem modPw_herds (s : State) (n : Nat) (f : PwmAxis → PwmAxis) : (s.modPw n f).herds = s.herds := rfl
@[simp] theorem modPw_latchQ (s : State) (n : Nat) (f : PwmAxis → PwmAxis) : (s.modPw n f).latchQ = s.latchQ := rfl
@[simp] theorem modPw_sub (s : State) (n : Nat) (f : PwmAxis → PwmAxis) : (s.modPw n f).sub = s.sub := rfl
@[simp] theorem modPw_vm (s : State) (n : Nat) (f : PwmAxis → PwmAxis) : (s.modPw n f).vm = s.vm := rfl
@[simp] theorem modPw_balls (s : State) (n : Nat) (f : PwmAxis → PwmAxis) : (s.modPw n f).balls = s.balls := rfl
@[simp] theorem modPw_chans (s : State) (n : Nat) (f : PwmAxis → PwmAxis) : (s.modPw n f).chans = s.chans := rfl
@[simp] theorem modPw_bridges (s : State) (n : Nat) (f : PwmAxis → PwmAxis) : (s.modPw n f).bridges = s.bridges := rfl
@[simp] theorem modPw_aux (s : State) (n : Nat) (f : PwmAxis → PwmAxis) : (s.modPw n f).aux = s.aux := rfl
@[simp] theorem modPw_timers (s : State) (n : Nat) (f : PwmAxis → PwmAxis) : (s.modPw n f).timers = s.timers := rfl
@[simp] theorem modPw_phases (s : State) (n : Nat) (f : PwmAxis → PwmAxis) : (s.modPw n f).phases = s.phases := rfl
@[simp] theorem modPw_curs (s : State) (n : Nat) (f : PwmAxis → PwmAxis) : (s.modPw n f).curs = s.curs := rfl
@[simp] theorem modPw_fbks (s : State) (n : Nat) (f : PwmAxis → PwmAxis) : (s.modPw n f).fbks = s.fbks := rfl
@[simp] theorem modPw_obss (s : State) (n : Nat) (f : PwmAxis → PwmAxis) : (s.modPw n f).obss = s.obss := rfl
@[simp] theorem modPw_dcb (s : State) (n : Nat) (f : PwmAxis → PwmAxis) : (s.modPw n f).dcb = s.dcb := rfl
@[simp] theorem modPw_cmp (s : State) (n : Nat) (f : PwmAxis → PwmAxis) : (s.modPw n f).cmp = s.cmp := rfl
@[simp] theorem modPw_pmc (s : State) (n : Nat) (f : PwmAxis → PwmAxis) : (s.modPw n f).pmc = s.pmc := rfl
@[simp] theorem modPw_host (s : State) (n : Nat) (f : PwmAxis → PwmAxis) : (s.modPw n f).host = s.host := rfl
@[simp] theorem modPw_dbg (s : State) (n : Nat) (f : PwmAxis → PwmAxis) : (s.modPw n f).dbg = s.dbg := rfl
@[simp] theorem modPw_rd (s : State) (n : Nat) (f : PwmAxis → PwmAxis) (a : Nat) : (s.modPw n f).rd a = s.rd a := rfl
@[simp] theorem modPw_get (s : State) (n : Nat) (f : PwmAxis → PwmAxis) (g : Fld) : (s.modPw n f).get g = s.get g := rfl
@[simp] theorem modPw_flag (s : State) (n : Nat) (f : PwmAxis → PwmAxis) (g : Fld) : (s.modPw n f).flag g = s.flag g := rfl

/-! ### modAxu -/

@[simp] theorem modAxu_pending (s : State) (a : Nat) (f : Aux → Aux) : (s.modAxu a f).pending = s.pending := rfl
@[simp] theorem modAxu_free (s : State) (a : Nat) (f : Aux → Aux) : (s.modAxu a f).free = s.free := rfl
@[simp] theorem modAxu_held (s : State) (a : Nat) (f : Aux → Aux) : (s.modAxu a f).held = s.held := rfl
@[simp] theorem modAxu_now (s : State) (a : Nat) (f : Aux → Aux) : (s.modAxu a f).now = s.now := rfl
@[simp] theorem modAxu_regs (s : State) (a : Nat) (f : Aux → Aux) : (s.modAxu a f).regs = s.regs := rfl
@[simp] theorem modAxu_staged (s : State) (a : Nat) (f : Aux → Aux) : (s.modAxu a f).staged = s.staged := rfl
@[simp] theorem modAxu_snaps (s : State) (a : Nat) (f : Aux → Aux) : (s.modAxu a f).snaps = s.snaps := rfl
@[simp] theorem modAxu_frm (s : State) (a : Nat) (f : Aux → Aux) : (s.modAxu a f).frm = s.frm := rfl
@[simp] theorem modAxu_cfg (s : State) (a : Nat) (f : Aux → Aux) : (s.modAxu a f).cfg = s.cfg := rfl
@[simp] theorem modAxu_log (s : State) (a : Nat) (f : Aux → Aux) : (s.modAxu a f).log = s.log := rfl
@[simp] theorem modAxu_nvs (s : State) (a : Nat) (f : Aux → Aux) : (s.modAxu a f).nvs = s.nvs := rfl
@[simp] theorem modAxu_backup (s : State) (a : Nat) (f : Aux → Aux) : (s.modAxu a f).backup = s.backup := rfl
@[simp] theorem modAxu_guard (s : State) (a : Nat) (f : Aux → Aux) : (s.modAxu a f).guard = s.guard := rfl
@[simp] theorem modAxu_sup (s : State) (a : Nat) (f : Aux → Aux) : (s.modAxu a f).sup = s.sup := rfl
@[simp] theorem modAxu_net (s : State) (a : Nat) (f : Aux → Aux) : (s.modAxu a f).net = s.net := rfl
@[simp] theorem modAxu_axes (s : State) (a : Nat) (f : Aux → Aux) : (s.modAxu a f).axes = s.axes := rfl
@[simp] theorem modAxu_herds (s : State) (a : Nat) (f : Aux → Aux) : (s.modAxu a f).herds = s.herds := rfl
@[simp] theorem modAxu_latchQ (s : State) (a : Nat) (f : Aux → Aux) : (s.modAxu a f).latchQ = s.latchQ := rfl
@[simp] theorem modAxu_sub (s : State) (a : Nat) (f : Aux → Aux) : (s.modAxu a f).sub = s.sub := rfl
@[simp] theorem modAxu_vm (s : State) (a : Nat) (f : Aux → Aux) : (s.modAxu a f).vm = s.vm := rfl
@[simp] theorem modAxu_balls (s : State) (a : Nat) (f : Aux → Aux) : (s.modAxu a f).balls = s.balls := rfl
@[simp] theorem modAxu_chans (s : State) (a : Nat) (f : Aux → Aux) : (s.modAxu a f).chans = s.chans := rfl
@[simp] theorem modAxu_bridges (s : State) (a : Nat) (f : Aux → Aux) : (s.modAxu a f).bridges = s.bridges := rfl
@[simp] theorem modAxu_pwmAxes (s : State) (a : Nat) (f : Aux → Aux) : (s.modAxu a f).pwmAxes = s.pwmAxes := rfl
@[simp] theorem modAxu_timers (s : State) (a : Nat) (f : Aux → Aux) : (s.modAxu a f).timers = s.timers := rfl
@[simp] theorem modAxu_phases (s : State) (a : Nat) (f : Aux → Aux) : (s.modAxu a f).phases = s.phases := rfl
@[simp] theorem modAxu_curs (s : State) (a : Nat) (f : Aux → Aux) : (s.modAxu a f).curs = s.curs := rfl
@[simp] theorem modAxu_fbks (s : State) (a : Nat) (f : Aux → Aux) : (s.modAxu a f).fbks = s.fbks := rfl
@[simp] theorem modAxu_obss (s : State) (a : Nat) (f : Aux → Aux) : (s.modAxu a f).obss = s.obss := rfl
@[simp] theorem modAxu_dcb (s : State) (a : Nat) (f : Aux → Aux) : (s.modAxu a f).dcb = s.dcb := rfl
@[simp] theorem modAxu_cmp (s : State) (a : Nat) (f : Aux → Aux) : (s.modAxu a f).cmp = s.cmp := rfl
@[simp] theorem modAxu_pmc (s : State) (a : Nat) (f : Aux → Aux) : (s.modAxu a f).pmc = s.pmc := rfl
@[simp] theorem modAxu_host (s : State) (a : Nat) (f : Aux → Aux) : (s.modAxu a f).host = s.host := rfl
@[simp] theorem modAxu_dbg (s : State) (a : Nat) (f : Aux → Aux) : (s.modAxu a f).dbg = s.dbg := rfl
@[simp] theorem modAxu_rd (s : State) (x : Nat) (f : Aux → Aux) (a : Nat) : (s.modAxu x f).rd a = s.rd a := rfl
@[simp] theorem modAxu_get (s : State) (a : Nat) (f : Aux → Aux) (g : Fld) : (s.modAxu a f).get g = s.get g := rfl
@[simp] theorem modAxu_flag (s : State) (a : Nat) (f : Aux → Aux) (g : Fld) : (s.modAxu a f).flag g = s.flag g := rfl

/-! ### modCh -/

@[simp] theorem modCh_pending (s : State) (c : Nat) (f : Chan → Chan) : (s.modCh c f).pending = s.pending := rfl
@[simp] theorem modCh_free (s : State) (c : Nat) (f : Chan → Chan) : (s.modCh c f).free = s.free := rfl
@[simp] theorem modCh_held (s : State) (c : Nat) (f : Chan → Chan) : (s.modCh c f).held = s.held := rfl
@[simp] theorem modCh_now (s : State) (c : Nat) (f : Chan → Chan) : (s.modCh c f).now = s.now := rfl
@[simp] theorem modCh_regs (s : State) (c : Nat) (f : Chan → Chan) : (s.modCh c f).regs = s.regs := rfl
@[simp] theorem modCh_staged (s : State) (c : Nat) (f : Chan → Chan) : (s.modCh c f).staged = s.staged := rfl
@[simp] theorem modCh_snaps (s : State) (c : Nat) (f : Chan → Chan) : (s.modCh c f).snaps = s.snaps := rfl
@[simp] theorem modCh_frm (s : State) (c : Nat) (f : Chan → Chan) : (s.modCh c f).frm = s.frm := rfl
@[simp] theorem modCh_cfg (s : State) (c : Nat) (f : Chan → Chan) : (s.modCh c f).cfg = s.cfg := rfl
@[simp] theorem modCh_log (s : State) (c : Nat) (f : Chan → Chan) : (s.modCh c f).log = s.log := rfl
@[simp] theorem modCh_nvs (s : State) (c : Nat) (f : Chan → Chan) : (s.modCh c f).nvs = s.nvs := rfl
@[simp] theorem modCh_backup (s : State) (c : Nat) (f : Chan → Chan) : (s.modCh c f).backup = s.backup := rfl
@[simp] theorem modCh_guard (s : State) (c : Nat) (f : Chan → Chan) : (s.modCh c f).guard = s.guard := rfl
@[simp] theorem modCh_sup (s : State) (c : Nat) (f : Chan → Chan) : (s.modCh c f).sup = s.sup := rfl
@[simp] theorem modCh_net (s : State) (c : Nat) (f : Chan → Chan) : (s.modCh c f).net = s.net := rfl
@[simp] theorem modCh_axes (s : State) (c : Nat) (f : Chan → Chan) : (s.modCh c f).axes = s.axes := rfl
@[simp] theorem modCh_herds (s : State) (c : Nat) (f : Chan → Chan) : (s.modCh c f).herds = s.herds := rfl
@[simp] theorem modCh_latchQ (s : State) (c : Nat) (f : Chan → Chan) : (s.modCh c f).latchQ = s.latchQ := rfl
@[simp] theorem modCh_sub (s : State) (c : Nat) (f : Chan → Chan) : (s.modCh c f).sub = s.sub := rfl
@[simp] theorem modCh_vm (s : State) (c : Nat) (f : Chan → Chan) : (s.modCh c f).vm = s.vm := rfl
@[simp] theorem modCh_balls (s : State) (c : Nat) (f : Chan → Chan) : (s.modCh c f).balls = s.balls := rfl
@[simp] theorem modCh_bridges (s : State) (c : Nat) (f : Chan → Chan) : (s.modCh c f).bridges = s.bridges := rfl
@[simp] theorem modCh_pwmAxes (s : State) (c : Nat) (f : Chan → Chan) : (s.modCh c f).pwmAxes = s.pwmAxes := rfl
@[simp] theorem modCh_aux (s : State) (c : Nat) (f : Chan → Chan) : (s.modCh c f).aux = s.aux := rfl
@[simp] theorem modCh_timers (s : State) (c : Nat) (f : Chan → Chan) : (s.modCh c f).timers = s.timers := rfl
@[simp] theorem modCh_phases (s : State) (c : Nat) (f : Chan → Chan) : (s.modCh c f).phases = s.phases := rfl
@[simp] theorem modCh_curs (s : State) (c : Nat) (f : Chan → Chan) : (s.modCh c f).curs = s.curs := rfl
@[simp] theorem modCh_fbks (s : State) (c : Nat) (f : Chan → Chan) : (s.modCh c f).fbks = s.fbks := rfl
@[simp] theorem modCh_obss (s : State) (c : Nat) (f : Chan → Chan) : (s.modCh c f).obss = s.obss := rfl
@[simp] theorem modCh_dcb (s : State) (c : Nat) (f : Chan → Chan) : (s.modCh c f).dcb = s.dcb := rfl
@[simp] theorem modCh_cmp (s : State) (c : Nat) (f : Chan → Chan) : (s.modCh c f).cmp = s.cmp := rfl
@[simp] theorem modCh_pmc (s : State) (c : Nat) (f : Chan → Chan) : (s.modCh c f).pmc = s.pmc := rfl
@[simp] theorem modCh_host (s : State) (c : Nat) (f : Chan → Chan) : (s.modCh c f).host = s.host := rfl
@[simp] theorem modCh_dbg (s : State) (c : Nat) (f : Chan → Chan) : (s.modCh c f).dbg = s.dbg := rfl
@[simp] theorem modCh_rd (s : State) (c : Nat) (f : Chan → Chan) (a : Nat) : (s.modCh c f).rd a = s.rd a := rfl
@[simp] theorem modCh_get (s : State) (c : Nat) (f : Chan → Chan) (g : Fld) : (s.modCh c f).get g = s.get g := rfl
@[simp] theorem modCh_flag (s : State) (c : Nat) (f : Chan → Chan) (g : Fld) : (s.modCh c f).flag g = s.flag g := rfl

/-! ### modFb -/

@[simp] theorem modFb_pending (s : State) (n : Nat) (f : Fbk → Fbk) : (s.modFb n f).pending = s.pending := rfl
@[simp] theorem modFb_free (s : State) (n : Nat) (f : Fbk → Fbk) : (s.modFb n f).free = s.free := rfl
@[simp] theorem modFb_held (s : State) (n : Nat) (f : Fbk → Fbk) : (s.modFb n f).held = s.held := rfl
@[simp] theorem modFb_now (s : State) (n : Nat) (f : Fbk → Fbk) : (s.modFb n f).now = s.now := rfl
@[simp] theorem modFb_regs (s : State) (n : Nat) (f : Fbk → Fbk) : (s.modFb n f).regs = s.regs := rfl
@[simp] theorem modFb_staged (s : State) (n : Nat) (f : Fbk → Fbk) : (s.modFb n f).staged = s.staged := rfl
@[simp] theorem modFb_snaps (s : State) (n : Nat) (f : Fbk → Fbk) : (s.modFb n f).snaps = s.snaps := rfl
@[simp] theorem modFb_frm (s : State) (n : Nat) (f : Fbk → Fbk) : (s.modFb n f).frm = s.frm := rfl
@[simp] theorem modFb_cfg (s : State) (n : Nat) (f : Fbk → Fbk) : (s.modFb n f).cfg = s.cfg := rfl
@[simp] theorem modFb_log (s : State) (n : Nat) (f : Fbk → Fbk) : (s.modFb n f).log = s.log := rfl
@[simp] theorem modFb_nvs (s : State) (n : Nat) (f : Fbk → Fbk) : (s.modFb n f).nvs = s.nvs := rfl
@[simp] theorem modFb_backup (s : State) (n : Nat) (f : Fbk → Fbk) : (s.modFb n f).backup = s.backup := rfl
@[simp] theorem modFb_guard (s : State) (n : Nat) (f : Fbk → Fbk) : (s.modFb n f).guard = s.guard := rfl
@[simp] theorem modFb_sup (s : State) (n : Nat) (f : Fbk → Fbk) : (s.modFb n f).sup = s.sup := rfl
@[simp] theorem modFb_net (s : State) (n : Nat) (f : Fbk → Fbk) : (s.modFb n f).net = s.net := rfl
@[simp] theorem modFb_axes (s : State) (n : Nat) (f : Fbk → Fbk) : (s.modFb n f).axes = s.axes := rfl
@[simp] theorem modFb_herds (s : State) (n : Nat) (f : Fbk → Fbk) : (s.modFb n f).herds = s.herds := rfl
@[simp] theorem modFb_latchQ (s : State) (n : Nat) (f : Fbk → Fbk) : (s.modFb n f).latchQ = s.latchQ := rfl
@[simp] theorem modFb_sub (s : State) (n : Nat) (f : Fbk → Fbk) : (s.modFb n f).sub = s.sub := rfl
@[simp] theorem modFb_vm (s : State) (n : Nat) (f : Fbk → Fbk) : (s.modFb n f).vm = s.vm := rfl
@[simp] theorem modFb_balls (s : State) (n : Nat) (f : Fbk → Fbk) : (s.modFb n f).balls = s.balls := rfl
@[simp] theorem modFb_chans (s : State) (n : Nat) (f : Fbk → Fbk) : (s.modFb n f).chans = s.chans := rfl
@[simp] theorem modFb_bridges (s : State) (n : Nat) (f : Fbk → Fbk) : (s.modFb n f).bridges = s.bridges := rfl
@[simp] theorem modFb_pwmAxes (s : State) (n : Nat) (f : Fbk → Fbk) : (s.modFb n f).pwmAxes = s.pwmAxes := rfl
@[simp] theorem modFb_aux (s : State) (n : Nat) (f : Fbk → Fbk) : (s.modFb n f).aux = s.aux := rfl
@[simp] theorem modFb_timers (s : State) (n : Nat) (f : Fbk → Fbk) : (s.modFb n f).timers = s.timers := rfl
@[simp] theorem modFb_phases (s : State) (n : Nat) (f : Fbk → Fbk) : (s.modFb n f).phases = s.phases := rfl
@[simp] theorem modFb_curs (s : State) (n : Nat) (f : Fbk → Fbk) : (s.modFb n f).curs = s.curs := rfl
@[simp] theorem modFb_obss (s : State) (n : Nat) (f : Fbk → Fbk) : (s.modFb n f).obss = s.obss := rfl
@[simp] theorem modFb_dcb (s : State) (n : Nat) (f : Fbk → Fbk) : (s.modFb n f).dcb = s.dcb := rfl
@[simp] theorem modFb_cmp (s : State) (n : Nat) (f : Fbk → Fbk) : (s.modFb n f).cmp = s.cmp := rfl
@[simp] theorem modFb_pmc (s : State) (n : Nat) (f : Fbk → Fbk) : (s.modFb n f).pmc = s.pmc := rfl
@[simp] theorem modFb_host (s : State) (n : Nat) (f : Fbk → Fbk) : (s.modFb n f).host = s.host := rfl
@[simp] theorem modFb_dbg (s : State) (n : Nat) (f : Fbk → Fbk) : (s.modFb n f).dbg = s.dbg := rfl
@[simp] theorem modFb_rd (s : State) (n : Nat) (f : Fbk → Fbk) (a : Nat) : (s.modFb n f).rd a = s.rd a := rfl
@[simp] theorem modFb_get (s : State) (n : Nat) (f : Fbk → Fbk) (g : Fld) : (s.modFb n f).get g = s.get g := rfl
@[simp] theorem modFb_flag (s : State) (n : Nat) (f : Fbk → Fbk) (g : Fld) : (s.modFb n f).flag g = s.flag g := rfl

/-! ### modOb -/

@[simp] theorem modOb_pending (s : State) (n : Nat) (f : Obs → Obs) : (s.modOb n f).pending = s.pending := rfl
@[simp] theorem modOb_free (s : State) (n : Nat) (f : Obs → Obs) : (s.modOb n f).free = s.free := rfl
@[simp] theorem modOb_held (s : State) (n : Nat) (f : Obs → Obs) : (s.modOb n f).held = s.held := rfl
@[simp] theorem modOb_now (s : State) (n : Nat) (f : Obs → Obs) : (s.modOb n f).now = s.now := rfl
@[simp] theorem modOb_regs (s : State) (n : Nat) (f : Obs → Obs) : (s.modOb n f).regs = s.regs := rfl
@[simp] theorem modOb_staged (s : State) (n : Nat) (f : Obs → Obs) : (s.modOb n f).staged = s.staged := rfl
@[simp] theorem modOb_snaps (s : State) (n : Nat) (f : Obs → Obs) : (s.modOb n f).snaps = s.snaps := rfl
@[simp] theorem modOb_frm (s : State) (n : Nat) (f : Obs → Obs) : (s.modOb n f).frm = s.frm := rfl
@[simp] theorem modOb_cfg (s : State) (n : Nat) (f : Obs → Obs) : (s.modOb n f).cfg = s.cfg := rfl
@[simp] theorem modOb_log (s : State) (n : Nat) (f : Obs → Obs) : (s.modOb n f).log = s.log := rfl
@[simp] theorem modOb_nvs (s : State) (n : Nat) (f : Obs → Obs) : (s.modOb n f).nvs = s.nvs := rfl
@[simp] theorem modOb_backup (s : State) (n : Nat) (f : Obs → Obs) : (s.modOb n f).backup = s.backup := rfl
@[simp] theorem modOb_guard (s : State) (n : Nat) (f : Obs → Obs) : (s.modOb n f).guard = s.guard := rfl
@[simp] theorem modOb_sup (s : State) (n : Nat) (f : Obs → Obs) : (s.modOb n f).sup = s.sup := rfl
@[simp] theorem modOb_net (s : State) (n : Nat) (f : Obs → Obs) : (s.modOb n f).net = s.net := rfl
@[simp] theorem modOb_axes (s : State) (n : Nat) (f : Obs → Obs) : (s.modOb n f).axes = s.axes := rfl
@[simp] theorem modOb_herds (s : State) (n : Nat) (f : Obs → Obs) : (s.modOb n f).herds = s.herds := rfl
@[simp] theorem modOb_latchQ (s : State) (n : Nat) (f : Obs → Obs) : (s.modOb n f).latchQ = s.latchQ := rfl
@[simp] theorem modOb_sub (s : State) (n : Nat) (f : Obs → Obs) : (s.modOb n f).sub = s.sub := rfl
@[simp] theorem modOb_vm (s : State) (n : Nat) (f : Obs → Obs) : (s.modOb n f).vm = s.vm := rfl
@[simp] theorem modOb_balls (s : State) (n : Nat) (f : Obs → Obs) : (s.modOb n f).balls = s.balls := rfl
@[simp] theorem modOb_chans (s : State) (n : Nat) (f : Obs → Obs) : (s.modOb n f).chans = s.chans := rfl
@[simp] theorem modOb_bridges (s : State) (n : Nat) (f : Obs → Obs) : (s.modOb n f).bridges = s.bridges := rfl
@[simp] theorem modOb_pwmAxes (s : State) (n : Nat) (f : Obs → Obs) : (s.modOb n f).pwmAxes = s.pwmAxes := rfl
@[simp] theorem modOb_aux (s : State) (n : Nat) (f : Obs → Obs) : (s.modOb n f).aux = s.aux := rfl
@[simp] theorem modOb_timers (s : State) (n : Nat) (f : Obs → Obs) : (s.modOb n f).timers = s.timers := rfl
@[simp] theorem modOb_phases (s : State) (n : Nat) (f : Obs → Obs) : (s.modOb n f).phases = s.phases := rfl
@[simp] theorem modOb_curs (s : State) (n : Nat) (f : Obs → Obs) : (s.modOb n f).curs = s.curs := rfl
@[simp] theorem modOb_fbks (s : State) (n : Nat) (f : Obs → Obs) : (s.modOb n f).fbks = s.fbks := rfl
@[simp] theorem modOb_dcb (s : State) (n : Nat) (f : Obs → Obs) : (s.modOb n f).dcb = s.dcb := rfl
@[simp] theorem modOb_cmp (s : State) (n : Nat) (f : Obs → Obs) : (s.modOb n f).cmp = s.cmp := rfl
@[simp] theorem modOb_pmc (s : State) (n : Nat) (f : Obs → Obs) : (s.modOb n f).pmc = s.pmc := rfl
@[simp] theorem modOb_host (s : State) (n : Nat) (f : Obs → Obs) : (s.modOb n f).host = s.host := rfl
@[simp] theorem modOb_dbg (s : State) (n : Nat) (f : Obs → Obs) : (s.modOb n f).dbg = s.dbg := rfl
@[simp] theorem modOb_rd (s : State) (n : Nat) (f : Obs → Obs) (a : Nat) : (s.modOb n f).rd a = s.rd a := rfl
@[simp] theorem modOb_get (s : State) (n : Nat) (f : Obs → Obs) (g : Fld) : (s.modOb n f).get g = s.get g := rfl
@[simp] theorem modOb_flag (s : State) (n : Nat) (f : Obs → Obs) (g : Fld) : (s.modOb n f).flag g = s.flag g := rfl

/-! ### modCur -/

@[simp] theorem modCur_pending (s : State) (n : Nat) (f : CurAxis → CurAxis) : (s.modCur n f).pending = s.pending := rfl
@[simp] theorem modCur_free (s : State) (n : Nat) (f : CurAxis → CurAxis) : (s.modCur n f).free = s.free := rfl
@[simp] theorem modCur_held (s : State) (n : Nat) (f : CurAxis → CurAxis) : (s.modCur n f).held = s.held := rfl
@[simp] theorem modCur_now (s : State) (n : Nat) (f : CurAxis → CurAxis) : (s.modCur n f).now = s.now := rfl
@[simp] theorem modCur_regs (s : State) (n : Nat) (f : CurAxis → CurAxis) : (s.modCur n f).regs = s.regs := rfl
@[simp] theorem modCur_staged (s : State) (n : Nat) (f : CurAxis → CurAxis) : (s.modCur n f).staged = s.staged := rfl
@[simp] theorem modCur_snaps (s : State) (n : Nat) (f : CurAxis → CurAxis) : (s.modCur n f).snaps = s.snaps := rfl
@[simp] theorem modCur_frm (s : State) (n : Nat) (f : CurAxis → CurAxis) : (s.modCur n f).frm = s.frm := rfl
@[simp] theorem modCur_cfg (s : State) (n : Nat) (f : CurAxis → CurAxis) : (s.modCur n f).cfg = s.cfg := rfl
@[simp] theorem modCur_log (s : State) (n : Nat) (f : CurAxis → CurAxis) : (s.modCur n f).log = s.log := rfl
@[simp] theorem modCur_nvs (s : State) (n : Nat) (f : CurAxis → CurAxis) : (s.modCur n f).nvs = s.nvs := rfl
@[simp] theorem modCur_backup (s : State) (n : Nat) (f : CurAxis → CurAxis) : (s.modCur n f).backup = s.backup := rfl
@[simp] theorem modCur_guard (s : State) (n : Nat) (f : CurAxis → CurAxis) : (s.modCur n f).guard = s.guard := rfl
@[simp] theorem modCur_sup (s : State) (n : Nat) (f : CurAxis → CurAxis) : (s.modCur n f).sup = s.sup := rfl
@[simp] theorem modCur_net (s : State) (n : Nat) (f : CurAxis → CurAxis) : (s.modCur n f).net = s.net := rfl
@[simp] theorem modCur_axes (s : State) (n : Nat) (f : CurAxis → CurAxis) : (s.modCur n f).axes = s.axes := rfl
@[simp] theorem modCur_herds (s : State) (n : Nat) (f : CurAxis → CurAxis) : (s.modCur n f).herds = s.herds := rfl
@[simp] theorem modCur_latchQ (s : State) (n : Nat) (f : CurAxis → CurAxis) : (s.modCur n f).latchQ = s.latchQ := rfl
@[simp] theorem modCur_sub (s : State) (n : Nat) (f : CurAxis → CurAxis) : (s.modCur n f).sub = s.sub := rfl
@[simp] theorem modCur_vm (s : State) (n : Nat) (f : CurAxis → CurAxis) : (s.modCur n f).vm = s.vm := rfl
@[simp] theorem modCur_balls (s : State) (n : Nat) (f : CurAxis → CurAxis) : (s.modCur n f).balls = s.balls := rfl
@[simp] theorem modCur_chans (s : State) (n : Nat) (f : CurAxis → CurAxis) : (s.modCur n f).chans = s.chans := rfl
@[simp] theorem modCur_bridges (s : State) (n : Nat) (f : CurAxis → CurAxis) : (s.modCur n f).bridges = s.bridges := rfl
@[simp] theorem modCur_pwmAxes (s : State) (n : Nat) (f : CurAxis → CurAxis) : (s.modCur n f).pwmAxes = s.pwmAxes := rfl
@[simp] theorem modCur_aux (s : State) (n : Nat) (f : CurAxis → CurAxis) : (s.modCur n f).aux = s.aux := rfl
@[simp] theorem modCur_timers (s : State) (n : Nat) (f : CurAxis → CurAxis) : (s.modCur n f).timers = s.timers := rfl
@[simp] theorem modCur_phases (s : State) (n : Nat) (f : CurAxis → CurAxis) : (s.modCur n f).phases = s.phases := rfl
@[simp] theorem modCur_fbks (s : State) (n : Nat) (f : CurAxis → CurAxis) : (s.modCur n f).fbks = s.fbks := rfl
@[simp] theorem modCur_obss (s : State) (n : Nat) (f : CurAxis → CurAxis) : (s.modCur n f).obss = s.obss := rfl
@[simp] theorem modCur_dcb (s : State) (n : Nat) (f : CurAxis → CurAxis) : (s.modCur n f).dcb = s.dcb := rfl
@[simp] theorem modCur_cmp (s : State) (n : Nat) (f : CurAxis → CurAxis) : (s.modCur n f).cmp = s.cmp := rfl
@[simp] theorem modCur_pmc (s : State) (n : Nat) (f : CurAxis → CurAxis) : (s.modCur n f).pmc = s.pmc := rfl
@[simp] theorem modCur_host (s : State) (n : Nat) (f : CurAxis → CurAxis) : (s.modCur n f).host = s.host := rfl
@[simp] theorem modCur_dbg (s : State) (n : Nat) (f : CurAxis → CurAxis) : (s.modCur n f).dbg = s.dbg := rfl
@[simp] theorem modCur_rd (s : State) (n : Nat) (f : CurAxis → CurAxis) (a : Nat) : (s.modCur n f).rd a = s.rd a := rfl
@[simp] theorem modCur_get (s : State) (n : Nat) (f : CurAxis → CurAxis) (g : Fld) : (s.modCur n f).get g = s.get g := rfl
@[simp] theorem modCur_flag (s : State) (n : Nat) (f : CurAxis → CurAxis) (g : Fld) : (s.modCur n f).flag g = s.flag g := rfl

/-! ### modPh -/

@[simp] theorem modPh_pending (s : State) (i : Nat) (f : Phase → Phase) : (s.modPh i f).pending = s.pending := rfl
@[simp] theorem modPh_free (s : State) (i : Nat) (f : Phase → Phase) : (s.modPh i f).free = s.free := rfl
@[simp] theorem modPh_held (s : State) (i : Nat) (f : Phase → Phase) : (s.modPh i f).held = s.held := rfl
@[simp] theorem modPh_now (s : State) (i : Nat) (f : Phase → Phase) : (s.modPh i f).now = s.now := rfl
@[simp] theorem modPh_regs (s : State) (i : Nat) (f : Phase → Phase) : (s.modPh i f).regs = s.regs := rfl
@[simp] theorem modPh_staged (s : State) (i : Nat) (f : Phase → Phase) : (s.modPh i f).staged = s.staged := rfl
@[simp] theorem modPh_snaps (s : State) (i : Nat) (f : Phase → Phase) : (s.modPh i f).snaps = s.snaps := rfl
@[simp] theorem modPh_frm (s : State) (i : Nat) (f : Phase → Phase) : (s.modPh i f).frm = s.frm := rfl
@[simp] theorem modPh_cfg (s : State) (i : Nat) (f : Phase → Phase) : (s.modPh i f).cfg = s.cfg := rfl
@[simp] theorem modPh_log (s : State) (i : Nat) (f : Phase → Phase) : (s.modPh i f).log = s.log := rfl
@[simp] theorem modPh_nvs (s : State) (i : Nat) (f : Phase → Phase) : (s.modPh i f).nvs = s.nvs := rfl
@[simp] theorem modPh_backup (s : State) (i : Nat) (f : Phase → Phase) : (s.modPh i f).backup = s.backup := rfl
@[simp] theorem modPh_guard (s : State) (i : Nat) (f : Phase → Phase) : (s.modPh i f).guard = s.guard := rfl
@[simp] theorem modPh_sup (s : State) (i : Nat) (f : Phase → Phase) : (s.modPh i f).sup = s.sup := rfl
@[simp] theorem modPh_net (s : State) (i : Nat) (f : Phase → Phase) : (s.modPh i f).net = s.net := rfl
@[simp] theorem modPh_axes (s : State) (i : Nat) (f : Phase → Phase) : (s.modPh i f).axes = s.axes := rfl
@[simp] theorem modPh_herds (s : State) (i : Nat) (f : Phase → Phase) : (s.modPh i f).herds = s.herds := rfl
@[simp] theorem modPh_latchQ (s : State) (i : Nat) (f : Phase → Phase) : (s.modPh i f).latchQ = s.latchQ := rfl
@[simp] theorem modPh_sub (s : State) (i : Nat) (f : Phase → Phase) : (s.modPh i f).sub = s.sub := rfl
@[simp] theorem modPh_vm (s : State) (i : Nat) (f : Phase → Phase) : (s.modPh i f).vm = s.vm := rfl
@[simp] theorem modPh_balls (s : State) (i : Nat) (f : Phase → Phase) : (s.modPh i f).balls = s.balls := rfl
@[simp] theorem modPh_chans (s : State) (i : Nat) (f : Phase → Phase) : (s.modPh i f).chans = s.chans := rfl
@[simp] theorem modPh_bridges (s : State) (i : Nat) (f : Phase → Phase) : (s.modPh i f).bridges = s.bridges := rfl
@[simp] theorem modPh_pwmAxes (s : State) (i : Nat) (f : Phase → Phase) : (s.modPh i f).pwmAxes = s.pwmAxes := rfl
@[simp] theorem modPh_aux (s : State) (i : Nat) (f : Phase → Phase) : (s.modPh i f).aux = s.aux := rfl
@[simp] theorem modPh_timers (s : State) (i : Nat) (f : Phase → Phase) : (s.modPh i f).timers = s.timers := rfl
@[simp] theorem modPh_curs (s : State) (i : Nat) (f : Phase → Phase) : (s.modPh i f).curs = s.curs := rfl
@[simp] theorem modPh_fbks (s : State) (i : Nat) (f : Phase → Phase) : (s.modPh i f).fbks = s.fbks := rfl
@[simp] theorem modPh_obss (s : State) (i : Nat) (f : Phase → Phase) : (s.modPh i f).obss = s.obss := rfl
@[simp] theorem modPh_dcb (s : State) (i : Nat) (f : Phase → Phase) : (s.modPh i f).dcb = s.dcb := rfl
@[simp] theorem modPh_cmp (s : State) (i : Nat) (f : Phase → Phase) : (s.modPh i f).cmp = s.cmp := rfl
@[simp] theorem modPh_pmc (s : State) (i : Nat) (f : Phase → Phase) : (s.modPh i f).pmc = s.pmc := rfl
@[simp] theorem modPh_host (s : State) (i : Nat) (f : Phase → Phase) : (s.modPh i f).host = s.host := rfl
@[simp] theorem modPh_dbg (s : State) (i : Nat) (f : Phase → Phase) : (s.modPh i f).dbg = s.dbg := rfl
@[simp] theorem modPh_rd (s : State) (i : Nat) (f : Phase → Phase) (a : Nat) : (s.modPh i f).rd a = s.rd a := rfl
@[simp] theorem modPh_get (s : State) (i : Nat) (f : Phase → Phase) (g : Fld) : (s.modPh i f).get g = s.get g := rfl
@[simp] theorem modPh_flag (s : State) (i : Nat) (f : Phase → Phase) (g : Fld) : (s.modPh i f).flag g = s.flag g := rfl

/-! ### modHerd -/

@[simp] theorem modHerd_pending (s : State) (i : Nat) (f : Herd → Herd) : (s.modHerd i f).pending = s.pending := rfl
@[simp] theorem modHerd_free (s : State) (i : Nat) (f : Herd → Herd) : (s.modHerd i f).free = s.free := rfl
@[simp] theorem modHerd_held (s : State) (i : Nat) (f : Herd → Herd) : (s.modHerd i f).held = s.held := rfl
@[simp] theorem modHerd_now (s : State) (i : Nat) (f : Herd → Herd) : (s.modHerd i f).now = s.now := rfl
@[simp] theorem modHerd_regs (s : State) (i : Nat) (f : Herd → Herd) : (s.modHerd i f).regs = s.regs := rfl
@[simp] theorem modHerd_staged (s : State) (i : Nat) (f : Herd → Herd) : (s.modHerd i f).staged = s.staged := rfl
@[simp] theorem modHerd_snaps (s : State) (i : Nat) (f : Herd → Herd) : (s.modHerd i f).snaps = s.snaps := rfl
@[simp] theorem modHerd_frm (s : State) (i : Nat) (f : Herd → Herd) : (s.modHerd i f).frm = s.frm := rfl
@[simp] theorem modHerd_cfg (s : State) (i : Nat) (f : Herd → Herd) : (s.modHerd i f).cfg = s.cfg := rfl
@[simp] theorem modHerd_log (s : State) (i : Nat) (f : Herd → Herd) : (s.modHerd i f).log = s.log := rfl
@[simp] theorem modHerd_nvs (s : State) (i : Nat) (f : Herd → Herd) : (s.modHerd i f).nvs = s.nvs := rfl
@[simp] theorem modHerd_backup (s : State) (i : Nat) (f : Herd → Herd) : (s.modHerd i f).backup = s.backup := rfl
@[simp] theorem modHerd_guard (s : State) (i : Nat) (f : Herd → Herd) : (s.modHerd i f).guard = s.guard := rfl
@[simp] theorem modHerd_sup (s : State) (i : Nat) (f : Herd → Herd) : (s.modHerd i f).sup = s.sup := rfl
@[simp] theorem modHerd_net (s : State) (i : Nat) (f : Herd → Herd) : (s.modHerd i f).net = s.net := rfl
@[simp] theorem modHerd_axes (s : State) (i : Nat) (f : Herd → Herd) : (s.modHerd i f).axes = s.axes := rfl
@[simp] theorem modHerd_latchQ (s : State) (i : Nat) (f : Herd → Herd) : (s.modHerd i f).latchQ = s.latchQ := rfl
@[simp] theorem modHerd_sub (s : State) (i : Nat) (f : Herd → Herd) : (s.modHerd i f).sub = s.sub := rfl
@[simp] theorem modHerd_vm (s : State) (i : Nat) (f : Herd → Herd) : (s.modHerd i f).vm = s.vm := rfl
@[simp] theorem modHerd_balls (s : State) (i : Nat) (f : Herd → Herd) : (s.modHerd i f).balls = s.balls := rfl
@[simp] theorem modHerd_chans (s : State) (i : Nat) (f : Herd → Herd) : (s.modHerd i f).chans = s.chans := rfl
@[simp] theorem modHerd_bridges (s : State) (i : Nat) (f : Herd → Herd) : (s.modHerd i f).bridges = s.bridges := rfl
@[simp] theorem modHerd_pwmAxes (s : State) (i : Nat) (f : Herd → Herd) : (s.modHerd i f).pwmAxes = s.pwmAxes := rfl
@[simp] theorem modHerd_aux (s : State) (i : Nat) (f : Herd → Herd) : (s.modHerd i f).aux = s.aux := rfl
@[simp] theorem modHerd_timers (s : State) (i : Nat) (f : Herd → Herd) : (s.modHerd i f).timers = s.timers := rfl
@[simp] theorem modHerd_phases (s : State) (i : Nat) (f : Herd → Herd) : (s.modHerd i f).phases = s.phases := rfl
@[simp] theorem modHerd_curs (s : State) (i : Nat) (f : Herd → Herd) : (s.modHerd i f).curs = s.curs := rfl
@[simp] theorem modHerd_fbks (s : State) (i : Nat) (f : Herd → Herd) : (s.modHerd i f).fbks = s.fbks := rfl
@[simp] theorem modHerd_obss (s : State) (i : Nat) (f : Herd → Herd) : (s.modHerd i f).obss = s.obss := rfl
@[simp] theorem modHerd_dcb (s : State) (i : Nat) (f : Herd → Herd) : (s.modHerd i f).dcb = s.dcb := rfl
@[simp] theorem modHerd_cmp (s : State) (i : Nat) (f : Herd → Herd) : (s.modHerd i f).cmp = s.cmp := rfl
@[simp] theorem modHerd_pmc (s : State) (i : Nat) (f : Herd → Herd) : (s.modHerd i f).pmc = s.pmc := rfl
@[simp] theorem modHerd_host (s : State) (i : Nat) (f : Herd → Herd) : (s.modHerd i f).host = s.host := rfl
@[simp] theorem modHerd_dbg (s : State) (i : Nat) (f : Herd → Herd) : (s.modHerd i f).dbg = s.dbg := rfl
@[simp] theorem modHerd_rd (s : State) (i : Nat) (f : Herd → Herd) (a : Nat) : (s.modHerd i f).rd a = s.rd a := rfl
@[simp] theorem modHerd_get (s : State) (i : Nat) (f : Herd → Herd) (g : Fld) : (s.modHerd i f).get g = s.get g := rfl
@[simp] theorem modHerd_flag (s : State) (i : Nat) (f : Herd → Herd) (g : Fld) : (s.modHerd i f).flag g = s.flag g := rfl

/-! ### modOwn -/

@[simp] theorem modOwn_pending (s : State) (k : Nat) (f : OwnRep → OwnRep) : (s.modOwn k f).pending = s.pending := rfl
@[simp] theorem modOwn_free (s : State) (k : Nat) (f : OwnRep → OwnRep) : (s.modOwn k f).free = s.free := rfl
@[simp] theorem modOwn_held (s : State) (k : Nat) (f : OwnRep → OwnRep) : (s.modOwn k f).held = s.held := rfl
@[simp] theorem modOwn_now (s : State) (k : Nat) (f : OwnRep → OwnRep) : (s.modOwn k f).now = s.now := rfl
@[simp] theorem modOwn_regs (s : State) (k : Nat) (f : OwnRep → OwnRep) : (s.modOwn k f).regs = s.regs := rfl
@[simp] theorem modOwn_staged (s : State) (k : Nat) (f : OwnRep → OwnRep) : (s.modOwn k f).staged = s.staged := rfl
@[simp] theorem modOwn_snaps (s : State) (k : Nat) (f : OwnRep → OwnRep) : (s.modOwn k f).snaps = s.snaps := rfl
@[simp] theorem modOwn_frm (s : State) (k : Nat) (f : OwnRep → OwnRep) : (s.modOwn k f).frm = s.frm := rfl
@[simp] theorem modOwn_cfg (s : State) (k : Nat) (f : OwnRep → OwnRep) : (s.modOwn k f).cfg = s.cfg := rfl
@[simp] theorem modOwn_log (s : State) (k : Nat) (f : OwnRep → OwnRep) : (s.modOwn k f).log = s.log := rfl
@[simp] theorem modOwn_backup (s : State) (k : Nat) (f : OwnRep → OwnRep) : (s.modOwn k f).backup = s.backup := rfl
@[simp] theorem modOwn_guard (s : State) (k : Nat) (f : OwnRep → OwnRep) : (s.modOwn k f).guard = s.guard := rfl
@[simp] theorem modOwn_sup (s : State) (k : Nat) (f : OwnRep → OwnRep) : (s.modOwn k f).sup = s.sup := rfl
@[simp] theorem modOwn_net (s : State) (k : Nat) (f : OwnRep → OwnRep) : (s.modOwn k f).net = s.net := rfl
@[simp] theorem modOwn_axes (s : State) (k : Nat) (f : OwnRep → OwnRep) : (s.modOwn k f).axes = s.axes := rfl
@[simp] theorem modOwn_herds (s : State) (k : Nat) (f : OwnRep → OwnRep) : (s.modOwn k f).herds = s.herds := rfl
@[simp] theorem modOwn_latchQ (s : State) (k : Nat) (f : OwnRep → OwnRep) : (s.modOwn k f).latchQ = s.latchQ := rfl
@[simp] theorem modOwn_sub (s : State) (k : Nat) (f : OwnRep → OwnRep) : (s.modOwn k f).sub = s.sub := rfl
@[simp] theorem modOwn_vm (s : State) (k : Nat) (f : OwnRep → OwnRep) : (s.modOwn k f).vm = s.vm := rfl
@[simp] theorem modOwn_balls (s : State) (k : Nat) (f : OwnRep → OwnRep) : (s.modOwn k f).balls = s.balls := rfl
@[simp] theorem modOwn_chans (s : State) (k : Nat) (f : OwnRep → OwnRep) : (s.modOwn k f).chans = s.chans := rfl
@[simp] theorem modOwn_bridges (s : State) (k : Nat) (f : OwnRep → OwnRep) : (s.modOwn k f).bridges = s.bridges := rfl
@[simp] theorem modOwn_pwmAxes (s : State) (k : Nat) (f : OwnRep → OwnRep) : (s.modOwn k f).pwmAxes = s.pwmAxes := rfl
@[simp] theorem modOwn_aux (s : State) (k : Nat) (f : OwnRep → OwnRep) : (s.modOwn k f).aux = s.aux := rfl
@[simp] theorem modOwn_timers (s : State) (k : Nat) (f : OwnRep → OwnRep) : (s.modOwn k f).timers = s.timers := rfl
@[simp] theorem modOwn_phases (s : State) (k : Nat) (f : OwnRep → OwnRep) : (s.modOwn k f).phases = s.phases := rfl
@[simp] theorem modOwn_curs (s : State) (k : Nat) (f : OwnRep → OwnRep) : (s.modOwn k f).curs = s.curs := rfl
@[simp] theorem modOwn_fbks (s : State) (k : Nat) (f : OwnRep → OwnRep) : (s.modOwn k f).fbks = s.fbks := rfl
@[simp] theorem modOwn_obss (s : State) (k : Nat) (f : OwnRep → OwnRep) : (s.modOwn k f).obss = s.obss := rfl
@[simp] theorem modOwn_dcb (s : State) (k : Nat) (f : OwnRep → OwnRep) : (s.modOwn k f).dcb = s.dcb := rfl
@[simp] theorem modOwn_cmp (s : State) (k : Nat) (f : OwnRep → OwnRep) : (s.modOwn k f).cmp = s.cmp := rfl
@[simp] theorem modOwn_pmc (s : State) (k : Nat) (f : OwnRep → OwnRep) : (s.modOwn k f).pmc = s.pmc := rfl
@[simp] theorem modOwn_host (s : State) (k : Nat) (f : OwnRep → OwnRep) : (s.modOwn k f).host = s.host := rfl
@[simp] theorem modOwn_dbg (s : State) (k : Nat) (f : OwnRep → OwnRep) : (s.modOwn k f).dbg = s.dbg := rfl
@[simp] theorem modOwn_rd (s : State) (k : Nat) (f : OwnRep → OwnRep) (a : Nat) : (s.modOwn k f).rd a = s.rd a := rfl
@[simp] theorem modOwn_get (s : State) (k : Nat) (f : OwnRep → OwnRep) (g : Fld) : (s.modOwn k f).get g = s.get g := rfl
@[simp] theorem modOwn_flag (s : State) (k : Nat) (f : OwnRep → OwnRep) (g : Fld) : (s.modOwn k f).flag g = s.flag g := rfl

/-! ### modHeld -/

@[simp] theorem modHeld_pending (s : State) (j : Nat) (f : Held → Held) : (s.modHeld j f).pending = s.pending := rfl
@[simp] theorem modHeld_free (s : State) (j : Nat) (f : Held → Held) : (s.modHeld j f).free = s.free := rfl
@[simp] theorem modHeld_held (s : State) (j : Nat) (f : Held → Held) : (s.modHeld j f).held = s.held := rfl
@[simp] theorem modHeld_now (s : State) (j : Nat) (f : Held → Held) : (s.modHeld j f).now = s.now := rfl
@[simp] theorem modHeld_regs (s : State) (j : Nat) (f : Held → Held) : (s.modHeld j f).regs = s.regs := rfl
@[simp] theorem modHeld_staged (s : State) (j : Nat) (f : Held → Held) : (s.modHeld j f).staged = s.staged := rfl
@[simp] theorem modHeld_snaps (s : State) (j : Nat) (f : Held → Held) : (s.modHeld j f).snaps = s.snaps := rfl
@[simp] theorem modHeld_frm (s : State) (j : Nat) (f : Held → Held) : (s.modHeld j f).frm = s.frm := rfl
@[simp] theorem modHeld_cfg (s : State) (j : Nat) (f : Held → Held) : (s.modHeld j f).cfg = s.cfg := rfl
@[simp] theorem modHeld_log (s : State) (j : Nat) (f : Held → Held) : (s.modHeld j f).log = s.log := rfl
@[simp] theorem modHeld_backup (s : State) (j : Nat) (f : Held → Held) : (s.modHeld j f).backup = s.backup := rfl
@[simp] theorem modHeld_guard (s : State) (j : Nat) (f : Held → Held) : (s.modHeld j f).guard = s.guard := rfl
@[simp] theorem modHeld_sup (s : State) (j : Nat) (f : Held → Held) : (s.modHeld j f).sup = s.sup := rfl
@[simp] theorem modHeld_net (s : State) (j : Nat) (f : Held → Held) : (s.modHeld j f).net = s.net := rfl
@[simp] theorem modHeld_axes (s : State) (j : Nat) (f : Held → Held) : (s.modHeld j f).axes = s.axes := rfl
@[simp] theorem modHeld_herds (s : State) (j : Nat) (f : Held → Held) : (s.modHeld j f).herds = s.herds := rfl
@[simp] theorem modHeld_latchQ (s : State) (j : Nat) (f : Held → Held) : (s.modHeld j f).latchQ = s.latchQ := rfl
@[simp] theorem modHeld_sub (s : State) (j : Nat) (f : Held → Held) : (s.modHeld j f).sub = s.sub := rfl
@[simp] theorem modHeld_vm (s : State) (j : Nat) (f : Held → Held) : (s.modHeld j f).vm = s.vm := rfl
@[simp] theorem modHeld_balls (s : State) (j : Nat) (f : Held → Held) : (s.modHeld j f).balls = s.balls := rfl
@[simp] theorem modHeld_chans (s : State) (j : Nat) (f : Held → Held) : (s.modHeld j f).chans = s.chans := rfl
@[simp] theorem modHeld_bridges (s : State) (j : Nat) (f : Held → Held) : (s.modHeld j f).bridges = s.bridges := rfl
@[simp] theorem modHeld_pwmAxes (s : State) (j : Nat) (f : Held → Held) : (s.modHeld j f).pwmAxes = s.pwmAxes := rfl
@[simp] theorem modHeld_aux (s : State) (j : Nat) (f : Held → Held) : (s.modHeld j f).aux = s.aux := rfl
@[simp] theorem modHeld_timers (s : State) (j : Nat) (f : Held → Held) : (s.modHeld j f).timers = s.timers := rfl
@[simp] theorem modHeld_phases (s : State) (j : Nat) (f : Held → Held) : (s.modHeld j f).phases = s.phases := rfl
@[simp] theorem modHeld_curs (s : State) (j : Nat) (f : Held → Held) : (s.modHeld j f).curs = s.curs := rfl
@[simp] theorem modHeld_fbks (s : State) (j : Nat) (f : Held → Held) : (s.modHeld j f).fbks = s.fbks := rfl
@[simp] theorem modHeld_obss (s : State) (j : Nat) (f : Held → Held) : (s.modHeld j f).obss = s.obss := rfl
@[simp] theorem modHeld_dcb (s : State) (j : Nat) (f : Held → Held) : (s.modHeld j f).dcb = s.dcb := rfl
@[simp] theorem modHeld_cmp (s : State) (j : Nat) (f : Held → Held) : (s.modHeld j f).cmp = s.cmp := rfl
@[simp] theorem modHeld_pmc (s : State) (j : Nat) (f : Held → Held) : (s.modHeld j f).pmc = s.pmc := rfl
@[simp] theorem modHeld_host (s : State) (j : Nat) (f : Held → Held) : (s.modHeld j f).host = s.host := rfl
@[simp] theorem modHeld_dbg (s : State) (j : Nat) (f : Held → Held) : (s.modHeld j f).dbg = s.dbg := rfl
@[simp] theorem modHeld_rd (s : State) (j : Nat) (f : Held → Held) (a : Nat) : (s.modHeld j f).rd a = s.rd a := rfl
@[simp] theorem modHeld_get (s : State) (j : Nat) (f : Held → Held) (g : Fld) : (s.modHeld j f).get g = s.get g := rfl
@[simp] theorem modHeld_flag (s : State) (j : Nat) (f : Held → Held) (g : Fld) : (s.modHeld j f).flag g = s.flag g := rfl

/-! ### setCopies -/

@[simp] theorem setCopies_pending (s : State) (id : Nat) (l : List (Option RecCopy)) : (s.setCopies id l).pending = s.pending := rfl
@[simp] theorem setCopies_free (s : State) (id : Nat) (l : List (Option RecCopy)) : (s.setCopies id l).free = s.free := rfl
@[simp] theorem setCopies_held (s : State) (id : Nat) (l : List (Option RecCopy)) : (s.setCopies id l).held = s.held := rfl
@[simp] theorem setCopies_now (s : State) (id : Nat) (l : List (Option RecCopy)) : (s.setCopies id l).now = s.now := rfl
@[simp] theorem setCopies_regs (s : State) (id : Nat) (l : List (Option RecCopy)) : (s.setCopies id l).regs = s.regs := rfl
@[simp] theorem setCopies_staged (s : State) (id : Nat) (l : List (Option RecCopy)) : (s.setCopies id l).staged = s.staged := rfl
@[simp] theorem setCopies_snaps (s : State) (id : Nat) (l : List (Option RecCopy)) : (s.setCopies id l).snaps = s.snaps := rfl
@[simp] theorem setCopies_frm (s : State) (id : Nat) (l : List (Option RecCopy)) : (s.setCopies id l).frm = s.frm := rfl
@[simp] theorem setCopies_cfg (s : State) (id : Nat) (l : List (Option RecCopy)) : (s.setCopies id l).cfg = s.cfg := rfl
@[simp] theorem setCopies_log (s : State) (id : Nat) (l : List (Option RecCopy)) : (s.setCopies id l).log = s.log := rfl
@[simp] theorem setCopies_backup (s : State) (id : Nat) (l : List (Option RecCopy)) : (s.setCopies id l).backup = s.backup := rfl
@[simp] theorem setCopies_guard (s : State) (id : Nat) (l : List (Option RecCopy)) : (s.setCopies id l).guard = s.guard := rfl
@[simp] theorem setCopies_sup (s : State) (id : Nat) (l : List (Option RecCopy)) : (s.setCopies id l).sup = s.sup := rfl
@[simp] theorem setCopies_net (s : State) (id : Nat) (l : List (Option RecCopy)) : (s.setCopies id l).net = s.net := rfl
@[simp] theorem setCopies_axes (s : State) (id : Nat) (l : List (Option RecCopy)) : (s.setCopies id l).axes = s.axes := rfl
@[simp] theorem setCopies_herds (s : State) (id : Nat) (l : List (Option RecCopy)) : (s.setCopies id l).herds = s.herds := rfl
@[simp] theorem setCopies_latchQ (s : State) (id : Nat) (l : List (Option RecCopy)) : (s.setCopies id l).latchQ = s.latchQ := rfl
@[simp] theorem setCopies_sub (s : State) (id : Nat) (l : List (Option RecCopy)) : (s.setCopies id l).sub = s.sub := rfl
@[simp] theorem setCopies_vm (s : State) (id : Nat) (l : List (Option RecCopy)) : (s.setCopies id l).vm = s.vm := rfl
@[simp] theorem setCopies_balls (s : State) (id : Nat) (l : List (Option RecCopy)) : (s.setCopies id l).balls = s.balls := rfl
@[simp] theorem setCopies_chans (s : State) (id : Nat) (l : List (Option RecCopy)) : (s.setCopies id l).chans = s.chans := rfl
@[simp] theorem setCopies_bridges (s : State) (id : Nat) (l : List (Option RecCopy)) : (s.setCopies id l).bridges = s.bridges := rfl
@[simp] theorem setCopies_pwmAxes (s : State) (id : Nat) (l : List (Option RecCopy)) : (s.setCopies id l).pwmAxes = s.pwmAxes := rfl
@[simp] theorem setCopies_aux (s : State) (id : Nat) (l : List (Option RecCopy)) : (s.setCopies id l).aux = s.aux := rfl
@[simp] theorem setCopies_timers (s : State) (id : Nat) (l : List (Option RecCopy)) : (s.setCopies id l).timers = s.timers := rfl
@[simp] theorem setCopies_phases (s : State) (id : Nat) (l : List (Option RecCopy)) : (s.setCopies id l).phases = s.phases := rfl
@[simp] theorem setCopies_curs (s : State) (id : Nat) (l : List (Option RecCopy)) : (s.setCopies id l).curs = s.curs := rfl
@[simp] theorem setCopies_fbks (s : State) (id : Nat) (l : List (Option RecCopy)) : (s.setCopies id l).fbks = s.fbks := rfl
@[simp] theorem setCopies_obss (s : State) (id : Nat) (l : List (Option RecCopy)) : (s.setCopies id l).obss = s.obss := rfl
@[simp] theorem setCopies_dcb (s : State) (id : Nat) (l : List (Option RecCopy)) : (s.setCopies id l).dcb = s.dcb := rfl
@[simp] theorem setCopies_cmp (s : State) (id : Nat) (l : List (Option RecCopy)) : (s.setCopies id l).cmp = s.cmp := rfl
@[simp] theorem setCopies_pmc (s : State) (id : Nat) (l : List (Option RecCopy)) : (s.setCopies id l).pmc = s.pmc := rfl
@[simp] theorem setCopies_host (s : State) (id : Nat) (l : List (Option RecCopy)) : (s.setCopies id l).host = s.host := rfl
@[simp] theorem setCopies_dbg (s : State) (id : Nat) (l : List (Option RecCopy)) : (s.setCopies id l).dbg = s.dbg := rfl
@[simp] theorem setCopies_rd (s : State) (id : Nat) (l : List (Option RecCopy)) (a : Nat) : (s.setCopies id l).rd a = s.rd a := rfl
@[simp] theorem setCopies_get (s : State) (id : Nat) (l : List (Option RecCopy)) (g : Fld) : (s.setCopies id l).get g = s.get g := rfl
@[simp] theorem setCopies_flag (s : State) (id : Nat) (l : List (Option RecCopy)) (g : Fld) : (s.setCopies id l).flag g = s.flag g := rfl

/-! ### setBank -/

@[simp] theorem setBank_pending (s : State) (b : Nat) (x : Bank) : (s.setBank b x).pending = s.pending := rfl
@[simp] theorem setBank_free (s : State) (b : Nat) (x : Bank) : (s.setBank b x).free = s.free := rfl
@[simp] theorem setBank_held (s : State) (b : Nat) (x : Bank) : (s.setBank b x).held = s.held := rfl
@[simp] theorem setBank_now (s : State) (b : Nat) (x : Bank) : (s.setBank b x).now = s.now := rfl
@[simp] theorem setBank_regs (s : State) (b : Nat) (x : Bank) : (s.setBank b x).regs = s.regs := rfl
@[simp] theorem setBank_staged (s : State) (b : Nat) (x : Bank) : (s.setBank b x).staged = s.staged := rfl
@[simp] theorem setBank_snaps (s : State) (b : Nat) (x : Bank) : (s.setBank b x).snaps = s.snaps := rfl
@[simp] theorem setBank_frm (s : State) (b : Nat) (x : Bank) : (s.setBank b x).frm = s.frm := rfl
@[simp] theorem setBank_log (s : State) (b : Nat) (x : Bank) : (s.setBank b x).log = s.log := rfl
@[simp] theorem setBank_nvs (s : State) (b : Nat) (x : Bank) : (s.setBank b x).nvs = s.nvs := rfl
@[simp] theorem setBank_backup (s : State) (b : Nat) (x : Bank) : (s.setBank b x).backup = s.backup := rfl
@[simp] theorem setBank_guard (s : State) (b : Nat) (x : Bank) : (s.setBank b x).guard = s.guard := rfl
@[simp] theorem setBank_sup (s : State) (b : Nat) (x : Bank) : (s.setBank b x).sup = s.sup := rfl
@[simp] theorem setBank_net (s : State) (b : Nat) (x : Bank) : (s.setBank b x).net = s.net := rfl
@[simp] theorem setBank_axes (s : State) (b : Nat) (x : Bank) : (s.setBank b x).axes = s.axes := rfl
@[simp] theorem setBank_herds (s : State) (b : Nat) (x : Bank) : (s.setBank b x).herds = s.herds := rfl
@[simp] theorem setBank_latchQ (s : State) (b : Nat) (x : Bank) : (s.setBank b x).latchQ = s.latchQ := rfl
@[simp] theorem setBank_sub (s : State) (b : Nat) (x : Bank) : (s.setBank b x).sub = s.sub := rfl
@[simp] theorem setBank_vm (s : State) (b : Nat) (x : Bank) : (s.setBank b x).vm = s.vm := rfl
@[simp] theorem setBank_balls (s : State) (b : Nat) (x : Bank) : (s.setBank b x).balls = s.balls := rfl
@[simp] theorem setBank_chans (s : State) (b : Nat) (x : Bank) : (s.setBank b x).chans = s.chans := rfl
@[simp] theorem setBank_bridges (s : State) (b : Nat) (x : Bank) : (s.setBank b x).bridges = s.bridges := rfl
@[simp] theorem setBank_pwmAxes (s : State) (b : Nat) (x : Bank) : (s.setBank b x).pwmAxes = s.pwmAxes := rfl
@[simp] theorem setBank_aux (s : State) (b : Nat) (x : Bank) : (s.setBank b x).aux = s.aux := rfl
@[simp] theorem setBank_timers (s : State) (b : Nat) (x : Bank) : (s.setBank b x).timers = s.timers := rfl
@[simp] theorem setBank_phases (s : State) (b : Nat) (x : Bank) : (s.setBank b x).phases = s.phases := rfl
@[simp] theorem setBank_curs (s : State) (b : Nat) (x : Bank) : (s.setBank b x).curs = s.curs := rfl
@[simp] theorem setBank_fbks (s : State) (b : Nat) (x : Bank) : (s.setBank b x).fbks = s.fbks := rfl
@[simp] theorem setBank_obss (s : State) (b : Nat) (x : Bank) : (s.setBank b x).obss = s.obss := rfl
@[simp] theorem setBank_dcb (s : State) (b : Nat) (x : Bank) : (s.setBank b x).dcb = s.dcb := rfl
@[simp] theorem setBank_cmp (s : State) (b : Nat) (x : Bank) : (s.setBank b x).cmp = s.cmp := rfl
@[simp] theorem setBank_pmc (s : State) (b : Nat) (x : Bank) : (s.setBank b x).pmc = s.pmc := rfl
@[simp] theorem setBank_host (s : State) (b : Nat) (x : Bank) : (s.setBank b x).host = s.host := rfl
@[simp] theorem setBank_dbg (s : State) (b : Nat) (x : Bank) : (s.setBank b x).dbg = s.dbg := rfl
@[simp] theorem setBank_rd (s : State) (b : Nat) (x : Bank) (a : Nat) : (s.setBank b x).rd a = s.rd a := rfl
@[simp] theorem setBank_get (s : State) (b : Nat) (x : Bank) (g : Fld) : (s.setBank b x).get g = s.get g := rfl
@[simp] theorem setBank_flag (s : State) (b : Nat) (x : Bank) (g : Fld) : (s.setBank b x).flag g = s.flag g := rfl

/-! ### What the indexed updates store -/

/-- The element of a vector after an update. -/
theorem getD_set {α : Type} {k : Nat} (v : Vector α k) (i j : Nat) (x d : α) :
    (v.setIfInBounds i x).toList.getD j d = if i = j ∧ j < k then x else v.toList.getD j d := by
  simp only [List.getD_eq_getElem?_getD, Vector.toList_setIfInBounds, List.getElem?_set, Vector.length_toList]
  by_cases h : i = j
  · subst h
    by_cases hk : i < k <;> simp [hk]
  · simp [h]

theorem ax_modAx (s : State) (n m : Nat) (f : Axis → Axis) :
    (s.modAx n f).ax m = if n = m ∧ m < 8 then f (s.ax n) else s.ax m := getD_set ..

theorem br_modBr (s : State) (k m : Nat) (f : Bridge → Bridge) :
    (s.modBr k f).br m = if k = m ∧ m < 32 then f (s.br k) else s.br m := getD_set ..

theorem pw_modPw (s : State) (n m : Nat) (f : PwmAxis → PwmAxis) :
    (s.modPw n f).pw m = if n = m ∧ m < 8 then f (s.pw n) else s.pw m := getD_set ..

theorem axu_modAxu (s : State) (a m : Nat) (f : Aux → Aux) :
    (s.modAxu a f).axu m = if a = m ∧ m < 8 then f (s.axu a) else s.axu m := getD_set ..

theorem ch_modCh (s : State) (c m : Nat) (f : Chan → Chan) :
    (s.modCh c f).ch m = if c = m ∧ m < 32 then f (s.ch c) else s.ch m := getD_set ..

theorem fb_modFb (s : State) (n m : Nat) (f : Fbk → Fbk) :
    (s.modFb n f).fb m = if n = m ∧ m < 8 then f (s.fb n) else s.fb m := getD_set ..

theorem ob_modOb (s : State) (n m : Nat) (f : Obs → Obs) :
    (s.modOb n f).ob m = if n = m ∧ m < 8 then f (s.ob n) else s.ob m := getD_set ..

theorem cur_modCur (s : State) (n m : Nat) (f : CurAxis → CurAxis) :
    (s.modCur n f).cur m = if n = m ∧ m < 8 then f (s.cur n) else s.cur m := getD_set ..

theorem ph_modPh (s : State) (i m : Nat) (f : Phase → Phase) :
    (s.modPh i f).ph m = if i = m ∧ m < 16 then f (s.ph i) else s.ph m := getD_set ..

theorem np_modNp (s : State) (q m : Nat) (f : NetPort → NetPort) :
    (s.modNp q f).np m = if q = m ∧ m < 3 then f (s.np q) else s.np m := getD_set ..

theorem ownRep_modOwn (s : State) (k m : Nat) (f : OwnRep → OwnRep) :
    (s.modOwn k f).ownRep m = if k = m ∧ m < 2 then f (s.ownRep k) else s.ownRep m := getD_set ..

theorem heldRep_modHeld (s : State) (j m : Nat) (f : Held → Held) :
    (s.modHeld j f).heldRep m = if j = m ∧ m < 3 then f (s.heldRep j) else s.heldRep m := getD_set ..

end Sys2Proof.Machine
end

