-- ==== Sys2Proof/WellFormed.lean ====
section
/-!
DEFINITION. Which commands the outside can send: operands within the ranges that the spec gives them. The meanings are total
and give a command outside these ranges no effect, or take its operand modulo the field; statements that need a range say
so.
-/
namespace Sys2Proof

/-- A core cycle of a frame: C is at most 40,000 (R14). -/
def cycleOk (c : Nat) : Bool := decide (c < 40000)

/-- A mailbox slot as 64 bytes can spell it (Table 14.2). -/
def Mbx.ok (m : Mbx) : Bool :=
  decide (m.kind < 2 ^ 8) && decide (m.flags < 2 ^ 8) && decide (m.src < 2 ^ 12) && decide (m.dst < 2 ^ 24) &&
    decide (m.epoch < 2 ^ 16) && decide (m.tag < 2 ^ 16) && decide (m.counter < 2 ^ 32) &&
    decide (m.payload.length = 32) && decide (m.mac.length = 16)

/-- A replica message (Table 15.8): its sender is a node. -/
def RepMsg.ok (m : RepMsg) : Bool := decide (m.src < 2 ^ 12) && decide (m.body.length ≤ 32)

/-- What a frame start measures: each channel delivers one fine result at most; the lanes stop within the frame. -/
def FrameIn.ok (i : FrameIn) : Bool :=
  decide (i.fine.map FineIn.chan).Nodup && (match i.issued with
    | none => true
    | some k => cycleOk k)

/-- Is `ball` a digital input (R440): inputs 0 to 87 of the fabric's source numbers but the reserved one. -/
def inputBall (ball : Nat) : Bool := decide (0x200 ≤ ball) && decide (ball < 0x258) && decide (ball ≠ 0x230)

/-- A host write carries 1 to 64 words (R412). -/
def wordsOk (l : List Word) : Bool := decide (1 ≤ l.length) && decide (l.length ≤ 64)

/-- The commands with operands that the outside can send. -/
def Instr.wf : Instr → Bool
  | .frameStart i => i.ok
  | .openPartial _ arg => decide (arg.toNat < 8)
  | .limitDebounced _ _ _ cyc => cycleOk cyc
  | .electWin _ m => m.ok
  | .electDecline _ m => m.ok
  | .mgmtRead _ m => m.ok
  | .mgmtWrite _ m => m.ok
  | .roleSet _ m => m.ok
  | .roleGet _ m => m.ok
  | .bellwetherElection _ cands => cands.all fun c => decide (c.node < 2 ^ 12)
  | .pwmCommit _ _ cyc => cycleOk cyc
  | .auxCommit _ _ cyc => cycleOk cyc
  | .quadTransition _ _ _ cyc => cycleOk cyc
  | .indexEvent _ cyc => cycleOk cyc
  | .hallChange _ _ _ _ cyc => cycleOk cyc
  | .fbkStandstill _ cyc => cycleOk cyc
  | .calSecond cyc => cycleOk cyc
  | .conversionDone _ _ cyc => cycleOk cyc
  | .refReady cyc => cycleOk cyc
  | .cmpTrip _ cyc => cycleOk cyc
  | .cmpRelease _ cyc => cycleOk cyc
  | .trainReceived _ body _ => decide (body.length = 24)
  | .ringPass _ segs _ cyc _ => !segs.isEmpty && cycleOk cyc
  | .rootPassReturn _ segs _ => !segs.isEmpty
  | .hostRead _ _ _ cyc => cycleOk cyc
  | .hostWrite _ words _ _ cyc fin => wordsOk words && cycleOk cyc && decide (cyc ≤ fin)
  | .hostWriteFixed _ words _ _ cyc fin => wordsOk words && cycleOk cyc && decide (cyc ≤ fin)
  | .hostReread _ _ _ cyc => cycleOk cyc
  | .hostAbort _ _ _ k cyc => decide (k ≤ 64) && cycleOk cyc
  | .digitalBallChange ball _ => inputBall ball
  | .replicaOffer m => m.ok
  | .replicaAccept m => m.ok
  | .replicaDecline m => m.ok
  | .replicaData m => m.ok
  | .replicaBlockAck m => m.ok
  | .replicaBlockNak m => m.ok
  | .replicaComplete m => m.ok
  | .replicaVerify m => m.ok
  | .replicaVerifyAck m => m.ok
  | .replicaRelease m => m.ok
  | .replicaFetch m => m.ok
  | .ssiTransferDone _ _ bits => decide (bits.length ≤ 47)
  | .outputStage => true
  | .ovrFaultClear _ => true
  | .guardStageCheck => true
  | .admissionDone => true
  | .maintRequest _ _ => true
  | .maintAbort _ _ => true
  | .maintTimeout _ => true
  | .scheduledMaintStart _ => true
  | .openFull _ => true
  | .partialCopyDone => true
  | .loadData _ _ => true
  | .verify _ => true
  | .verifyDone => true
  | .activate _ => true
  | .revert _ => true
  | .cancel _ => true
  | .sessionTimeout => true
  | .swapTimeout => true
  | .bootLoad => true
  | .programKey _ _ => true
  | .revokeKey _ _ => true
  | .requireSig _ _ => true
  | .otpDone => true
  | .arm _ _ => true
  | .disarm _ _ => true
  | .stop _ _ => true
  | .start _ _ => true
  | .home _ _ => true
  | .clearLimit _ _ => true
  | .clearFault _ _ => true
  | .clearUncertain _ _ => true
  | .targetWrite _ _ _ => true
  | .vtargetWrite _ _ _ => true
  | .posWrite _ _ _ => true
  | .modeWrite _ _ _ => true
  | .stepEdge _ _ _ => true
  | .chgArm _ _ _ => true
  | .chgCancel _ _ => true
  | .masterLost _ => true
  | .tcmdSubmit _ _ _ => true
  | .tcmdExecute _ _ => true
  | .tcmdCancel _ _ _ => true
  | .herdSyncStart _ _ => true
  | .herdStop _ _ => true
  | .herdStart _ _ => true
  | .senseLost _ => true
  | .loopSat _ _ => true
  | .standstillDelay _ => true
  | .guardRelease _ => true
  | .stretchPulse _ _ => true
  | .openCoil _ _ => true
  | .phaseAgeOut _ _ => true
  | .commOffsetWrite _ _ _ => true
  | .encScaleWrite _ _ _ _ => true
  | .encCalDone _ => true
  | .pwmBoundary _ => true
  | .pwmForce _ _ _ => true
  | .faultLatchSet _ _ => true
  | .pwmFaultForce _ _ => true
  | .faultLatchClear _ _ => true
  | .auxWindowEnd _ => true
  | .timerEvent _ _ => true
  | .demandEdge _ _ => true
  | .gateTurnOn _ _ => true
  | .handshakeTimeout _ => true
  | .bstUvEvent _ => true
  | .vdsTrip _ _ => true
  | .drvEnLow => true
  | .drvEnHigh => true
  | .faultNLow => true
  | .gdrTripClear _ _ _ => true
  | .fastOutput _ _ _ => true
  | .cmOut _ => true
  | .csaCfgWrite _ _ _ => true
  | .csaSync _ => true
  | .dcbEstWrite _ _ _ => true
  | .offsetCalDone _ => true
  | .anaOkChange _ => true
  | .noSignal _ => true
  | .ampBad _ => true
  | .hallInvalid _ => true
  | .fbkPosWrite _ _ _ => true
  | .fbkModeWrite _ _ _ => true
  | .fbkFaultClear _ _ _ => true
  | .devSync _ _ _ => true
  | .motorRWrite _ _ _ => true
  | .pmcStart _ => true
  | .pmcStop _ => true
  | .pmcUrgent _ => true
  | .scanTrigger => true
  | .urgentTrigger => true
  | .interleaveBStart => true
  | .pmcCfgWrite _ _ _ => true
  | .refSelect _ _ => true
  | .refXcheckDone _ _ _ => true
  | .refFailedClear _ _ => true
  | .cmpDacWrite _ _ _ => true
  | .cmpTestWrite _ _ _ => true
  | .cmpSelftestDone _ _ => true
  | .dacReadbackDone _ _ => true
  | .cmpOutputsEnabled => true
  | .linkUp _ => true
  | .trainInterval _ => true
  | .trainTimeout _ => true
  | .loopReqTimeout _ => true
  | .linkLost _ => true
  | .segmentReceived _ _ => true
  | .rootCycleStart _ _ => true
  | .isolated => true
  | .becomeRoot => true
  | .holdoverExpiry => true
  | .timeSet _ _ => true
  | .enumerate _ => true
  | .supLost => true
  | .netOffsetWrite _ _ _ => true
  | .nvsLoad _ _ => true
  | .nvsCommit _ _ => true
  | .nvsAck _ _ => true
  | .saveState _ _ => true
  | .restore _ _ => true
  | .blankRestoreStart => true
  | .recordCommitStart => true
  | .recordCommitDone _ => true
  | .safetyAutosave _ => true
  | .energyRetry => true
  | .recordRead => true
  | .plsWriteStart => true
  | .plsDone => true
  | .consumedMark => true
  | .logChunkWrite _ => true
  | .logFlushTimer => true
  | .logSelect _ _ => true
  | .scrubDone _ _ => true
  | .choldMeasureDone _ _ _ => true
  | .replicaRefreshRun _ => true
  | .offerTimeout _ => true
  | .restoreOfferWindow => true
  | .replicaKeepExpiry _ => true
  | .powerUp => true
  | .supplyReset => true
  | .rstNReset => true
  | .watchdogExpire => true
  | .softwareReset _ _ => true
  | .resetRelease => true
  | .watchdogStart _ _ => true
  | .watchdogKick _ _ => true
  | .vmFail => true
  | .vmGood => true
  | .vmOv _ => true
  | .vdrvFail _ => true
  | .vdrvReady => true
  | .vdrvEnWrite _ _ => true
  | .tsd => true
  | .tsdClear => true
  | .tempWarn _ => true
  | .huReady => true
  | .choldStartTimeout => true
  | .shed => true
  | .shedRestart => true
  | .guardDomainReset => true
  | .vbatLow _ => true
  | .vioChange _ => true
  | .backupPor => true
  | .calSet _ _ => true
  | .calSnapshot _ => true
  | .calNetSync => true
  | .oscStop => true
  | .oscResume => true
  | .dbgHalt _ => true
  | .dbgHaltSafe _ => true
  | .dbgResume _ => true
  | .dbgStep _ => true
  | .dbgReset _ => true
  | .dbgLock _ _ => true
  | .testTableWrite _ _ => true
  | .testPwmDrive _ _ => true
  | .testMramAccess _ _ => true
  | .testNone _ _ => true
  | .tableReloadDone => true
  | .jtagIdcode => true
  | .jtagExtest => true
  | .jtagSamplePreload _ => true
  | .jtagClamp => true
  | .jtagHighz => true
  | .jtagBypass => true
  | .tapReset => true
  | .dbgAccessRead _ => true
  | .dbgAccessWrite _ _ => true
  | .dbgAccessFetch => true
  | .registerWrite _ _ _ => true
  | .w1cWrite _ _ _ => true
  | .rcRead _ _ => true
  | .wideLowRead _ _ => true
  | .wideLowWrite _ _ _ => true
  | .faultNHigh => true
  | .vdsRelease _ _ => true
  | .bstUvRelease _ => true
  | .gateOffReached _ _ => true
  | .cmOutClear _ => true
  | .auxCompareEdge _ _ => true
  | .linkModeRefused _ => true
  | .invalidCodeGroup _ => true
  | .prbsLock _ => true
  | .prbsLockLost _ => true
  | .prbsBitError _ => true
  | .huReadyClear => true
  | .vgrdOk => true
  | .vdrvOvRestart => true

end Sys2Proof
end

