-- ==== Sys2Proof/Tests/Slice0.lean ====
section
/-!
SUPPORT. The model's own tests: ill-formed commands that WellFormed refuses, small checks taken from the spec's examples, and
for every statement a witness: a concrete state and operands that meet the premises of each of its clauses.
-/
namespace Sys2Proof.Tests
open Sys2Proof.Machine
set_option Elab.async false

/-! ## WellFormed refuses -/

/-- A mailbox slot at the bounds of its fields. -/
def fullSlot : Mbx :=
  { kind := 255, flags := 255, src := 4095, dst := 2 ^ 24 - 1, epoch := 65535, tag := 65535, counter := 2 ^ 32 - 1,
    payload := List.replicate 32 0, mac := List.replicate 16 0 }

/-- Operands at their bounds are well formed. -/
theorem test_wf_bounds : fullSlot.ok = true ∧ (Instr.calSecond 39999).wf = true ∧ (Instr.openPartial .host 7).wf = true ∧
    (Instr.hostWrite 0 (List.replicate 64 0) 0 0 39999 39999).wf = true ∧ (Instr.digitalBallChange 0x257 true).wf = true ∧
    (Instr.hostAbort 0 0 0 64 0).wf = true ∧ (Instr.ssiTransferDone 0 true (List.replicate 47 true)).wf = true := by decide

/-- A cycle beyond the longest frame. -/
theorem test_wf_cycle : (Instr.calSecond 40000).wf = false ∧ (Instr.pwmCommit .host 0 40000).wf = false ∧
    (Instr.ringPass 0 [[]] 0 40000 []).wf = false ∧ (Instr.hostRead 0 0 0 40000).wf = false ∧
    (Instr.limitDebounced 0 .pos true 40000).wf = false := by decide

/-- A mailbox slot with a field too wide or a part of another length. -/
theorem test_wf_slot : ({ fullSlot with kind := 256 }.ok = false) ∧ ({ fullSlot with flags := 256 }.ok = false) ∧
    ({ fullSlot with src := 4096 }.ok = false) ∧ ({ fullSlot with dst := 2 ^ 24 }.ok = false) ∧
    ({ fullSlot with epoch := 65536 }.ok = false) ∧ ({ fullSlot with tag := 65536 }.ok = false) ∧
    ({ fullSlot with counter := 2 ^ 32 }.ok = false) ∧ ({ fullSlot with payload := [] }.ok = false) ∧
    ({ fullSlot with mac := [] }.ok = false) ∧ (Instr.mgmtRead 0 { fullSlot with mac := [] }).wf = false := by decide

/-- Replica messages. -/
theorem test_wf_replica : (Instr.replicaOffer ⟨4096, 0, 0, 0, 0, []⟩).wf = false ∧
    (Instr.replicaData ⟨0, 0, 0, 0, 0, List.replicate 33 0⟩).wf = false := by decide

/-- Two fine results of one channel; lanes that stop after the frame. -/
theorem test_wf_frame : (Instr.frameStart ⟨0, 0, 0, 0, [⟨3, [], false⟩, ⟨3, [], true⟩], none⟩).wf = false ∧
    (Instr.frameStart ⟨0, 0, 0, 0, [], some 40000⟩).wf = false := by decide

/-- Partition axes, candidates, TRAIN bodies, passes without a segment. -/
theorem test_wf_lists : (Instr.openPartial .host 8).wf = false ∧
    (Instr.bellwetherElection 0 [⟨4096, 0, 0, 0, true, true, 0⟩]).wf = false ∧
    (Instr.trainReceived 0 [] 0).wf = false ∧ (Instr.ringPass 0 [] 0 0 []).wf = false ∧
    (Instr.rootPassReturn 0 [] 0).wf = false ∧ (Instr.ssiTransferDone 0 true (List.replicate 48 true)).wf = false := by decide

/-- Host transactions. -/
theorem test_wf_host : (Instr.hostWrite 0 [] 0 0 0 0).wf = false ∧
    (Instr.hostWriteFixed 0 (List.replicate 65 0) 0 0 0 0).wf = false ∧ (Instr.hostWrite 0 [0] 0 0 1 0).wf = false ∧
    (Instr.hostAbort 0 0 0 65 0).wf = false ∧ (Instr.hostReread 0 0 0 40000).wf = false := by decide

/-- Balls that are no digital input. -/
theorem test_wf_balls : (Instr.digitalBallChange 0x1FF true).wf = false ∧ (Instr.digitalBallChange 0x258 true).wf = false ∧
    (Instr.digitalBallChange 0x230 true).wf = false := by decide

/-- No word spells a command. -/
theorem test_table_words : decodeTableWord 32 0 = none ∧ (State.reset.withFetchWord 32 0).pending = [] := by decide +kernel

/-! ## Examples of the spec -/

/-- The CRC-8 bytes of the watchdog kick of chapter 17: header 0x40, 0x2C, 0x68 and data 0xC3, 0x5A, 0, 0. -/
theorem test_kick_crc : crc8 [0x40, 0x2C, 0x68] = 0xE0 ∧ crc8 [0xC3, 0x5A, 0, 0] = 0xE2 := by decide +kernel

/-- The kick of chapter 17 executes cleanly and restarts the timeout. -/
theorem test_kick_restarts : (match execHostWrite 0x682C [0x5AC3] 0xE0 0xE2 512 1280
      { State.reset with now := 1000000, regs := [(R.SUP_STATUS, 0x100), (R.SUP_WDT_CFG, 0x10100)] } with
    | .next t => decide (t.sup.wdtAt = 1001280) && decide (t.get F.HOST_TSTAT_EXEC = 1)
    | _ => false) = true := by decide +kernel

/-- R15: C = 10,000 with m = 3 is refused, C = 10,002 with m = 3 is admitted. -/
theorem test_period_divisor :
    periodOk ⟨10000, [1, 3, 1, 1, 1, 1, 1, 1], [0, 0, 0, 0, 0, 0, 0, 0]⟩ 0 = false ∧
    periodOk ⟨10002, [1, 3, 1, 1, 1, 1, 1, 1], [0, 0, 0, 0, 0, 0, 0, 0]⟩ 0 = true := by decide +kernel

/-- The hold-up budget of chapter 15: a 4,064-byte USER record takes 242 µs; E_avail at 23.5 V is 482 mJ. -/
theorem test_hold_budget : recordTime 4064 = 242000 ∧
    (({ State.reset with nvs := { State.reset.nvs with vhold := 23500, cUseNf := 1917000 } } : State).energy2 + 10 ^ 12) / (2 * 10 ^ 12) =
      482 := by decide +kernel

/-- Gray code to binary (chapter 9): 1110 is 11. -/
theorem test_gray : grayBits false [true, true, true, false] = [true, false, true, true] := by decide

/-! ## Small states for the witnesses -/

/-- State.reset with the fields of the list set. -/
def setF (l : List (Fld × Nat)) (s : State := State.reset) : State := l.foldl (fun s e => s.put e.1 e.2) s

/-- Axis `n` armed. -/
def armedAt (n : Nat) (s : State := State.reset) : State := s.modAx n fun a => { a with armed := true }

/-- Axis 7 armed, with rates and a speed. -/
def readyAxis (l : List (Fld × Nat) := []) : State :=
  setF ([(F.MOTn_A1_RATE 7, 1), (F.MOTn_A2_RATE 7, 1), (F.MOTn_D1_RATE 7, 1), (F.MOTn_D2_RATE 7, 1)] ++ l)
    (armedAt 7 (State.reset.putWide 40 (R.MOTn_VMAX 7) 256))

/-- The start-up measurement has ended. -/
def afterStart (l : List (Fld × Nat) := []) : State := (setF l).modFrm fun f => { f with claimStart := false }

/-- Activity `act` runs on target `t` in slot 15. -/
def running (act t : Nat) (l : List (Fld × Nat) := []) : State :=
  afterStart ([(F.FRM_MAINT_SLOTn_BUSY 15, 1), (F.FRM_MAINT_SLOTn_ACTIVITY 15, act), (F.FRM_MAINT_SLOTn_TARGET 15, t)] ++ l)

/-- Holds with energy enough for every commit. -/
def charged (s : State) : State := { s with nvs := { s.nvs with vhold := 20000, cUseNf := 40000000 } }

/-- The loader in a state of its own, bound to the host port. -/
def session (k : Nat) (f : Cfg → Cfg := id) : State :=
  let s := setF [(F.CFG_STATUS_LOADER, k)]
  { s with cfg := f { s.cfg with port := some .host } }

/-- A replica placement service in force, node 5 in a ring with nodes 1, 2 and 3. -/
def withReplicas (l : List (Fld × Nat) := []) : State :=
  let s := setF ([(F.NVS_REP_CFG_EN, 1), (⟨R.NET_RING, 9, 1⟩, 1), (F.NET_NODE_NODE, 5)] ++ l)
    (afterStart)
  s.modNet fun n => { n with nodes := [(0, 5), (1, 1), (2, 2), (3, 3)] }

/-- A mailbox slot for this node's device endpoint with a payload. -/
def message (payload : List Byte) (dst : Nat := 0) : Mbx :=
  { kind := 1, flags := 0, src := 1, dst := dst, epoch := 0, tag := 0, counter := 0, payload := padTo 32 payload, mac := [] }

/-- A replica message. -/
def replica (src owner : Nat) (body : List Byte := []) : RepMsg :=
  { src := src, chunk := 0, block := 1, owner := owner, version := 0, body := body }

/-- A segment with its FCS. -/
def segBytes (t : Nat) (body : List Byte) : List Byte :=
  let c := leBytes 1 t ++ leBytes 1 0 ++ leBytes 2 body.length ++ body
  c ++ leBytes 4 (crc32 c)

/-- A HEADER with NODES, PRIORITY and root. -/
def headerBody (nodes prio root : Nat) : List Byte :=
  leBytes 20 1 ++ leBytes 2 nodes ++ leBytes 6 0 ++ leBytes 2 (4096 * prio + root) ++ leBytes 2 0

/-- A TRAIN body: version bitmap at 8, flags at 11, version at 12. -/
def trainBody (vers flags ver : Nat) : List Byte :=
  leBytes 8 1 ++ leBytes 2 vers ++ leBytes 1 0 ++ leBytes 1 flags ++ leBytes 1 ver ++ leBytes 11 0

/-- The CRC-8 of a host header. -/
def crcOf (cmd : Nat) (a : BitVec 16) : Byte := BitVec.ofNat 8 (crc8 (headerBytes cmd a.toNat))

/-- An empty whole-device image: DEVICE, FABRIC, TASKS and PARAM of the device partition. -/
def smallImage : List Byte :=
  let dir := fun (t o n : Nat) => leBytes 1 t ++ leBytes 1 8 ++ leBytes 2 0 ++ leBytes 4 o ++ leBytes 4 n
  let dev := leBytes 4 10000 ++ List.replicate 8 1#8 ++ List.replicate 16 0#8
  let l := leBytes 4 0x4D494B47 ++ leBytes 2 3 ++ leBytes 1 0 ++ leBytes 1 4 ++ leBytes 4 0x8140 ++ leBytes 4 156 ++
    leBytes 2 0x100 ++ leBytes 2 0 ++ leBytes 12 7 ++ List.replicate 32 0#8 ++ dir 1 112 28 ++ dir 2 140 4 ++
    dir 3 144 4 ++ dir 5 148 4 ++ dev ++ leBytes 12 0
  l ++ leBytes 4 (crc32 l)

/-- A frame start that measures nothing. -/
def noMeasure : FrameIn := ⟨0, 0, 0, 0, [], none⟩

/-- The configuration at reset as a verified job of bank 1. -/
def someJob : Job := { bank := 1, cfg := resetConfig, place := ⟨[], 0, [], [], false⟩, axis := none, fallback := false }

/-- A session in VERIFY with the small image loaded. -/
def imageSession : State := session 4 fun c => { c with img := (List.range 156).zip smallImage }

/-- The small image's sections as a bank stores them. -/
def smallBank : Bank :=
  let secs := [(1, leBytes 4 10000 ++ List.replicate 8 1#8 ++ List.replicate 16 0#8), (2, leBytes 4 0), (3, leBytes 4 0),
    (5, leBytes 4 0)]
  ⟨List.replicate 8 none ++ [some ⟨secs, leBytes 4 0 ++ leBytes 316 3 ++ sha256 (secs.flatMap (·.2)), none⟩], false⟩

/-- Bank 1 holds the small image and is the boot bank. -/
def bankState : State :=
  let s := setF [(F.CFG_STATUS_BANK1_VALID, 1), (F.CFG_STATUS_BOOT_BANK, 1)]
  { s with cfg := { s.cfg with banks := s.cfg.banks.set 1 smallBank } }

/-- Axis 7 has a partition in force. -/
def configuredAt (l : List (Fld × Nat)) : State :=
  let s := afterStart l
  { s with cfg := { s.cfg with run := { s.cfg.run with parts := s.cfg.run.parts.set 7 ⟨true, [], [], [], []⟩ } } }

/-- Axis 7 runs its compares. -/
def drivenState : State := (configuredAt []).modPw 7 fun p => { p with level := 1 }

/-- Node 5 is the root and sends on its only open port 2. -/
def rootOpen : State :=
  (setF [(F.NET_RING_ROOT_HERE, 1), (F.NET_NODE_NODE, 5), (F.NETp_STATUS_STATE 2, 5)]).modRs fun r => { r with first := some 2 }

/-! ## From a computed check to a premise -/

/-- No route: no partition has one. -/
theorem routes_of (s : State) (h : s.cfg.run.parts.all (fun p => p.routes.isEmpty) = true) : ∀ k, s.routesTo k = [] := by
  intro k
  rw [List.all_eq_true] at h
  unfold State.routesTo
  rw [List.flatMap_eq_nil_iff]
  intro p hp
  rw [List.isEmpty_iff.mp (h p hp), List.filter_nil]

/-- The asynchronous path at rest. -/
theorem quiet_of (s : State) (h : s.cfg.run.parts.all (fun p => p.routes.isEmpty) = true)
    (h' : (∀ n < 8, s.faultLevels n = 0) ∧ s.get F.TEST_CTRL_MODE ≠ 2 ∧
      ∀ k < 32, s.demand k = ((s.br k).h, (s.br k).l)) : Quiet s :=
  ⟨routes_of s h, h'⟩

/-- The register at an offset has no field that a read clears. -/
theorem rc_of (a : Nat) (h : (findRow a).all (fun r => decide (r.rc = 0)) = true) :
    ∀ r, findRow a = some r → r.rc = 0 := by
  intro r hr
  rw [hr] at h
  exact of_decide_eq_true h

/-- Does a check answer a value with a property? -/
def okWith {ε α : Type} (e : Except ε α) (P : α → Bool) : Bool :=
  match e with
  | .ok x => P x
  | .error _ => false

/-- A check that answers a value. -/
theorem ok_of {ε α : Type} {e : Except ε α} {P : α → Bool} (h : okWith e P = true) : ∃ x, e = .ok x ∧ P x = true := by
  cases e with
  | ok x => exact ⟨x, rfl, h⟩
  | error f => cases h

/-- A check that answers a known value. -/
theorem ok_is {ε α : Type} [DecidableEq α] {e : Except ε α} {x : α} (h : okWith e (fun y => decide (y = x)) = true) :
    e = .ok x := by
  cases e with
  | ok y => rw [of_decide_eq_true h]
  | error f => cases h

/-- Does a check fail with a code? -/
def errWith {ε α : Type} [DecidableEq ε] (e : Except ε α) (f : ε) : Bool :=
  match e with
  | .ok _ => false
  | .error g => decide (g = f)

/-- A check that fails. -/
theorem err_of {ε α : Type} [DecidableEq ε] {e : Except ε α} {f : ε} (h : errWith e f = true) : e = .error f := by
  cases e with
  | ok x => cases h
  | error g => rw [of_decide_eq_true h]

/-- A replica refresh runs and both holders have their state. -/
def refreshing : State :=
  running 7 0 [(F.NVS_REP_CFG_EN, 1), (⟨R.NET_RING, 9, 1⟩, 1), (F.NVS_REP_OWNk_STATE 0, 2), (F.NVS_REP_OWNk_STATE 1, 2)]

/-- Both own replicas are held with every block. -/
def holders : State :=
  { refreshing with nvs := { refreshing.nvs with
      own := Vector.replicate 2 ⟨0, false, refreshing.ownBlocks.map fun b => (b.1, crc32 b.2), []⟩ } }

/-- The content does not depend on where its replicas stand. -/
theorem ownBlocks_own (s : State) (v : Vector OwnRep 2) :
    ({ s with nvs := { s.nvs with own := v } } : State).ownBlocks = s.ownBlocks := rfl

/-- Nor do the registers. -/
theorem get_own (s : State) (v : Vector OwnRep 2) (f : Fld) :
    ({ s with nvs := { s.nvs with own := v } } : State).get f = s.get f := rfl

/-- The blocks that both holders have acknowledged are those of the content. -/
theorem holders_acked : ∀ k < 2, holders.get (F.NVS_REP_OWNk_STATE k) ≠ 0 ∧
    ∀ b ∈ holders.ownBlocks, (b.1, crc32 b.2) ∈ (holders.ownRep k).acked := by
  intro k hk
  have h : ∀ k < 2, refreshing.get (F.NVS_REP_OWNk_STATE k) ≠ 0 := by decide +kernel
  refine ⟨(get_own refreshing _ _).symm ▸ h k hk, fun b hb => ?_⟩
  have e : holders.ownBlocks = refreshing.ownBlocks := ownBlocks_own refreshing _
  have a : (holders.ownRep k).acked = refreshing.ownBlocks.map fun b => (b.1, crc32 b.2) := by
    rcases (by omega : k = 0 ∨ k = 1) with rfl | rfl <;> simp [holders, State.ownRep]
  rw [a]
  exact List.mem_map_of_mem (e ▸ hb)

/-! ## Witnesses: the premises of every clause are met -/

/-- Premises of StepRunsTheFrontCommand are met. -/
theorem witness_StepRunsTheFrontCommand :
    (∃ (c : Instr) (q : List Instr) (s : State), s.pending = c :: q) ∧
    (∃ (s : State), s.pending = []) :=
  ⟨
    ⟨.bootLoad, [], { State.reset with pending := [.bootLoad] }, by decide +kernel⟩,
    ⟨State.reset, by decide +kernel⟩⟩

/-- Premises of TheQueueRunsThroughInOrder are met. -/
theorem witness_TheQueueRunsThroughInOrder :
    ∃ (s : State) (k : Nat), k ≤ s.pending.length :=
  ⟨{ State.reset with pending := [.bootLoad, .tsd] }, 2, by decide +kernel⟩

/-- Premises of ResetHoldsTheBlockClocks are met. -/
theorem witness_ResetHoldsTheBlockClocks :
    ∃ (c : Instr) (s : State), s.held = true ∧ actsInReset c = false :=
  ⟨.verifyDone, { State.reset with held := true }, by decide +kernel⟩

/-- Premises of FrameStagesFollowInTurn are met. -/
theorem witness_FrameStagesFollowInTurn :
    (∃ (s : State), s.held = false ∧ s.dbg.halt = false) ∧
    (∃ (s : State), s.held = false ∧ s.frm.stage = .window) ∧
    (∃ (s : State), s.held = false ∧ s.frm.stage = .window ∧ s.frm.lastOverrun = true ∧ s.frm.overruns + 1 < s.get
      F.FRM_CTRL_OVR_LIMIT) ∧
    (∃ (s : State), s.held = false ∧ s.frm.stage = .output) ∧
    (∃ (s : State), s.held = false) ∧
    (∃ (s : State), s.held = false) :=
  ⟨
    ⟨State.reset, by decide +kernel⟩,
    ⟨State.reset.modFrm fun f => { f with stage := .window }, by decide +kernel⟩,
    ⟨(setF [(F.FRM_CTRL_OVR_LIMIT, 2)]).modFrm fun f => { f with stage := .window, lastOverrun := true }, by decide +kernel⟩,
    ⟨State.reset.modFrm fun f => { f with stage := .output }, by decide +kernel⟩,
    ⟨State.reset, by decide +kernel⟩,
    ⟨State.reset, by decide +kernel⟩⟩

/-- Premises of ArbiterGrantsRefusesAndAborts are met. -/
theorem witness_ArbiterGrantsRefusesAndAborts :
    (∃ (p : Path) (w : Word) (s : State) (i : Nat), s.held = false ∧ s.judgeMaint (bitsOf w 0 8) (bitsOf w 8 8) (requesterOf p
      s) = (0, i, 0)) ∧
    (∃ (p : Path) (w : Word) (s : State) (b : Nat), s.held = false ∧ s.judgeMaint (bitsOf w 0 8) (bitsOf w 8 8) (requesterOf p
      s) = (1, 0, b)) ∧
    (∃ (a : SchedAct) (s : State) (b : Nat), s.held = false ∧ a ≠ .mramScrub ∧ a ≠ .replicaRefresh ∧ s.judgeMaint (schedCode a)
      0 reqDevice = (1, 0, b)) ∧
    (∃ (s : State) (i : Nat), s.held = false ∧ s.judgeMaint 8 0 reqDevice = (0, i, 0)) ∧
    (∃ (w : Word) (s : State), s.held = false ∧ s.slotBusy (bitsOf w 0 4) = true ∧ (s.slotAct (bitsOf w 0 4) = 5 ∨ s.slotAct
      (bitsOf w 0 4) = 8)) ∧
    (∃ (i : Fin 16) (s : State), s.held = false ∧ s.slotBusy i.val = true ∧ (s.slotAct i.val = 5 ∨ s.slotAct i.val = 8) ∧
      s.dueBy (s.frm.slotStart.toList.getD i.val 0 + s.actBound (s.slotAct i.val)) = true) :=
  ⟨
    ⟨.host, 0x0709, afterStart, 0, by decide +kernel⟩,
    ⟨.host, 0x0709, State.reset, 0xFF, by decide +kernel⟩,
    ⟨.refXcheck, State.reset, 0xFF, by decide +kernel⟩,
    ⟨State.reset, 0, by decide +kernel⟩,
    ⟨15, running 8 0, by decide +kernel⟩,
    ⟨15, { running 8 0 with now := 19990000 }, by decide +kernel⟩⟩

/-- Premises of LoaderOpensAndFills are met. -/
theorem witness_LoaderOpensAndFills :
    (∃ (s : State), s.held = false ∧ s.cfg.port = none) ∧
    (∃ (p : Path) (arg : Byte) (s : State) (i : Nat), s.held = false ∧ s.cfg.port = none ∧ arg.toNat < 8 ∧ s.judgeMaint 6
      arg.toNat (requesterOf p s) = (0, i, 0)) ∧
    (∃ (s : State), s.held = false ∧ s.loader = 3 ∧ s.cfg.held = [] ∧ s.findAct 8 0 = none ∧ s.energyOk (blockTime 4096) = true) ∧
    (∃ (p : Path) (s : State), s.held = false ∧ s.bound p = true ∧ (s.loader = 1 ∨ s.loader = 2) ∧ s.cfg.page = none) ∧
    (∃ (p : Path) (s : State), s.held = false ∧ s.bound p = true ∧ (s.loader = 1 ∨ s.loader = 2) ∧ s.cfg.page = none) :=
  ⟨
    ⟨State.reset, by decide +kernel⟩,
    ⟨.host, 7, afterStart, 0, by decide +kernel⟩,
    ⟨charged (setF [(F.CFG_STATUS_LOADER, 3)]), by decide +kernel⟩,
    ⟨.host, session 1, by decide +kernel⟩,
    ⟨.host, session 2, by decide +kernel⟩⟩

/-- Premises of SessionsVerifyAndEnd are met. -/
theorem witness_SessionsVerifyAndEnd :
    (∃ (s : State) (im : Image) (job : Job), s.held = false ∧ s.loader = 4 ∧ verifyAll s s.sessionBytes = .ok (im, job)) ∧
    (∃ (s : State) (c : Nat) (st : Nat) (sec : Nat), s.held = false ∧ s.loader = 4 ∧ verifyAll s s.sessionBytes = .error (c, st,
      sec)) ∧
    (∃ (p : Path) (s : State), s.held = false ∧ s.bound p = true ∧ s.frm.swapCommit = false) ∧
    (∃ (s : State), s.held = false ∧ s.cfg.port.isSome = true ∧ (s.loader = 1 ∨ s.loader = 2 ∨ s.loader = 5)) ∧
    (∃ (s : State), s.held = false ∧ s.loader = 6 ∧ s.cfg.swap.isSome = true ∧ s.frm.swapCommit = false) :=
  ⟨
    by
      obtain ⟨⟨im, job⟩, h, -⟩ := ok_of (e := verifyAll imageSession imageSession.sessionBytes) (P := fun _ => true) (by decide +kernel)
      exact ⟨imageSession, im, job, by decide +kernel, by decide +kernel, h⟩,
    ⟨session 4, 1, 1, 0xFF, by decide +kernel, by decide +kernel, err_of (by decide +kernel)⟩,
    ⟨.host, session 5, by decide +kernel⟩,
    ⟨session 5, by decide +kernel⟩,
    ⟨session 6 fun c => { c with swap := some someJob }, by decide +kernel⟩⟩

/-- Premises of ActivationIsHandedOver are met. -/
theorem witness_ActivationIsHandedOver :
    (∃ (p : Path) (s : State) (job : Job), s.held = false ∧ s.bound p = true ∧ s.loader = 5 ∧ s.cfg.ver = some job ∧ job.axis =
      none ∧ s.anyArmed = false) ∧
    (∃ (p : Path) (s : State) (job : Job), s.held = false ∧ s.bound p = true ∧ s.loader = 5 ∧ s.cfg.ver = some job ∧ job.axis =
      none ∧ s.anyArmed = true) ∧
    (∃ (p : Path) (s : State) (job : Job) (n : Nat), s.held = false ∧ s.bound p = true ∧ s.loader = 5 ∧ s.cfg.ver = some job ∧
      job.axis = some n ∧ n < 8) ∧
    (∃ (s : State) (c : Config) (pl : Placement), s.held = false ∧ s.cfg.port = none ∧ s.anyArmed = false ∧ loadBank s
      s.otherBank = .ok c ∧ periodOk c.dev s.ringCycle = true ∧ buildPlacement c.dev.cycles (c.parts.flatMap (·.tasks)) = some
      pl) :=
  ⟨
    ⟨.host, session 5 fun c => { c with ver := some someJob }, someJob, by decide +kernel⟩,
    ⟨.host, armedAt 7 (session 5 fun c => { c with ver := some someJob }), someJob, by decide +kernel⟩,
    ⟨.host, session 5 fun c => { c with ver := some { someJob with axis := some 7 } }, { someJob with axis := some 7 }, 7,
      by decide +kernel⟩,
    by
      obtain ⟨c, h, hp⟩ := ok_of (e := loadBank bankState bankState.otherBank)
        (P := fun c => periodOk c.dev bankState.ringCycle && (buildPlacement c.dev.cycles (c.parts.flatMap (·.tasks))).isSome)
        (by decide +kernel)
      rw [Bool.and_eq_true] at hp
      obtain ⟨pl, hl⟩ := Option.isSome_iff_exists.mp hp.2
      exact ⟨bankState, c, pl, by decide +kernel, by decide +kernel, by decide +kernel, h, hp.1, hl⟩⟩

/-- Premises of BootHandsABankOver are met. -/
theorem witness_BootHandsABankOver :
    (∃ (s : State) (c : Config), s.held = false ∧ s.sup.reached = 0 ∧ s.cfg.boot = none ∧ s.cfg.act = none ∧ bootBank
      s.plsRestore (s.get F.CFG_STATUS_BOOT_BANK) = .ok c) ∧
    (∃ (s : State) (job : Job) (pl : Placement), s.held = false ∧ s.cfg.boot = some job ∧ periodOk job.cfg.dev 0 = true ∧
      buildPlacement job.cfg.dev.cycles (job.cfg.parts.flatMap (·.tasks)) = some pl) :=
  ⟨
    by
      obtain ⟨c, h, -⟩ := ok_of (e := bootBank bankState.plsRestore (bankState.get F.CFG_STATUS_BOOT_BANK)) (P := fun _ => true) (by decide +kernel)
      exact ⟨bankState, c, by decide +kernel, by decide +kernel, by decide +kernel, by decide +kernel, h⟩,
    by
      obtain ⟨pl, h⟩ := Option.isSome_iff_exists.mp
        (show (buildPlacement someJob.cfg.dev.cycles (someJob.cfg.parts.flatMap (·.tasks))).isSome = true by decide +kernel)
      exact ⟨{ State.reset with cfg := { State.reset.cfg with boot := some someJob } }, someJob, pl, by decide +kernel,
        by decide +kernel, by decide +kernel, h⟩⟩

/-- Premises of KeyFusesOperate are met. -/
theorem witness_KeyFusesOperate :
    (∃ (slot : Fin 4) (s : State), s.held = false ∧ s.anyArmed = false ∧ s.flag F.SUP_STATUS_VM_FAIL = false ∧ s.cfg.otpOp =
      none ∧ s.keyState slot.val = 0) ∧
    (∃ (slot : Fin 4) (s : State), s.held = false ∧ s.anyArmed = false ∧ s.flag F.SUP_STATUS_VM_FAIL = false ∧ s.cfg.otpOp =
      none ∧ s.signsActive slot.val = false) ∧
    (∃ (s : State), s.held = false ∧ s.anyArmed = false ∧ s.flag F.SUP_STATUS_VM_FAIL = false ∧ s.cfg.otpOp = none ∧ s.flag
      F.CFG_STATUS_SIGNED = true ∧ s.flag F.CFG_KEY_STATUS_SIG_REQUIRED = false) ∧
    (∃ (key : Byte) (s : State), s.held = false ∧ key ≠ 0x5A) ∧
    (∃ (slot : Fin 4) (s : State), s.held = false ∧ s.cfg.otpOp = some (1, slot.val)) ∧
    (∃ (s : State), s.held = false ∧ s.cfg.otpOp = some (3, 0)) :=
  ⟨
    ⟨3, State.reset, by decide +kernel⟩,
    ⟨3, State.reset, by decide +kernel⟩,
    ⟨setF [(F.CFG_STATUS_SIGNED, 1)], by decide +kernel⟩,
    ⟨0x5B, State.reset, by decide +kernel⟩,
    ⟨3, { State.reset with cfg := { State.reset.cfg with otpOp := some (1, 3) } }, by decide +kernel⟩,
    ⟨{ State.reset with cfg := { State.reset.cfg with otpOp := some (3, 0) } }, by decide +kernel⟩⟩

/-- Premises of ArmAndDisarm are met. -/
theorem witness_ArmAndDisarm :
    (∃ (n : AxisIx) (s : State), s.held = false ∧ s.armed n = false ∧ s.armCode n = 0 ∧ -2 ^ 47 ≤ s.pos n ∧ s.pos n < 2 ^ 47) ∧
    (∃ (n : AxisIx) (s : State), s.held = false ∧ s.armed n = false ∧ s.configured n = false) ∧
    (∃ (n : AxisIx) (s : State), s.held = false ∧ s.armed n = false ∧ s.configured n = true ∧ s.flag F.GDR_STATUS_DRV_EN =
      false) ∧
    (∃ (n : AxisIx) (s : State), s.held = false ∧ s.armed n = false ∧ s.configured n = true ∧ s.flag F.GDR_STATUS_DRV_EN = true
      ∧ s.supplyGood = true ∧ s.flag F.FRM_STATUS_OVR_FAULT = true) ∧
    (∃ (n : AxisIx) (s : State), s.held = false ∧ s.armed n = true) ∧
    (∃ (n : AxisIx) (s : State), s.held = false ∧ s.armed n = true) ∧
    (∃ (n : AxisIx) (s : State), s.held = false ∧ s.armed n = false) :=
  ⟨
    ⟨7, configuredAt [(F.GDR_STATUS_DRV_EN, 1), (F.SUP_STATUS_STATE, 2), (F.SUP_STATUS_VM_GOOD, 1), (F.SUP_STATUS_VDRV_OK, 1)],
      by decide +kernel⟩,
    ⟨7, State.reset, by decide +kernel⟩,
    ⟨7, configuredAt [], by decide +kernel⟩,
    ⟨7, configuredAt [(F.GDR_STATUS_DRV_EN, 1), (F.SUP_STATUS_STATE, 2), (F.SUP_STATUS_VM_GOOD, 1), (F.SUP_STATUS_VDRV_OK, 1),
      (F.FRM_STATUS_OVR_FAULT, 1)], by decide +kernel⟩,
    ⟨7, armedAt 7, by decide +kernel⟩,
    ⟨7, armedAt 7, by decide +kernel⟩,
    ⟨7, State.reset, by decide +kernel⟩⟩

/-- Premises of StopAndClearsAreTaken are met. -/
theorem witness_StopAndClearsAreTaken :
    (∃ (p : Path) (s : State), s.held = false ∧ (∀ q src, p ≠ .ring q src)) ∧
    (∃ (s : State), s.held = false) ∧
    (∃ (s : State), s.held = false) ∧
    (∃ (s : State), s.held = false) :=
  ⟨
    ⟨.host, State.reset, by decide +kernel, nofun⟩,
    ⟨State.reset, by decide +kernel⟩,
    ⟨State.reset, by decide +kernel⟩,
    ⟨State.reset, by decide +kernel⟩⟩

/-- Premises of MotionAndHomingStart are met. -/
theorem witness_MotionAndHomingStart :
    (∃ (n : AxisIx) (s : State), s.held = false ∧ s.mode n < 3 ∧ s.motionCode n .start (s.masterRouted n) = 0) ∧
    (∃ (n : AxisIx) (s : State), s.held = false ∧ s.mode n = 3 ∧ s.flag (F.MOTn_GEAR_STATUS_ENGAGED n) = false ∧ s.motionCode n
      .start (s.masterRouted n) = 0) ∧
    (∃ (n : AxisIx) (s : State), s.held = false ∧ s.mode n < 3 ∧ s.motionCode n .start (s.masterRouted n) ≠ 0) ∧
    (∃ (n : AxisIx) (s : State), s.held = false ∧ s.motionCode n .home false = 0) :=
  ⟨
    ⟨7, readyAxis, by decide +kernel⟩,
    ⟨7, readyAxis [(F.MOTn_MODE_MODE 7, 3), (F.MOTn_GEAR_CFG_SRC 7, 1)], by decide +kernel⟩,
    ⟨7, State.reset, by decide +kernel⟩,
    ⟨7, (readyAxis).putWide 40 (R.MOTn_HOME_VEL 7) 1, by decide +kernel⟩⟩

/-- Premises of MotionRefusalsInOrder are met. -/
theorem witness_MotionRefusalsInOrder :
    (∃ (n : AxisIx) (s : State), s.held = false ∧ s.armed n = false) ∧
    (∃ (n : AxisIx) (s : State), s.held = false ∧ s.armed n = true ∧ (s.ax n).stopOpen = false ∧ (s.ax n).home = none ∧ s.mode n
      ≤ 1 ∧ (s.ax n).cal = none ∧ s.flag (F.MOTn_STATUS_FAULT_LATCH n) = true) ∧
    (∃ (n : AxisIx) (s : State), s.held = false ∧ s.armed n = true ∧ (s.ax n).stopOpen = false ∧ (s.ax n).home = none ∧ s.mode n
      ≤ 1 ∧ (s.ax n).cal = none ∧ s.flag (F.MOTn_STATUS_FAULT_LATCH n) = false ∧ s.get (F.MOTn_A1_RATE n) = 0) ∧
    (∃ (n : AxisIx) (s : State), s.held = false ∧ s.armed n = true ∧ s.mode n = 0 ∧ (s.ax n).stopOpen = true) ∧
    (∃ (n : AxisIx) (v : BitVec 48) (s : State), s.held = false ∧ s.mode n ≠ 0 ∧ s.modulo n ≠ 0 ∧ v.toInt < 0) :=
  ⟨
    ⟨7, State.reset, by decide +kernel⟩,
    ⟨7, readyAxis [(F.MOTn_STATUS_FAULT_LATCH 7, 1)], by decide +kernel⟩,
    ⟨7, armedAt 7, by decide +kernel⟩,
    ⟨7, (readyAxis).modAx 7 fun a => { a with stopOpen := true }, by decide +kernel⟩,
    ⟨7, -1#48, (setF [(F.MOTn_MODE_MODE 7, 1)]).putWide 48 (R.MOTn_MODULO 7) 1, by decide +kernel⟩⟩

/-- Premises of LimitsAndInputsAreTaken are met. -/
theorem witness_LimitsAndInputsAreTaken :
    (∃ (n : AxisIx) (s : State), s.held = false ∧ s.flag (F.MOTn_STATUS_LIM_P_IN n) = false ∧ s.flag (F.MOTn_STATUS_LIM_N_IN n)
      = false) ∧
    (∃ (n : AxisIx) (s : State), s.held = false ∧ s.flag (F.MOTn_STATUS_LIM_P_IN n) = true ∧ s.flag (F.MOTn_STATUS_LIM_P_LATCH
      n) = true) ∧
    (∃ (n : AxisIx) (rising : Bool) (s : State), s.held = false ∧ s.scanning = false ∧ (rising = true ∨ s.flag
      (F.MOTn_FOLLOW_CFG_EDGE n) = true)) ∧
    (∃ (n : AxisIx) (s : State), s.held = false ∧ s.flag (F.MOTn_FOLLOW_CFG_EDGE n) = false) ∧
    (∃ (n : AxisIx) (s : State), s.held = false ∧ s.scanning = false ∧ s.get (F.MOTn_LIMIT_CFG_DEBOUNCE n) ≠ 0) :=
  ⟨
    ⟨7, State.reset, by decide +kernel⟩,
    ⟨7, setF [(F.MOTn_STATUS_LIM_P_IN 7, 1), (F.MOTn_STATUS_LIM_P_LATCH 7, 1)], by decide +kernel⟩,
    ⟨7, true, State.reset, by decide +kernel⟩,
    ⟨7, State.reset, by decide +kernel⟩,
    ⟨7, setF [(F.MOTn_LIMIT_CFG_DEBOUNCE 7, 1)], by decide +kernel⟩⟩

/-- Premises of MotionWritesTakeEffect are met. -/
theorem witness_MotionWritesTakeEffect :
    (∃ (n : AxisIx) (v : BitVec 48) (s : State), s.held = false ∧ s.mode n = 0 ∧ s.armed n = true ∧ s.motionCode n (.target
      v.toInt) false = 0) ∧
    (∃ (n : AxisIx) (v : BitVec 48) (s : State), s.held = false ∧ s.armed n = false ∧ s.targetCode n v.toInt = 0) ∧
    (∃ (n : AxisIx) (v : BitVec 40) (s : State), s.held = false ∧ s.mode n = 1 ∧ s.armed n = true ∧ s.motionCode n (.vtarget
      v.toInt) false = 0) ∧
    (∃ (n : AxisIx) (s : State), s.held = false ∧ s.atRest n = true ∧ (s.ax n).cal = none ∧ s.modulo n = 0) ∧
    (∃ (n : AxisIx) (s : State), s.held = false ∧ s.atRest n = false ∧ (s.ax n).cal = none) ∧
    (∃ (n : AxisIx) (w : Word) (s : State), s.held = false ∧ bitsOf w 0 3 ≤ 3 ∧ bitsOf w 4 2 ≠ 3 ∧ s.atRest n = true ∧ bitsOf w
      0 3 ≠ s.mode n ∧ -2 ^ 47 ≤ s.pos n ∧ s.pos n < 2 ^ 47) ∧
    (∃ (n : AxisIx) (w : Word) (s : State), s.held = false ∧ bitsOf w 0 3 ≤ 3 ∧ bitsOf w 4 2 ≠ 3 ∧ 1 < s.get
      (F.MOTn_STATUS_STATE n) ∧ s.modeSame n w = false) :=
  ⟨
    ⟨7, 0, readyAxis, by decide +kernel⟩,
    ⟨7, 0, State.reset, by decide +kernel⟩,
    ⟨7, 0, readyAxis [(F.MOTn_MODE_MODE 7, 1)], by decide +kernel⟩,
    ⟨7, State.reset, by decide +kernel⟩,
    ⟨7, (armedAt 7).put (F.MOTn_STATUS_STATE 7) 2, by decide +kernel⟩,
    ⟨7, 3, State.reset, by decide +kernel⟩,
    ⟨7, 3, (armedAt 7).put (F.MOTn_STATUS_STATE 7) 2, by decide +kernel⟩⟩

/-- Premises of GearsChangeAndStop are met. -/
theorem witness_GearsChangeAndStop :
    (∃ (dir : Fin 4) (s : State), s.held = false ∧ dir.val ≤ 2) ∧
    (∃ (s : State), s.held = false) ∧
    (∃ (n : AxisIx) (s : State), s.held = false ∧ s.get (F.MOTn_GEAR_CTRL_CHG_DIR n) ≤ 2) ∧
    (∃ (i : Fin 16) (s : State) (h : Herd), s.held = false ∧ s.herds.toList[i.val]? = some h ∧ h.ok = true ∧ s.get
      (F.NET_HERDi_PARAM_HOLDOVER i) ≤ h.missed) :=
  ⟨
    ⟨2, State.reset, by decide +kernel⟩,
    ⟨State.reset, by decide +kernel⟩,
    ⟨7, State.reset, by decide +kernel⟩,
    ⟨15, State.reset.modHerd 15 fun h => { h with ok := true, missed := 255 }, { restHerd with ok := true, missed := 255 },
      by decide +kernel⟩⟩

/-- Premises of TimedCommandsTakeAndLeaveSlots are met. -/
theorem witness_TimedCommandsTakeAndLeaveSlots :
    (∃ (n : AxisIx) (w : Word) (s : State) (j : Nat), s.held = false ∧ (List.range 4).find? (fun j => !s.slotBusyT n j) = some j
      ∧ s.net.timeH < 2 * s.wide 64 (R.MOTn_TCMD_TIME n) ∧ 2 * s.wide 64 (R.MOTn_TCMD_TIME n) ≤ s.net.timeH + 2 * 3600000000000
      ∧ bitsOf w 16 16 = s.get F.NET_TIME_STATUS_EPOCH ∧ s.locked = true ∧ bitsOf w 0 8 ∈ timedCmds) ∧
    (∃ (n : AxisIx) (s : State), s.held = false ∧ (∀ j < 4, s.slotBusyT n j = true)) ∧
    (∃ (n : AxisIx) (s : State), s.held = false ∧ s.slotBusyT n 0 = false ∧ 2 * s.wide 64 (R.MOTn_TCMD_TIME n) ≤ s.net.timeH) ∧
    (∃ (n : AxisIx) (j : Fin 4) (s : State), s.held = false ∧ j.val ∈ s.dueSlots n ∧ s.get (F.MOTn_TCMD_SLOTj_CMD n j) = 3 ∧
      (s.slotOf n j).path = .host) ∧
    (∃ (n : AxisIx) (j : Fin 4) (s : State), s.held = false ∧ j.val ∈ s.dueSlots n ∧ s.get (F.MOTn_TCMD_SLOTj_CMD n j) = 0xF0 ∧
      s.mode n = 0 ∧ s.armed n = true ∧ s.motionCode n (.target (sext 48 (s.slotOf n j).arg)) false = 0 ∧ (s.slotOf n j).arg < 2
      ^ 48) ∧
    (∃ (n : AxisIx) (j : Fin 4) (s : State), s.held = false ∧ j.val ∉ s.dueSlots n) ∧
    (∃ (s : State), s.held = false) :=
  ⟨
    ⟨7, 3, (setF [(F.NET_TIME_STATUS_LOCKED, 1)]).putWide 64 (R.MOTn_TCMD_TIME 7) 3600000000000, 0, by decide +kernel⟩,
    ⟨7, setF [(F.MOTn_TCMD_SLOTj_BUSY 7 0, 1), (F.MOTn_TCMD_SLOTj_BUSY 7 1, 1), (F.MOTn_TCMD_SLOTj_BUSY 7 2, 1),
      (F.MOTn_TCMD_SLOTj_BUSY 7 3, 1)], by decide +kernel⟩,
    ⟨7, State.reset, by decide +kernel⟩,
    ⟨7, 3, setF [(F.MOTn_TCMD_SLOTj_BUSY 7 3, 1), (F.MOTn_TCMD_SLOTj_CMD 7 3, 3)], by decide +kernel⟩,
    ⟨7, 3, readyAxis [(F.MOTn_TCMD_SLOTj_BUSY 7 3, 1), (F.MOTn_TCMD_SLOTj_CMD 7 3, 0xF0)], by decide +kernel⟩,
    ⟨7, 3, State.reset, by decide +kernel⟩,
    ⟨State.reset, by decide +kernel⟩⟩

/-- Premises of HerdCommandsReachTheHerd are met. -/
theorem witness_HerdCommandsReachTheHerd :
    (∃ (s : State), s.held = false ∧ s.inRing = true) ∧
    (∃ (s : State), s.held = false ∧ s.inRing = true) ∧
    (∃ (w : Word) (s : State) (i : Nat), s.held = false ∧ s.inRing = true ∧ (s.membersOf (bitsOf w 0 8)).head? = some i ∧ s.get
      (F.NET_HERDi_STATUS_BW_EPOCH i) ≠ 0 ∧ s.hosting i = false) ∧
    (∃ (w : Word) (s : State) (i : Nat), s.held = false ∧ s.inRing = true ∧ (s.membersOf (bitsOf w 0 8)).head? = some i ∧ s.get
      (F.NET_HERDi_STATUS_BW_EPOCH i) ≠ 0 ∧ s.hosting i = true ∧ s.allReady i = false) ∧
    (∃ (s : State), s.held = false ∧ s.inRing = false) :=
  ⟨
    ⟨(setF [(F.NET_NODE_NUMBERED, 1), (F.NET_NODE_NODE, 5)]).modNet fun n => { n with cycle := some 1 }, by decide +kernel⟩,
    ⟨(setF [(F.NET_NODE_NUMBERED, 1), (F.NET_NODE_NODE, 5)]).modNet fun n => { n with cycle := some 1 }, by decide +kernel⟩,
    ⟨9, (setF [(F.NET_NODE_NUMBERED, 1), (F.NET_NODE_NODE, 5), (F.NET_HERDi_CFG_ENABLE 15, 1), (F.NET_HERDi_CFG_HERD 15, 9),
      (F.NET_HERDi_STATUS_BW_EPOCH 15, 1)]).modNet fun n => { n with cycle := some 1 }, 15, by decide +kernel⟩,
    ⟨9, (setF [(F.NET_NODE_NUMBERED, 1), (F.NET_NODE_NODE, 5), (F.NET_HERDi_CFG_ENABLE 15, 1), (F.NET_HERDi_CFG_HERD 15, 9),
      (F.NET_HERDi_STATUS_BW_EPOCH 15, 1), (F.NET_HERDi_STATUS_HOSTING 15, 1), (F.NET_HERDi_PARAM_MEMBERS 15, 1)]).modNet fun n
      => { n with cycle := some 1 }, 15, by decide +kernel⟩,
    ⟨State.reset, by decide +kernel⟩⟩

/-- Premises of BellwethersAreElected are met. -/
theorem witness_BellwethersAreElected :
    (∃ (herd : Byte) (cands : List Candidate) (c : Candidate) (e : Nat) (s : State), s.held = false ∧ s.rootHere = true ∧
      s.membersOf herd.toNat = [] ∧ s.lastEpoch herd.toNat = some e ∧ c ∈ cands ∧ c.eligible = true ∧ c.locked = true ∧ c.hosted
      < c.cap ∧ (∀ d ∈ cands, d.eligible = true → d.locked = true → d.hosted < d.cap → d ≠ c → Candidate.before c d = true ∧
      Candidate.before d c = false)) ∧
    (∃ (herd : Byte) (cands : List Candidate) (e : Nat) (s : State), s.held = false ∧ s.rootHere = true ∧ s.membersOf herd.toNat
      = [] ∧ s.lastEpoch herd.toNat = some e ∧ (∀ d ∈ cands, ¬ (d.eligible = true ∧ d.locked = true ∧ d.hosted < d.cap))) ∧
    (∃ (q : PortIx) (m : Mbx) (s : State), s.held = false ∧ Admitted (Req.withOp q m 5 s) s) ∧
    (∃ (q : PortIx) (m : Mbx) (s : State) (herd : Nat) (x : Nat) (rest : List Nat), s.held = false ∧ Admitted (Req.withOp q m 6
      s) s ∧ s.rootHere = true ∧ herd = (Req.withOp q m 6 s).word 0 % 256 ∧ s.membersOf herd = [] ∧ s.lastEpoch herd = some
      ((Req.withOp q m 6 s).word 1 % 65536) ∧ s.net.rs.elect = [(herd, x :: rest)] ∧ x ≠ (Req.withOp q m 6 s).word 0 / 65536 %
      4096) :=
  ⟨
    ⟨9, [⟨4, 0, 0, 1, true, true, 0⟩, ⟨3, 0, 0, 1, true, true, 0⟩], ⟨3, 0, 0, 1, true, true, 0⟩, 7, (setF
      [(F.NET_RING_ROOT_HERE, 1), (F.NET_NODE_NODE, 5)]).modRs fun r => { r with epochs := [(9, 7)] }, by decide +kernel⟩,
    ⟨9, [⟨4, 0, 1, 1, true, true, 0⟩], 7, (setF [(F.NET_RING_ROOT_HERE, 1), (F.NET_NODE_NODE, 5)]).modRs fun r =>
      { r with epochs := [(9, 7)] }, by decide +kernel⟩,
    ⟨2, message [], State.reset, by decide +kernel, by unfold Admitted; decide +kernel⟩,
    ⟨2, message (leBytes 4 0 ++ leBytes 4 9 ++ leBytes 4 7), (setF [(F.NET_RING_ROOT_HERE, 1), (F.NET_NODE_NODE, 5)]).modRs fun
      r => { r with epochs := [(9, 7)], elect := [(9, [8, 2])] }, 9, 8, [2], by decide +kernel,
      by unfold Admitted; decide +kernel, by decide +kernel, by decide +kernel, by decide +kernel, by decide +kernel,
      by decide +kernel, by decide +kernel⟩⟩

/-- Premises of CurrentControlEventsAct are met. -/
theorem witness_CurrentControlEventsAct :
    (∃ (n : AxisIx) (s : State), s.held = false ∧ (8 ≤ (s.ph (2 * n)).heldRun ∨ 8 ≤ (s.ph (2 * n + 1)).heldRun)) ∧
    (∃ (n : AxisIx) (p : Fin 2) (s : State), s.held = false ∧ 64 ≤ (s.ph (2 * n + p)).clipRun ∧ s.flag (satFld n p) = false) ∧
    (∃ (n : AxisIx) (p : Fin 2) (s : State), s.held = false ∧ (s.ph (2 * n + p)).clipRun < 64) ∧
    (∃ (n : AxisIx) (p : Fin 2) (s : State), s.held = false ∧ s.get (F.CURn_DIAG_CFG_OPEN_COUNT n) ≤ (s.ph (2 * n + p)).fails ∧
      s.get (phaseFld n p) ≠ 2) ∧
    (∃ (n : AxisIx) (p : Fin 2) (s : State), s.held = false ∧ s.get (phaseFld n p) = 1 ∧ (if s.get (F.CURn_DIAG_CFG_INTERVAL n)
      = 0 then s.msFrames 256 else s.msFrames (4 * s.get (F.CURn_DIAG_CFG_INTERVAL n))) ≤ (s.ph (2 * n + p)).age) ∧
    (∃ (n : AxisIx) (s : State), s.held = false ∧ s.armed n = true ∧ s.coil n = 1 ∧ (s.ax n).still = true ∧ s.msFrames (s.get
      (F.CURn_STANDSTILL_DELAY n)) ≤ (s.cur n).timer) ∧
    (∃ (n : AxisIx) (p : Fin 2) (s : State), s.held = false ∧ s.get (F.CURn_DIAG_CFG_INTERVAL n) ≠ 0 ∧ s.coilOn n = true ∧
      s.flag (settleFld n p) = false ∧ 800 ≤ s.pwmP n ∧ s.msFrames (s.get (F.CURn_DIAG_CFG_INTERVAL n)) ≤ (s.ph (2 * n +
      p)).noQual ∧ (s.ph (2 * n + p)).stretch = false ∧ (s.ph (2 * n + p)).stretchAge = 0) ∧
    (∃ (n : AxisIx) (s : State), s.held = false ∧ n.val < 2 ∧ s.armed n = false) ∧
    (∃ (n : AxisIx) (s : State), s.held = false ∧ 2 ≤ n.val) :=
  ⟨
    ⟨7, State.reset.modPh 15 fun p => { p with heldRun := 8 }, by decide +kernel⟩,
    ⟨7, 1, State.reset.modPh 15 fun p => { p with clipRun := 64 }, by decide +kernel⟩,
    ⟨7, 1, State.reset.modPh 15 fun p => { p with clipRun := 63 }, by decide +kernel⟩,
    ⟨7, 1, State.reset.modPh 15 fun p => { p with fails := 255 }, by decide +kernel⟩,
    ⟨7, 1, (setF [(F.CURn_STATUS_PHASE_B 7, 1)]).modPh 15 fun p => { p with age := 1000000 }, by decide +kernel⟩,
    ⟨7, ((armedAt 7 (setF [(F.CURn_STATUS_COIL_STATE 7, 1)])).modAx 7 fun a => { a with still := true }).modCur 7 fun c =>
      { c with timer := 10000000 }, by decide +kernel⟩,
    ⟨7, 1, (setF [(F.CURn_STATUS_COIL_STATE 7, 1), (F.CURn_DIAG_CFG_INTERVAL 7, 1)]).modPh 15 fun p => { p with noQual := 40 },
      by decide +kernel⟩,
    ⟨1, State.reset, by decide +kernel⟩,
    ⟨2, State.reset, by decide +kernel⟩⟩

/-- Premises of CommutationIsCalibrated are met. -/
theorem witness_CommutationIsCalibrated :
    (∃ (s : State), s.held = false) ∧
    (∃ (n : AxisIx) (w : Word) (s : State), s.held = false ∧ s.armed n = false ∧ w ≠ 0 ∧ w ≠ 0x80000000 ∧ w ≠ s.rd
      (R.CURn_ENC_NUM n)) ∧
    (∃ (p : Path) (n : AxisIx) (w : Word) (s : State), s.held = false ∧ s.armed n = true ∧ p ≠ .image ∧ w ≠ s.rd (R.CURn_ENC_DEN
      n)) ∧
    (∃ (n : AxisIx) (w : Word) (s : State), s.held = false ∧ bitsOf w 0 2 = 1 ∧ s.flag (F.CURn_STATUS_CAL_OK n) = false) ∧
    (∃ (n : AxisIx) (s : State) (k : EncCal) (m : Int) (i : Nat), s.held = false ∧ (s.ax n).cal = some k ∧ 2 * encCalHalf ≤
      k.ran ∧ k.turn = some m ∧ 16128 ≤ m ∧ m ≤ 16640 ∧ k.hi - k.lo ≤ 2048 ∧ s.findAct 10 n = some i ∧ i < 16) ∧
    (∃ (n : AxisIx) (s : State) (k : EncCal), s.held = false ∧ (s.ax n).cal = some k ∧ 2 * encCalHalf ≤ k.ran ∧ k.turn = none) :=
  ⟨
    ⟨State.reset, by decide +kernel⟩,
    ⟨7, 5, State.reset, by decide +kernel⟩,
    ⟨.host, 7, 5, armedAt 7, by decide +kernel⟩,
    ⟨7, 1, State.reset, by decide +kernel⟩,
    ⟨7, ((running 10 7).modAx 7 fun a => { a with cal := some ⟨0, 3200000000, 0, 1, 0, 2048, 0, some 16128⟩ }), ⟨0, 3200000000,
      0, 1, 0, 2048, 0, some 16128⟩, 16128, 15, by decide +kernel⟩,
    ⟨7, State.reset.modAx 7 fun a => { a with cal := some ⟨0, 3200000000, 0, 1, 0, 0, 0, none⟩ }, ⟨0, 3200000000, 0, 1, 0, 0, 0,
      none⟩, by decide +kernel⟩⟩

/-- Premises of CommitsWaitForTheBoundary are met. -/
theorem witness_CommitsWaitForTheBoundary :
    (∃ (s : State), s.held = false) ∧
    (∃ (k : BridgeIx) (cyc : Nat) (s : State), s.held = false ∧ s.armed (k / 4) = false ∧ cyc + 8 ≤ s.pwmP (k / 4)) ∧
    (∃ (k : BridgeIx) (cyc : Nat) (s : State), s.held = false ∧ s.armed (k / 4) = false ∧ s.pwmP (k / 4) < cyc + 8) ∧
    (∃ (k : BridgeIx) (s : State), s.held = false ∧ s.armed (k / 4) = true) ∧
    (∃ (a : AuxIx) (cyc : Nat) (s : State), s.held = false ∧ cyc + 8 ≤ s.pwmP (s.get (F.PWM_AUXa_CFG_SYNC_AXIS a))) :=
  ⟨
    ⟨State.reset, by decide +kernel⟩,
    ⟨31, 9992, State.reset, by decide +kernel⟩,
    ⟨31, 9993, State.reset, by decide +kernel⟩,
    ⟨31, armedAt 7, by decide +kernel⟩,
    ⟨7, 9992, State.reset, by decide +kernel⟩⟩

/-- Premises of ForcesTakeTheChannel are met. -/
theorem witness_ForcesTakeTheChannel :
    (∃ (k : BridgeIx) (w : Word) (s : State), s.held = false ∧ bitsOf w 0 2 ≠ 0 ∧ s.armed (k / 4) = false ∧ s.shortLatched (k /
      4) = false ∧ s.latched (k / 4) = false) ∧
    (∃ (w : Word) (s : State), s.held = false ∧ bitsOf w 0 2 = 0) ∧
    (∃ (k : BridgeIx) (w : Word) (s : State), s.held = false ∧ Quiet s ∧ bitsOf w 0 2 ≠ 0 ∧ (s.armed (k / 4) = true ∨ s.latched
      (k / 4) = true)) :=
  ⟨
    ⟨31, 3, State.reset, by decide +kernel⟩,
    ⟨0, State.reset, by decide +kernel⟩,
    ⟨31, 1, armedAt 7, by decide +kernel, quiet_of _ (by decide +kernel) (by decide +kernel), by decide +kernel,
      by decide +kernel⟩⟩

/-- Premises of FaultLatchesHoldTheirCause are met. -/
theorem witness_FaultLatchesHoldTheirCause :
    (∃ (n : AxisIx) (c : Fin 8) (s : State), s.held = false ∧ s.latched n = false ∧ c ≠ 0) ∧
    (∃ (n : AxisIx) (c : Fin 8) (s : State), s.held = false ∧ s.latched n = true ∧ c ≠ 0) ∧
    (∃ (s : State), s.held = false) ∧
    (∃ (s : State), s.held = false ∧ (∀ k, s.routesTo k = [])) :=
  ⟨
    ⟨7, 1, State.reset, by decide +kernel⟩,
    ⟨7, 7, setF [(⟨R.PWM_FAULT_LATCH, 7, 1⟩, 1)], by decide +kernel⟩,
    ⟨State.reset, by decide +kernel⟩,
    ⟨State.reset, by decide +kernel, routes_of _ (by decide +kernel)⟩⟩

/-- Premises of AuxOutputsAndTimers are met. -/
theorem witness_AuxOutputsAndTimers :
    (∃ (a : AuxIx) (s : State), s.held = false ∧ Quiet s ∧ s.get (F.PWM_AUXa_CFG_MODE a) = 2) ∧
    (∃ (a : AuxIx) (s : State), s.held = false ∧ s.get (F.PWM_AUXa_CFG_MODE a) = 1 ∧ (s.axu a).changing = false) ∧
    (∃ (u : Fin 16) (s : State), s.held = false ∧ s.flag (F.PWM_EVTu_CFG_ZERO_EN u) = true ∧ s.timers.toList.getD u 0 = 0) :=
  ⟨
    ⟨7, setF [(F.PWM_AUXa_CFG_MODE 7, 2)], by decide +kernel, quiet_of _ (by decide +kernel) (by decide +kernel),
      by decide +kernel⟩,
    ⟨7, setF [(F.PWM_AUXa_CFG_MODE 7, 1)], by decide +kernel⟩,
    ⟨15, setF [(F.PWM_EVTu_CFG_ZERO_EN 15, 1)], by decide +kernel⟩⟩

/-- Premises of DemandEdgesFollowThePattern are met. -/
theorem witness_DemandEdgesFollowThePattern :
    (∃ (k : BridgeIx) (s : State), s.held = false ∧ Quiet s ∧ s.chanState k = 4) ∧
    (∃ (k : BridgeIx) (s : State), s.held = false ∧ s.chanState k ≠ 4 ∧ Quiet s) :=
  ⟨
    ⟨31, drivenState, by decide +kernel, quiet_of _ (by decide +kernel) (by decide +kernel), by decide +kernel⟩,
    ⟨31, State.reset, by decide +kernel, by decide +kernel, quiet_of _ (by decide +kernel) (by decide +kernel)⟩⟩

/-- Premises of HandshakeTurnsGatesOn are met. -/
theorem witness_HandshakeTurnsGatesOn :
    (∃ (k : BridgeIx) (dt : Nat) (s : State), s.held = false ∧ Quiet s ∧ (s.br k).wait = some true ∧ (s.br k).lsLow = true ∧
      (s.br k).lsOn = false ∧ s.deadUnits k true ≤ dt ∧ s.gateWant k true = true) ∧
    (∃ (k : BridgeIx) (dt : Nat) (s : State), s.held = false ∧ Quiet s ∧ (s.br k).wait = some false ∧ (s.br k).hsLow = true ∧
      (s.br k).hsOn = false ∧ s.deadUnits k false ≤ dt ∧ s.gateWant k false = true) ∧
    (∃ (k : BridgeIx) (s : State), (s.br k).hsOn = false ∧ (s.br k).lsLow = false) ∧
    (∃ (k : BridgeIx) (s : State), (s.br k).hsOn = false) ∧
    (∃ (k : BridgeIx) (s : State), s.held = false ∧ (s.br k).wait = some true ∧ (s.br k).lsLow = false) :=
  ⟨
    ⟨31, 1020, (setF [(F.GDR_STATUS_DRV_EN, 1), (F.SUP_STATUS_STATE, 2), (F.GDR_STATUS_VGRD_OK, 1), (F.GDR_STATUS_VDRV_OK, 1),
      (⟨R.PWMk_FORCE 31, 0, 2⟩, 3)]).modBr 31 fun b => { b with wait := some true, h := true }, by decide +kernel, quiet_of _
      (by decide +kernel) (by decide +kernel), by decide +kernel, by decide +kernel, by decide +kernel, by decide +kernel,
      by decide +kernel⟩,
    ⟨31, 1020, (setF [(F.GDR_STATUS_DRV_EN, 1), (F.SUP_STATUS_STATE, 2), (F.GDR_STATUS_VGRD_OK, 1), (F.GDR_STATUS_VDRV_OK, 1),
      (⟨R.PWMk_FORCE 31, 0, 2⟩, 2)]).modBr 31 fun b => { b with wait := some false, l := true }, by decide +kernel, quiet_of _
      (by decide +kernel) (by decide +kernel), by decide +kernel, by decide +kernel, by decide +kernel, by decide +kernel,
      by decide +kernel⟩,
    ⟨31, State.reset.modBr 31 fun b => { b with lsLow := false }, by decide +kernel⟩,
    ⟨31, State.reset, by decide +kernel⟩,
    ⟨31, State.reset.modBr 31 fun b => { b with wait := some true, lsLow := false }, by decide +kernel⟩⟩

/-- Premises of GateMonitorsAct are met. -/
theorem witness_GateMonitorsAct :
    (∃ (k : BridgeIx) (s : State), s.held = false ∧ (s.br k).h = true ∧ (s.br k).uv = false) ∧
    (∃ (s : State), s.held = false) ∧
    (∃ (k : BridgeIx) (s : State), s.held = false ∧ (s.br k).hsOn = true ∧ s.sinkLevel (0x240 + 2 * k) = false ∧ s.get
      (F.GDRk_VDS_TH_H k) ≠ 0) ∧
    (∃ (k : BridgeIx) (s : State), s.held = false ∧ (s.br k).lsOn = true ∧ s.sinkLevel (0x241 + 2 * k) = false ∧ s.get
      (F.GDRk_VDS_TH_L k) ≠ 0 ∧ s.shortLatched (k / 4) = true) ∧
    (∃ (s : State), s.held = false) :=
  ⟨
    ⟨31, State.reset.modBr 31 fun b => { b with h := true }, by decide +kernel⟩,
    ⟨State.reset, by decide +kernel⟩,
    ⟨31, (setF [(F.GDRk_VDS_TH_H 31, 1)]).modBr 31 fun b => { b with hsOn := true }, by decide +kernel⟩,
    ⟨7, (setF [(F.GDRk_VDS_TH_L 7, 1), (F.CURn_GUARD_SHORT_LATCHED 1, 1)]).modBr 7 fun b => { b with lsOn := true },
      by decide +kernel⟩,
    ⟨State.reset, by decide +kernel⟩⟩

/-- Premises of GatePinsAndTripsAct are met. -/
theorem witness_GatePinsAndTripsAct :
    (∃ (s : State), s.held = false ∧ s.flag F.GDR_STATUS_DRV_EN = true) ∧
    (∃ (s : State), s.held = false ∧ s.flag F.GDR_STATUS_DRV_EN = false) ∧
    (∃ (s : State), s.held = true) ∧
    (∃ (s : State), s.held = false ∧ s.flag F.GDR_STATUS_FAULT_N = true) ∧
    (∃ (s : State), s.held = false) ∧
    (∃ (s : State), s.held = false) ∧
    (∃ (w : Word) (s : State), s.held = false ∧ w.getLsbD 1 = true) :=
  ⟨
    ⟨setF [(F.GDR_STATUS_DRV_EN, 1)], by decide +kernel⟩,
    ⟨State.reset, by decide +kernel⟩,
    ⟨{ State.reset with held := true }, by decide +kernel⟩,
    ⟨State.reset, by decide +kernel⟩,
    ⟨State.reset, by decide +kernel⟩,
    ⟨State.reset, by decide +kernel⟩,
    ⟨2, State.reset, by decide +kernel⟩⟩

/-- Premises of EveryStepKeepsTheBridgesSafe are met. -/
theorem witness_EveryStepKeepsTheBridgesSafe :
    ∃ (s : State) (t : State), SMap.wf resetWord s.regs = true ∧ NoShootThrough s ∧ step s = .next t :=
  ⟨{ State.reset with pending := [.bootLoad] }, _, by decide +kernel, by unfold NoShootThrough; decide +kernel, rfl⟩

/-- Premises of FastOutputsAreCorrectedAndWindowed are met. -/
theorem witness_FastOutputsAreCorrectedAndWindowed :
    (∃ (c : SenseIx) (raw : Int) (s : State), s.held = false ∧ c.val < 16 ∧ (s.ch c).median = 0 ∧ s.get (F.CSAs_STATUS_FAST_LEFT
      c) = 0 ∧ s.anaOk = true ∧ satS 24 raw = raw ∧ s.cmOut c = false) ∧
    (∃ (c : SenseIx) (s : State), s.held = false ∧ c.val < 16 ∧ s.get (F.CSAs_STATUS_FAST_LEFT c) ≠ 0) :=
  ⟨
    ⟨15, 8388607, setF [(F.CSA_STATUS_ANA_OK, 1)], by decide +kernel⟩,
    ⟨15, setF [(F.CSAs_STATUS_FAST_LEFT 15, 1)], by decide +kernel⟩⟩

/-- Premises of SenseSettingsWaitForTheirFrame are met. -/
theorem witness_SenseSettingsWaitForTheirFrame :
    (∃ (c : SenseIx) (s : State), s.held = false ∧ c.val < 16 ∧ s.flag (F.CSAs_STATUS_CM_OUT c) = false) ∧
    (∃ (c : SenseIx) (s : State), s.held = false ∧ c.val < 16) ∧
    (∃ (c : SenseIx) (w : Word) (s : State), s.held = false ∧ bitsOf w 10 2 ≠ 3 ∧ bitsOf w 0 2 ≠ 3 ∧ s.chanClaimed c = false ∧
      s.armed (chanAxis c) = false ∧ bitsOf w 0 2 ≠ s.rangeNow c) ∧
    (∃ (p : Path) (c : SenseIx) (w : Word) (s : State), s.held = false ∧ s.armed (chanAxis c) = true ∧ p ≠ .image ∧ bitsOf w 6 2
      ≠ s.get (F.CSAs_CFG_INPUT c)) ∧
    (∃ (s : State), s.held = false) ∧
    (∃ (s : State), s.held = false ∧ s.anaOk = false) ∧
    (∃ (s : State), s.held = false ∧ s.anaOk = true) :=
  ⟨
    ⟨15, State.reset, by decide +kernel⟩,
    ⟨15, State.reset, by decide +kernel⟩,
    ⟨31, 1, State.reset, by decide +kernel⟩,
    ⟨.host, 31, 0x40, armedAt 7, by decide +kernel⟩,
    ⟨State.reset, by decide +kernel⟩,
    ⟨State.reset, by decide +kernel⟩,
    ⟨setF [(F.CSA_STATUS_ANA_OK, 1)], by decide +kernel⟩⟩

/-- Premises of EstimatesAndOffsetsAreStored are met. -/
theorem witness_EstimatesAndOffsetsAreStored :
    (∃ (c : SenseIx) (w : Word) (s : State), s.held = false ∧ 16 ≤ c.val ∧ s.armed (chanAxis c) = false ∧ -(s.estLimit (chanAxis
      c)) ≤ sext 24 (bitsOf w 0 24) * 65536 ∧ sext 24 (bitsOf w 0 24) * 65536 ≤ s.estLimit (chanAxis c)) ∧
    (∃ (c : SenseIx) (w : Word) (s : State), s.held = false ∧ 16 ≤ c.val ∧ s.armed (chanAxis c) = false ∧ s.estLimit (chanAxis
      c) < sext 24 (bitsOf w 0 24) * 65536) ∧
    (∃ (c : SenseIx) (s : State) (k : OffCal), s.held = false ∧ (s.ch c).cal = some k ∧ k.zero = true ∧ s.calCount ≤ k.cnt ∧
      k.bad = false ∧ -2 ^ 23 ≤ convDiv k.sum k.cnt ∧ convDiv k.sum k.cnt < 2 ^ 23) ∧
    (∃ (c : SenseIx) (s : State) (k : OffCal), s.held = false ∧ (s.ch c).cal = some k ∧ k.zero = true ∧ s.calCount ≤ k.cnt ∧
      k.bad = true) :=
  ⟨
    ⟨31, 0x1FFFF, State.reset, by decide +kernel⟩,
    ⟨31, 0x7FFFFF, State.reset, by decide +kernel⟩,
    ⟨31, State.reset.modCh 31 fun c => { c with cal := some ⟨true, 1677721400, 200, false⟩ }, ⟨true, 1677721400, 200, false⟩,
      by decide +kernel⟩,
    ⟨31, State.reset.modCh 31 fun c => { c with cal := some ⟨true, 0, 200, true⟩ }, ⟨true, 0, 200, true⟩, by decide +kernel⟩⟩

/-- Premises of QuadratureCounts are met. -/
theorem witness_QuadratureCounts :
    (∃ (n : AxisIx) (s : State), s.held = false ∧ s.scanning = false ∧ s.fbMode n = 1 ∧ (s.fb n).ab = (false, false) ∧ s.get
      (F.FBKn_CFG_QUAD_X n) = 0 ∧ s.flag (F.FBKn_CFG_HYST_EN n) = false) ∧
    (∃ (n : AxisIx) (s : State), s.held = false ∧ s.scanning = false ∧ s.fbMode n = 1 ∧ (s.fb n).ab = (true, false) ∧ s.get
      (F.FBKn_CFG_QUAD_X n) = 0 ∧ s.flag (F.FBKn_CFG_HYST_EN n) = false) ∧
    (∃ (n : AxisIx) (s : State), s.held = false ∧ s.scanning = false ∧ s.fbMode n = 1 ∧ (s.fb n).ab = (false, false) ∧ s.flag
      ⟨R.FBKn_FAULT_MASK n, 0, 1⟩ = true) ∧
    (∃ (n : AxisIx) (cyc : Nat) (s : State), s.held = false ∧ s.scanning = false ∧ s.fbMode n = 1 ∧ cyc < 65536 ∧ s.get
      (F.FBKn_INDEX_CHK_PERIOD n) = 0) :=
  ⟨
    ⟨7, setF [(F.FBKn_CFG_MODE 7, 1), (F.FBKn_CFG_QUAD_X 7, 0), (F.FBKn_CFG_HYST_EN 7, 0)], by decide +kernel⟩,
    ⟨7, (setF [(F.FBKn_CFG_MODE 7, 1), (F.FBKn_CFG_QUAD_X 7, 0), (F.FBKn_CFG_HYST_EN 7, 0)]).modFb 7 fun f =>
      { f with ab := (true, false) }, by decide +kernel⟩,
    ⟨7, setF [(F.FBKn_CFG_MODE 7, 1), (F.FBKn_CFG_QUAD_X 7, 0), (F.FBKn_CFG_HYST_EN 7, 0), (⟨R.FBKn_FAULT_MASK 7, 0, 1⟩, 1)],
      by decide +kernel⟩,
    ⟨7, 39999, setF [(F.FBKn_CFG_MODE 7, 1), (F.FBKn_CFG_QUAD_X 7, 0), (F.FBKn_CFG_HYST_EN 7, 0)], by decide +kernel⟩⟩

/-- Premises of DecodersTakeTheirSignals are met. -/
theorem witness_DecodersTakeTheirSignals :
    (∃ (n : AxisIx) (s : State), s.held = false ∧ s.fbMode n = 2 ∧ 8 ≤ (s.fb n).idleFrames ∧ (s.fb n).conds.testBit 11 = false ∧
      s.flag ⟨R.FBKn_FAULT_MASK n, 11, 1⟩ = true) ∧
    (∃ (n : AxisIx) (s : State), s.held = false ∧ s.fbMode n = 2 ∧ s.get (F.FBKn_CFG_AMP_CNT n) ≤ (s.fb n).ampRun ∧ s.flag
      (F.FBKn_STATUS_AMP_BAD n) = false ∧ (s.fb n).conds.testBit 3 = false) ∧
    (∃ (n : AxisIx) (s : State), s.held = false ∧ s.scanning = false ∧ s.fbMode n = 3 ∧ (s.fb n).sector = some 0 ∧ s.flag
      (F.FBKn_CFG_HYST_EN n) = false) ∧
    (∃ (n : AxisIx) (s : State), s.held = false ∧ s.scanning = false ∧ s.fbMode n = 3) ∧
    (∃ (n : AxisIx) (s : State), s.held = false ∧ s.fbMode n = 3 ∧ s.get (F.FBKn_STATUS_HALL_SECTOR n) = 7 ∧ (s.fb
      n).conds.testBit 4 = false) ∧
    (∃ (n : AxisIx) (x : Nat) (s : State), s.held = false ∧ (s.fb n).transfer = some x ∧ s.fbMode n = 4) ∧
    (∃ (n : AxisIx) (bits : List Bool) (x : Nat) (s : State), s.held = false ∧ (s.fb n).transfer = some x ∧ s.fbMode n = 4 ∧
      s.rd (R.FBKn_SSI_CFG n) = 24 ∧ s.get (F.FBKn_SSI_JUMP_LIMIT n) = 0 ∧ s.flag (F.FBKn_CFG_HYST_EN n) = false ∧ bits.length =
      24 ∧ (s.fb n).offset = 0) :=
  ⟨
    ⟨7, (setF [(F.FBKn_CFG_MODE 7, 2), (⟨R.FBKn_FAULT_MASK 7, 11, 1⟩, 1)]).modFb 7 fun f => { f with idleFrames := 8 },
      by decide +kernel⟩,
    ⟨7, (setF [(F.FBKn_CFG_MODE 7, 2)]).modFb 7 fun f => { f with ampRun := 255 }, by decide +kernel⟩,
    ⟨7, (setF [(F.FBKn_CFG_MODE 7, 3), (F.FBKn_CFG_HYST_EN 7, 0)]).modFb 7 fun f => { f with sector := some 0 },
      by decide +kernel⟩,
    ⟨7, (setF [(F.FBKn_CFG_MODE 7, 3), (F.FBKn_CFG_HYST_EN 7, 0)]), by decide +kernel⟩,
    ⟨7, setF [(F.FBKn_CFG_MODE 7, 3), (F.FBKn_STATUS_HALL_SECTOR 7, 7)], by decide +kernel⟩,
    ⟨7, 0, (setF [(F.FBKn_CFG_MODE 7, 4), (F.FBKn_CFG_HYST_EN 7, 0), (⟨R.FBKn_SSI_CFG 7, 0, 32⟩, 24)]).modFb 7 fun f =>
      { f with transfer := some 0 }, by decide +kernel⟩,
    ⟨7, List.replicate 24 true, 0, (setF [(F.FBKn_CFG_MODE 7, 4), (F.FBKn_CFG_HYST_EN 7, 0), (⟨R.FBKn_SSI_CFG 7, 0, 32⟩,
      24)]).modFb 7 fun f => { f with transfer := some 0 }, by decide +kernel⟩⟩

/-- Premises of PositionsAndReferencesAreSet are met. -/
theorem witness_PositionsAndReferencesAreSet :
    (∃ (n : AxisIx) (s : State), s.held = false ∧ s.fbClaimed n = false ∧ s.atRest n = true) ∧
    (∃ (n : AxisIx) (s : State), s.held = false ∧ s.atRest n = false) ∧
    (∃ (n : AxisIx) (w : Word) (s : State), s.held = false ∧ bitsOf w 0 3 = 0 ∧ bitsOf w 6 2 ≠ 3 ∧ bitsOf w 24 8 ≠ 0 ∧
      s.fbClaimed n = false ∧ s.armed n = false) ∧
    (∃ (n : AxisIx) (s : State), s.held = false ∧ (s.fb n).hist = [] ∧ s.flag (F.FBKn_STATUS_STANDSTILL n) = false) ∧
    (∃ (n : AxisIx) (w : Word) (b : Fin 12) (s : State), s.held = false ∧ s.get (F.FBKn_FAULT_FAULTS n) = 2 ^ b.val ∧ w.getLsbD
      b = true ∧ (s.fb n).conds.testBit b = false) ∧
    (∃ (n : AxisIx) (b : Fin 12) (s : State), s.held = false ∧ s.get (F.FBKn_FAULT_FAULTS n) = 2 ^ b.val ∧ (s.fb
      n).conds.testBit b = true) ∧
    (∃ (n : AxisIx) (w : Word) (s : State), s.held = false ∧ bitsOf w 0 8 ≠ 0 ∧ bitsOf w 27 1 = 1 ∧ s.atRest n = true ∧ s.armed
      n = false) ∧
    (∃ (n : AxisIx) (w : Word) (s : State), s.held = false ∧ bitsOf w 27 1 = 1 ∧ s.atRest n = false) ∧
    (∃ (w : Word) (s : State), s.held = false ∧ bitsOf w 0 16 ≠ 0) ∧
    (∃ (w : Word) (s : State), s.held = false ∧ bitsOf w 0 16 = 0) :=
  ⟨
    ⟨7, State.reset, by decide +kernel⟩,
    ⟨7, (armedAt 7).put (F.MOTn_STATUS_STATE 7) 2, by decide +kernel⟩,
    ⟨7, 0x01000000, State.reset, by decide +kernel⟩,
    ⟨7, State.reset, by decide +kernel⟩,
    ⟨7, 0x800, 11, setF [(F.FBKn_FAULT_FAULTS 7, 0x800)], by decide +kernel⟩,
    ⟨7, 11, (setF [(F.FBKn_FAULT_FAULTS 7, 0x800)]).modFb 7 fun f => { f with conds := 0x800 }, by decide +kernel⟩,
    ⟨7, 0x08000001, State.reset, by decide +kernel⟩,
    ⟨7, 0x08000000, (armedAt 7).put (F.MOTn_STATUS_STATE 7) 2, by decide +kernel⟩,
    ⟨1, State.reset, by decide +kernel⟩,
    ⟨0, State.reset, by decide +kernel⟩⟩

/-- Premises of ScansStartPendAndStop are met. -/
theorem witness_ScansStartPendAndStop :
    (∃ (s : State) (e : Nat) (rest : List Nat), s.held = false ∧ s.get F.PMC_SCAN_CFG_MODE = 0 ∧ s.pmc.a = none ∧ maskEntries
      (s.rd R.PMC_SCAN_MASK) = e :: rest) ∧
    (∃ (s : State), s.held = false ∧ s.get F.PMC_SCAN_CFG_MODE = 0 ∧ s.pmc.a.isSome = true ∧ s.flag F.PMC_STATUS_PEND = false) ∧
    (∃ (s : State), s.held = false ∧ s.get F.PMC_SCAN_CFG_MODE = 0 ∧ s.pmc.a.isSome = true ∧ s.flag F.PMC_STATUS_PEND = true) ∧
    (∃ (s : State) (e : Nat) (rest : List Nat), s.held = false ∧ s.flag F.PMC_STATUS_RUN = false ∧ s.get F.PMC_SCAN_CFG_MODE = 0
      ∧ s.pmc.a = none ∧ maskEntries (s.rd R.PMC_SCAN_MASK) = e :: rest) ∧
    (∃ (s : State), s.held = false ∧ s.flag F.PMC_STATUS_RUN = false ∧ s.get F.PMC_SCAN_CFG_MODE = 2) ∧
    (∃ (s : State), s.held = false ∧ s.flag F.PMC_STATUS_RUN = true) ∧
    (∃ (s : State), s.held = false) ∧
    (∃ (s : State) (e : Nat) (rest : List Nat), s.held = false ∧ s.pmc.a = none ∧ maskEntries (s.rd R.PMC_URG_MASK) = e :: rest) ∧
    (∃ (s : State) (e : Nat) (rest : List Nat), s.held = false ∧ s.pmc.a = none ∧ maskEntries (s.rd R.PMC_URG_MASK) = e :: rest) ∧
    (∃ (s : State), s.held = false ∧ s.pmc.a.isSome = true) :=
  ⟨
    ⟨setF [(⟨R.PMC_SCAN_MASK, 31, 1⟩, 1)], 31, [], by decide +kernel⟩,
    ⟨{ State.reset with pmc := { State.reset.pmc with a := some ⟨.scan [], 0, 0, 1, false⟩ } }, by decide +kernel⟩,
    ⟨{ setF [(F.PMC_STATUS_PEND, 1)] with pmc := { State.reset.pmc with a := some ⟨.scan [], 0, 0, 1, false⟩ } },
      by decide +kernel⟩,
    ⟨setF [(⟨R.PMC_SCAN_MASK, 31, 1⟩, 1)], 31, [], by decide +kernel⟩,
    ⟨setF [(F.PMC_SCAN_CFG_MODE, 2)], by decide +kernel⟩,
    ⟨setF [(F.PMC_STATUS_RUN, 1)], by decide +kernel⟩,
    ⟨State.reset, by decide +kernel⟩,
    ⟨setF [(⟨R.PMC_URG_MASK, 31, 1⟩, 1)], 31, [], by decide +kernel⟩,
    ⟨setF [(⟨R.PMC_URG_MASK, 0, 1⟩, 1)], 0, [], by decide +kernel⟩,
    ⟨{ State.reset with pmc := { State.reset.pmc with a := some ⟨.scan [], 0, 0, 1, false⟩ } }, by decide +kernel⟩⟩

/-- Premises of ConversionsShowTheirResult are met. -/
theorem witness_ConversionsShowTheirResult :
    (∃ (x : Int) (s : State) (c : Conv) (e : Nat) (rest : List Nat), s.held = false ∧ s.pmc.a = some c ∧ c.kind = .scan (e ::
      rest) ∧ c.entry < 32 ∧ bitsOf c.cfg 12 2 = 0 ∧ satS 24 x = x ∧ s.anaOk = true) ∧
    (∃ (s : State) (c : Conv), s.held = false ∧ s.pmc.a = some c ∧ c.kind = .scan []) ∧
    (∃ (s : State), s.held = false ∧ s.pmc.a = none) ∧
    (∃ (s : State), s.held = false ∧ s.interleaving = true ∧ s.pmc.a.isSome = true ∧ s.pmc.b = none ∧ s.pmcbClaimed = false) ∧
    (∃ (e : EntryIx) (w : Word) (s : State), s.held = false ∧ bitsOf w 18 2 ≠ 3 ∧ bitsOf w 12 2 = 0 ∧ e.val < 16 ∧ bitsOf w 4 1
      = 0 ∧ w &&& 0xF3717 ≠ s.rd (R.PMC_CFGe e)) ∧
    (∃ (w : Word) (s : State), s.held = false ∧ bitsOf w 12 2 = 3) :=
  ⟨
    ⟨-8388608, { setF [(F.CSA_STATUS_ANA_OK, 1)] with pmc := { State.reset.pmc with a := some ⟨.scan [5], 31, 0, 1, false⟩ } },
      ⟨.scan [5], 31, 0, 1, false⟩, 5, [], by decide +kernel⟩,
    ⟨{ State.reset with pmc := { State.reset.pmc with a := some ⟨.scan [], 0, 0, 1, false⟩ } }, ⟨.scan [], 0, 0, 1, false⟩,
      by decide +kernel⟩,
    ⟨State.reset, by decide +kernel⟩,
    ⟨{ setF [(F.PMC_STATUS_RUN, 1), (F.PMC_SCAN_CFG_MODE, 3)] with pmc := { State.reset.pmc with a := some ⟨.interleave, 0, 0, 1, false⟩ } },
      by decide +kernel⟩,
    ⟨15, 1, State.reset, by decide +kernel⟩,
    ⟨0x3000, State.reset, by decide +kernel⟩⟩

/-- Premises of ReferencesAreCrossChecked are met. -/
theorem witness_ReferencesAreCrossChecked :
    (∃ (s : State), s.held = false ∧ s.flag F.PMC_REF_CFG_BUF_EN = true ∧ s.flag F.PMC_STATUS_REF_READY = false) ∧
    (∃ (w : Word) (s : State), s.held = false ∧ bitsOf w 4 2 ≠ 3 ∧ bitsOf (s.rd R.PMC_REF_STATUS) (8 + bitsOf w 4 2) 1 = 0 ∧
      bitsOf w 8 1 = s.get F.PMC_REF_CFG_EXT ∧ bitsOf w 4 2 ≠ s.get F.PMC_REF_CFG_SEL) ∧
    (∃ (w : Word) (s : State), s.held = false ∧ bitsOf (s.rd R.PMC_REF_STATUS) (8 + bitsOf w 4 2) 1 = 1) ∧
    (∃ (ab : Nat) (ac : Nat) (bc : Nat) (s : State) (i : Nat), s.held = false ∧ s.findAct 4 0 = some i ∧ ab ≤ 1000000 ∧ ac ≤
      1000000 ∧ bc ≤ 1000000) ∧
    (∃ (ab : Nat) (ac : Nat) (bc : Nat) (s : State) (i : Nat), s.held = false ∧ s.findAct 4 0 = some i ∧ 2500000 < ab ∧ 2500000
      < ac ∧ 2500000 < bc) ∧
    (∃ (ab : Nat) (ac : Nat) (bc : Nat) (s : State) (i : Nat), s.held = false ∧ s.findAct 4 0 = some i ∧ 2500000 < ab ∧ ac ≤
      2500000 ∧ 2500000 < bc ∧ s.get F.PMC_REF_CFG_SEL = 0) ∧
    (∃ (s : State), s.held = false ∧ (∀ i < 3, s.pmc.pairs.toList.getD i false = false)) ∧
    (∃ (s : State), s.held = false ∧ (∀ i < 3, s.pmc.pairs.toList.getD i false = true)) :=
  ⟨
    ⟨setF [(F.PMC_REF_CFG_BUF_EN, 1)], by decide +kernel⟩,
    ⟨0x10, State.reset, by decide +kernel⟩,
    ⟨0x20, setF [(⟨R.PMC_REF_STATUS, 10, 1⟩, 1)], by decide +kernel⟩,
    ⟨1000000, 1000000, 1000000, running 4 0, 15, by decide +kernel⟩,
    ⟨2500001, 2500001, 2500001, running 4 0, 15, by decide +kernel⟩,
    ⟨2500001, 2500000, 2500001, running 4 0, 15, by decide +kernel⟩,
    ⟨State.reset, by decide +kernel⟩,
    ⟨{ State.reset with pmc := { State.reset.pmc with pairs := Vector.replicate 3 true } }, by decide +kernel⟩⟩

/-- Premises of ComparatorsTripAndRelease are met. -/
theorem witness_ComparatorsTripAndRelease :
    (∃ (c : CmpIx) (s : State), s.held = false ∧ s.flag (F.CMPc_CFG_EN c) = true ∧ s.cmp.ready = true ∧ s.cmp.saved = [] ∧
      s.cmp.hold = [] ∧ (∀ k, s.routesTo k = []) ∧ s.flag (F.CMPc_STATUS_OUT c) = false) ∧
    (∃ (c : CmpIx) (s : State), s.held = false ∧ s.flag (F.CMPc_CFG_EN c) = false) ∧
    (∃ (s : State), s.held = false ∧ s.cmp.hold = []) ∧
    (∃ (s : State), s.held = false ∧ s.anaOk = true) ∧
    (∃ (s : State), s.held = false ∧ s.anaOk = false) :=
  ⟨
    ⟨39, { setF [(F.CMPc_CFG_EN 39, 1)] with cmp := ⟨true, [], [], false⟩ }, by decide +kernel, by decide +kernel,
      by decide +kernel, by decide +kernel, by decide +kernel, routes_of _ (by decide +kernel), by decide +kernel⟩,
    ⟨39, setF [(F.CMPc_CFG_EN 39, 0)], by decide +kernel⟩,
    ⟨State.reset, by decide +kernel⟩,
    ⟨setF [(F.CSA_STATUS_ANA_OK, 1)], by decide +kernel⟩,
    ⟨State.reset, by decide +kernel⟩⟩

/-- Premises of ComparatorSettingsAndTests are met. -/
theorem witness_ComparatorSettingsAndTests :
    (∃ (c : CmpIx) (s : State), s.held = false ∧ s.cmpClaimed c = false) ∧
    (∃ (c : CmpIx) (s : State), s.held = false ∧ s.cmpClaimed c = true) ∧
    (∃ (c : CmpIx) (w : Word) (s : State), s.held = false ∧ s.cmpClaimed c = false ∧ bitsOf w 13 3 ≤ 4 ∧ s.cmpLocked c = false) ∧
    (∃ (c : CmpIx) (w : Word) (s : State), s.held = false ∧ c.val < 32 ∧ s.armed (c / 4) = true ∧ bitsOf w 13 3 ≠ 0) ∧
    (∃ (c : CmpIx) (s : State) (i : Nat) (e : Nat × Nat), s.held = false ∧ s.findAct 2 c = some i ∧ s.cmp.saved = [(c.val, e)]) ∧
    (∃ (c : CmpIx) (f : Fin 6) (s : State) (i : Nat), s.held = false ∧ s.findAct 2 c = some i ∧ f ≠ 0) ∧
    (∃ (c : CmpIx) (x : Int) (s : State) (i : Nat), s.held = false ∧ s.findAct 3 c = some i ∧ s.anaOk = true ∧ s.cmp.rbBad =
      false ∧ s.readyThen (s.frm.slotStart.toList.getD i 0 + 40000) = true ∧ s.get F.PMC_REF_STATUS_STATE ≠ 2 ∧ satS 24 x = x ∧
      (x - convDiv (((s.get (F.CMPc_DAC_CODE c) : Int) - 512) * 65536) 10).natAbs ≤ 13107) ∧
    (∃ (c : CmpIx) (x : Int) (s : State) (i : Nat), s.held = false ∧ s.findAct 3 c = some i ∧ s.anaOk = true ∧ s.cmp.rbBad =
      false ∧ s.readyThen (s.frm.slotStart.toList.getD i 0 + 40000) = true ∧ s.get F.PMC_REF_STATUS_STATE ≠ 2 ∧ satS 24 x = x ∧
      13107 < (x - convDiv (((s.get (F.CMPc_DAC_CODE c) : Int) - 512) * 65536) 10).natAbs) :=
  ⟨
    ⟨39, State.reset, by decide +kernel⟩,
    ⟨39, running 2 39, by decide +kernel⟩,
    ⟨39, 0x8000, State.reset, by decide +kernel⟩,
    ⟨31, 0x2000, armedAt 7, by decide +kernel⟩,
    ⟨39, { running 2 39 with cmp := ⟨true, [], [(39, 1023, 1)], false⟩ }, 15, (1023, 1), by decide +kernel⟩,
    ⟨39, 5, running 2 39, 15, by decide +kernel⟩,
    ⟨39, 13107, running 3 39 [(F.CSA_STATUS_ANA_OK, 1), (F.PMC_STATUS_REF_READY, 1), (F.CMPc_DAC_CODE 39, 512)], 15,
      by decide +kernel⟩,
    ⟨39, 13108, running 3 39 [(F.CSA_STATUS_ANA_OK, 1), (F.PMC_STATUS_REF_READY, 1), (F.CMPc_DAC_CODE 39, 512)], 15,
      by decide +kernel⟩⟩

/-- Premises of LinksTrainAndFail are met. -/
theorem witness_LinksTrainAndFail :
    (∃ (q : PortIx) (s : State), s.held = false ∧ s.portState q = 1) ∧
    (∃ (q : PortIx) (s : State), s.held = false ∧ s.portState q = 1) ∧
    (∃ (q : PortIx) (s : State), s.held = false ∧ s.portState q ≠ 1) ∧
    (∃ (q : PortIx) (s : State), s.held = false ∧ (s.portState q = 2 ∨ s.portState q = 4 ∨ s.portState q = 5) ∧ s.cfg.port =
      none) ∧
    (∃ (q : PortIx) (src : Nat) (s : State), s.held = false ∧ s.portState q = 5 ∧ s.cfg.port = some (.ring q src) ∧ s.loader ≠
      6) ∧
    (∃ (q : PortIx) (b : List Byte) (s : State), s.held = false ∧ s.portState q = 2 ∧ b.length = 24 ∧ s.get
      (F.NETp_STATUS_LINK_VER q) = 0 ∧ commonVersion (rdN b 8 2) = 0) ∧
    (∃ (q : PortIx) (b : List Byte) (g : Nat) (s : State), s.held = false ∧ s.portState q = 4 ∧ b.length = 24 ∧ s.get
      (F.NETp_STATUS_LINK_VER q) ≠ 0 ∧ rdN b 11 1 / 2 % 2 = 0 ∧ 24000 < g) ∧
    (∃ (q : PortIx) (b : List Byte) (x : Nat) (s : State), s.held = false ∧ s.portState q = 4 ∧ b.length = 24 ∧ s.get
      (F.NETp_STATUS_LINK_VER q) ≠ 0 ∧ rdN b 11 1 / 2 % 2 = 0 ∧ x ≤ 4000) ∧
    (∃ (q : PortIx) (b : List Byte) (x : Nat) (s : State), s.held = false ∧ s.portState q = 2 ∧ b.length = 24 ∧ s.get
      (F.NETp_STATUS_LINK_VER q) ≠ 0 ∧ rdN b 11 1 = 1 ∧ rdN b 12 1 = s.get (F.NETp_STATUS_LINK_VER q) ∧ 3 ≤ (s.np q).sent ∧ 2 ≤
      (s.np q).recv ∧ x ≤ 4000) ∧
    (∃ (q : PortIx) (s : State), s.held = false ∧ s.portState q = 4) ∧
    (∃ (q : PortIx) (s : State), s.held = false ∧ s.portState q = 2) ∧
    (∃ (q : PortIx) (s : State), s.held = false ∧ s.portState q = 4) ∧
    (∃ (q : PortIx) (s : State), s.held = false ∧ (s.np q).looping = true ∧ s.portState q = 6) ∧
    (∃ (s : State), s.held = false) ∧
    (∃ (q : PortIx) (s : State), s.held = false ∧ s.prbsOn q = true) ∧
    (∃ (q : PortIx) (s : State), s.held = false ∧ s.prbsOn q = true ∧ (s.np q).prbs = true) ∧
    (∃ (q : PortIx) (s : State), s.held = false ∧ s.prbsOn q = true ∧ (s.np q).prbs = true) :=
  ⟨
    ⟨2, setF [(F.NETp_STATUS_STATE 2, 1)], by decide +kernel⟩,
    ⟨2, setF [(F.NETp_STATUS_STATE 2, 1)], by decide +kernel⟩,
    ⟨2, State.reset, by decide +kernel⟩,
    ⟨2, setF [(F.NETp_STATUS_STATE 2, 2)], by decide +kernel⟩,
    ⟨2, 9, { setF [(F.NETp_STATUS_STATE 2, 5)] with cfg := { State.reset.cfg with port := some (.ring 2 9) } },
      by decide +kernel⟩,
    ⟨2, trainBody 4 0 0, setF [(F.NETp_STATUS_STATE 2, 2)], by decide +kernel⟩,
    ⟨2, trainBody 3 1 2, 24001, setF [(F.NETp_STATUS_STATE 2, 4), (F.NETp_STATUS_LINK_VER 2, 2)], by decide +kernel⟩,
    ⟨2, trainBody 3 1 2, 4000, setF [(F.NETp_STATUS_STATE 2, 4), (F.NETp_STATUS_LINK_VER 2, 2)], by decide +kernel⟩,
    ⟨2, trainBody 3 1 2, 4000, (setF [(F.NETp_STATUS_STATE 2, 2), (F.NETp_STATUS_LINK_VER 2, 2)]).modNp 2 fun p =>
      { p with sent := 3, recv := 2 }, by decide +kernel⟩,
    ⟨2, setF [(F.NETp_STATUS_STATE 2, 4)], by decide +kernel⟩,
    ⟨2, setF [(F.NETp_STATUS_STATE 2, 2)], by decide +kernel⟩,
    ⟨2, setF [(F.NETp_STATUS_STATE 2, 4)], by decide +kernel⟩,
    ⟨2, (setF [(F.NETp_STATUS_STATE 2, 6)]).modNp 2 fun p => { p with looping := true }, by decide +kernel⟩,
    ⟨State.reset, by decide +kernel⟩,
    ⟨2, running 1 2 [(F.NETp_STATUS_STATE 2, 6)], by decide +kernel⟩,
    ⟨2, (running 1 2 [(F.NETp_STATUS_STATE 2, 6)]).modNp 2 fun p => { p with prbs := true }, by decide +kernel⟩,
    ⟨2, (running 1 2 [(F.NETp_STATUS_STATE 2, 6)]).modNp 2 fun p => { p with prbs := true }, by decide +kernel⟩⟩

/-- Premises of SegmentsAreForwarded are met. -/
theorem witness_SegmentsAreForwarded :
    (∃ (q : PortIx) (b : List Byte) (s : State), s.held = false ∧ s.isOpen q = true ∧ s.rootHere = false ∧ ((parseSeg b).typ = 2
      ∨ (parseSeg b).typ = 4 ∨ (parseSeg b).typ = 0x11 ∨ (parseSeg b).typ = 0x12) ∧ (parseSeg b).st = .good) ∧
    (∃ (q : PortIx) (b : List Byte) (s : State), s.held = false ∧ s.isOpen q = true ∧ s.rootHere = false ∧ (parseSeg b).typ = 2
      ∧ (parseSeg b).st = .bad ∧ (s.np q).errPrev = false) ∧
    (∃ (b : List Byte) (s : State), s.held = false ∧ (parseSeg b).typ = 0x10) ∧
    (∃ (q : PortIx) (b : List Byte) (s : State), s.held = false ∧ s.isOpen q = false ∧ (parseSeg b).typ ≠ 1) ∧
    (∃ (q : PortIx) (b : List Byte) (s : State), s.held = false ∧ (parseSeg b).isHeader = true ∧ s.isOpen q = true ∧ s.rootHere
      = false ∧ s.net.reopen = none ∧ (parseHdr (parseSeg b).body).nodes ≠ 0 ∧ s.net.cycle ≠ some (parseHdr (parseSeg
      b).body).cycleNo) ∧
    (∃ (s : State), s.held = false) :=
  ⟨
    ⟨2, segBytes 0x12 [1, 2], setF [(F.NETp_STATUS_STATE 2, 5)], by decide +kernel⟩,
    ⟨2, segBytes 2 [1] ++ [0], setF [(F.NETp_STATUS_STATE 2, 5)], by decide +kernel⟩,
    ⟨segBytes 0x10 [], State.reset, by decide +kernel⟩,
    ⟨2, segBytes 2 [], State.reset, by decide +kernel⟩,
    ⟨2, segBytes 1 (headerBody 1 1 5), setF [(F.NETp_STATUS_STATE 2, 5)], by decide +kernel⟩,
    ⟨State.reset, by decide +kernel⟩⟩

/-- Premises of RootCyclesAndRingLoss are met. -/
theorem witness_RootCyclesAndRingLoss :
    (∃ (s : State), s.held = false ∧ s.rootHere = true ∧ s.net.rs.yield = false ∧ s.net.rs.stage = .normal ∧ s.net.rs.want =
      false ∧ s.net.rs.step = none ∧ s.net.reopen = none) ∧
    (∃ (s : State), s.held = false ∧ s.rootHere = true ∧ s.net.rs.yield = true) ∧
    (∃ (q : PortIx) (b1 : List Byte) (b2 : List Byte) (s : State), s.held = false ∧ s.rootHere = true ∧ s.isOpen q = true ∧
      s.outPort q = none ∧ (parseSeg b1).isHeader = true ∧ (parseHdr (parseSeg b1).body).nodes ≠ 0 ∧ (parseHdr (parseSeg
      b1).body).prio = s.get F.NET_CFG_PRIO ∧ (parseHdr (parseSeg b1).body).root = s.node ∧ (parseSeg b2).typ = 5 ∧ (parseSeg
      b2).st = .good ∧ (parseSeg b2).body.length = 16 ∧ rdN (parseSeg b2).body 12 2 % 2 = 1) ∧
    (∃ (s : State), s.held = false ∧ s.rootHere = false ∧ s.flag F.NET_RING_ISOLATED = false ∧ s.cfg.port = none) ∧
    (∃ (s : State), s.held = false ∧ s.flag F.NET_RING_ISOLATED = true ∧ s.rootHere = false ∧ 1 ≤ s.get F.NET_CFG_PRIO) ∧
    (∃ (s : State), s.held = false ∧ s.get F.NET_CFG_SUP_MISS ≤ s.net.misses ∧ s.flag F.NET_RING_SUP_LOST = false) ∧
    (∃ (s : State), s.held = false ∧ s.locked = true ∧ s.flag F.NET_TIME_STATUS_HOLDOVER = true) ∧
    (∃ (s : State) (d : Int), s.held = false ∧ s.rootHere = true ∧ d = 2 * (s.wide 64 R.NET_TIME_SET_LO : Int) - ((s.net.timeH :
      Int) + 5 * s.sub) ∧ d.natAbs < s.get F.NET_TIME_CFG_STEP_THR * 2000000) ∧
    (∃ (s : State) (d : Int), s.held = false ∧ s.rootHere = true ∧ d = 2 * (s.calTime : Int) - ((s.net.timeH : Int) + 5 * s.sub)
      ∧ s.get F.NET_TIME_CFG_STEP_THR * 2000000 ≤ d.natAbs) ∧
    (∃ (s : State), s.held = false ∧ s.rootHere = true) ∧
    (∃ (s : State), s.held = false ∧ s.rootHere = false) :=
  ⟨
    ⟨setF [(F.NET_RING_ROOT_HERE, 1), (F.NET_NODE_NODE, 5)], by decide +kernel⟩,
    ⟨(setF [(F.NET_RING_ROOT_HERE, 1), (F.NET_NODE_NODE, 5)]).modRs fun r => { r with yield := true }, by decide +kernel⟩,
    ⟨2, segBytes 1 (headerBody 1 0 5), segBytes 5 (leBytes 12 0 ++ leBytes 4 1), rootOpen, by decide +kernel⟩,
    ⟨State.reset, by decide +kernel⟩,
    ⟨setF [(F.NET_RING_ISOLATED, 1), (F.NET_CFG_PRIO, 1)], by decide +kernel⟩,
    ⟨State.reset.modNet fun n => { n with misses := 255 }, by decide +kernel⟩,
    ⟨setF [(F.NET_TIME_STATUS_LOCKED, 1), (F.NET_TIME_STATUS_HOLDOVER, 1)], by decide +kernel⟩,
    ⟨setF [(F.NET_RING_ROOT_HERE, 1), (F.NET_TIME_CFG_STEP_THR, 1)], 0, by decide +kernel⟩,
    ⟨{ setF [(F.NET_RING_ROOT_HERE, 1), (F.NET_TIME_CFG_STEP_THR, 500)] with backup := { State.reset.backup with sec := 1 } },
      2000000000, by decide +kernel⟩,
    ⟨setF [(F.NET_RING_ROOT_HERE, 1), (F.NET_NODE_NODE, 5)], by decide +kernel⟩,
    ⟨State.reset, by decide +kernel⟩⟩

/-- Premises of ManagementRequestsAreAnswered are met. -/
theorem witness_ManagementRequestsAreAnswered :
    (∃ (q : PortIx) (m : Mbx) (s : State) (a : Nat), s.held = false ∧ Admitted (Req.withOp q m 1 s) s ∧ (Req.withOp q m 1
      s).mode = 0 ∧ (Req.withOp q m 1 s).cnt = 1 ∧ (Req.withOp q m 1 s).adr = a ∧ a < 0x7800 ∧ wideAt a = none ∧ wideOfHi a =
      none ∧ (∀ r, findRow a = some r → r.rc = 0)) ∧
    (∃ (q : PortIx) (m : Mbx) (s : State), s.held = false ∧ Admitted (Req.withOp q m 2 s) s ∧ (Req.withOp q m 2 s).mode = 0 ∧
      (Req.withOp q m 2 s).cnt = 1 ∧ (Req.withOp q m 2 s).adr = R.FRM_IRQ_ENABLE) ∧
    (∃ (q : PortIx) (m : Mbx) (s : State) (code : Nat), s.held = false ∧ Admitted (Req.withOp q m 3 s) s ∧ (Req.withOp q m 3
      s).mode = 0 ∧ code = (Req.withOp q m 3 s).word 0 % 65536 ∧ code ≠ 0xFFFF ∧ (s.role (Req.withOp q m 3 s).low).toNat / 65536
      ≠ code) ∧
    (∃ (q : PortIx) (m : Mbx) (s : State), s.held = false ∧ Admitted (Req.withOp q m 4 s) s ∧ (Req.withOp q m 4 s).mode = 0) ∧
    (∃ (q : PortIx) (m : Mbx) (s : State), s.held = false ∧ (Req.withOp q m 4 s).mode = 3) ∧
    (∃ (q : PortIx) (m : Mbx) (s : State), s.held = false ∧ (Req.withOp q m 1 s).mode = 0 ∧ endpointOk (Req.withOp q m 1 s).low
      = false) ∧
    (∃ (q : PortIx) (m : Mbx) (s : State), s.held = false ∧ (Req.withOp q m 2 s).mode = 0 ∧ endpointOk (Req.withOp q m 2 s).low
      = true ∧ s.authOn = false ∧ s.needsTag (Req.withOp q m 2 s) = false ∧ s.roleStale (Req.withOp q m 2 s) = true) :=
  ⟨
    ⟨2, message (leBytes 1 0 ++ leBytes 1 1 ++ leBytes 2 0x77FC), State.reset, 0x77FC, by decide +kernel,
      by unfold Admitted; decide +kernel, by decide +kernel, by decide +kernel, by decide +kernel, by decide +kernel,
      by decide +kernel, by decide +kernel, rc_of _ (by decide +kernel)⟩,
    ⟨2, message (leBytes 1 0 ++ leBytes 1 1 ++ leBytes 2 R.FRM_IRQ_ENABLE), State.reset, by decide +kernel,
      by unfold Admitted; decide +kernel, by decide +kernel, by decide +kernel, by decide +kernel⟩,
    ⟨2, message (leBytes 4 0 ++ leBytes 4 0xFFFE), State.reset, 0xFFFE, by decide +kernel, by unfold Admitted; decide +kernel,
      by decide +kernel, by decide +kernel, by decide +kernel, by decide +kernel⟩,
    ⟨2, message [], State.reset, by decide +kernel, by unfold Admitted; decide +kernel, by decide +kernel⟩,
    ⟨2, message [] (3 * 2 ^ 22), State.reset, by decide +kernel⟩,
    ⟨2, message [] 9, State.reset, by decide +kernel⟩,
    ⟨2, { message [] with epoch := 1 }, State.reset, by decide +kernel⟩⟩

/-- Premises of RecordsAreCommittedAndSelected are met. -/
theorem witness_RecordsAreCommittedAndSelected :
    (∃ (id : Byte) (s : State) (c : RecCopy), s.held = false ∧ recordId id.toNat = true ∧ s.copies id.toNat = [some c, some c,
      some c] ∧ c.intact id.toNat = true) ∧
    (∃ (id : Byte) (s : State), s.held = false ∧ recordId id.toNat = false) ∧
    (∃ (id : Byte) (s : State), s.held = false ∧ 0x20 ≤ id.toNat ∧ id.toNat ≤ 0x3E ∧ s.powerFail = false ∧ s.hostBusy = false ∧
      s.nvs.queue.length < 16) ∧
    (∃ (id : Byte) (s : State), s.held = false ∧ id.toNat ≤ 0x12) ∧
    (∃ (id : Byte) (s : State) (c : RecCopy), s.held = false ∧ recordId id.toNat = true ∧ s.flag (divFld id.toNat) = true ∧
      s.inUse id.toNat = some c ∧ s.nvs.queue = []) ∧
    (∃ (id : Byte) (s : State), s.held = false ∧ recordId id.toNat = true ∧ s.flag (divFld id.toNat) = false ∧ s.flag (lostFld
      id.toNat) = false) ∧
    (∃ (id : Byte) (s : State), s.held = false ∧ id.toNat < 8 ∧ s.nvs.queue = []) ∧
    (∃ (id : Byte) (s : State), s.held = false ∧ 8 ≤ id.toNat) ∧
    (∃ (s : State) (c : Commit) (rest : List Commit), s.held = false ∧ s.nvs.running = none ∧ s.nvs.queue = c :: rest ∧ c.host =
      true ∧ c.keep = none ∧ s.powerFail = false ∧ s.findAct 8 0 = none ∧ s.energyOk (recordTime c.payload.length) = true) ∧
    (∃ (s : State) (c : Commit) (rest : List Commit), s.held = false ∧ s.nvs.running = none ∧ s.nvs.queue = c :: rest ∧ c.host =
      true ∧ c.keep = none ∧ s.powerFail = false ∧ s.findAct 8 0 = none ∧ s.energyOk (recordTime c.payload.length) = false) ∧
    (∃ (s : State) (c : Commit), s.held = false ∧ s.nvs.running = some c ∧ c.host = true ∧ c.keep = none ∧ c.restored = false ∧
      0x20 ≤ c.id ∧ c.id ≤ 0x3E) ∧
    (∃ (s : State) (c : Commit), s.held = false ∧ s.nvs.retry = [c] ∧ s.nvs.queue = []) ∧
    (∃ (n : AxisIx) (s : State), s.held = false ∧ n.val ∈ s.nvs.safetyDirty ∧ s.nvs.queue = []) ∧
    (∃ (s : State), s.held = false) :=
  ⟨
    ⟨0x3E,
      { State.reset with nvs := { State.reset.nvs with recs := [(0x3E, [some ⟨0x3E, false, 1, 0, 0, [], false⟩, some ⟨0x3E, false, 1, 0, 0, [], false⟩, some ⟨0x3E, false, 1, 0, 0, [], false⟩])] } },
      ⟨0x3E, false, 1, 0, 0, [], false⟩, by decide +kernel⟩,
    ⟨0x13, State.reset, by decide +kernel⟩,
    ⟨0x3E, State.reset, by decide +kernel⟩,
    ⟨0x12, State.reset, by decide +kernel⟩,
    ⟨0x3E,
      { setF [(divFld 0x3E, 1)] with nvs := { State.reset.nvs with recs := [(0x3E, [some ⟨0x3E, false, 1, 0, 0, [], false⟩, none, none])] } },
      ⟨0x3E, false, 1, 0, 0, [], false⟩, by decide +kernel⟩,
    ⟨0x20, State.reset, by decide +kernel⟩,
    ⟨7, State.reset, by decide +kernel⟩,
    ⟨8, State.reset, by decide +kernel⟩,
    ⟨charged ({ State.reset with nvs := { State.reset.nvs with queue := [⟨0x3E, true, [], none, false⟩] } }), ⟨0x3E, true, [],
      none, false⟩, [], by decide +kernel⟩,
    ⟨{ State.reset with nvs := { State.reset.nvs with queue := [⟨0x3E, true, [], none, false⟩] } }, ⟨0x3E, true, [], none,
      false⟩, [], by decide +kernel⟩,
    ⟨{ State.reset with nvs := { State.reset.nvs with running := some ⟨0x3E, true, [], none, false⟩ } }, ⟨0x3E, true, [], none,
      false⟩, by decide +kernel⟩,
    ⟨{ State.reset with nvs := { State.reset.nvs with retry := [⟨0x3E, true, [], none, false⟩] } }, ⟨0x3E, true, [], none,
      false⟩, by decide +kernel⟩,
    ⟨7, { State.reset with nvs := { State.reset.nvs with safetyDirty := [7] } }, by decide +kernel⟩,
    ⟨State.reset, by decide +kernel⟩⟩

/-- Premises of PowerLossStoreAndLog are met. -/
theorem witness_PowerLossStoreAndLog :
    (∃ (s : State), s.held = false ∧ s.nvs.plsPhase = .snapped ∧ s.nvs.running = none) ∧
    (∃ (s : State) (x : PlsStore), s.held = false ∧ s.nvs.plsPhase = .writing ∧ s.nvs.snapshot = some x ∧ s.plsLatest = none) ∧
    (∃ (s : State) (i : Nat) (x : PlsStore), s.held = false ∧ s.plsLatest = some (i, x) ∧ x.consumed = false ∧ s.frm.claimStart
      = false ∧ s.powerFail = false ∧ s.findAct 8 0 = none ∧ s.energyOk (blockTime 64) = true) ∧
    (∃ (s : State), s.held = false ∧ 64 ≤ s.log.buf.length ∧ s.log.area.length + 64 ≤ 1048576) ∧
    (∃ (s : State), s.held = false ∧ s.log.buf.length < 64) ∧
    (∃ (s : State), s.held = false ∧ s.log.area.length + s.log.buf.length ≤ 1048576) ∧
    (∃ (i : Nat) (s : State), s.held = false ∧ s.findAct 5 0 = some i) ∧
    (∃ (dv1 : Nat) (dv2 : Nat) (us : Nat) (i : Nat) (nf : Nat) (s : State), s.held = false ∧ s.findAct 8 0 = some i ∧ dv1 * us <
      dv2 * 10000 ∧ nf = (convDiv ((us : Int) * 100000000000) (dv2 * 10000 - dv1 * us)).toNat ∧ 100000 ≤ nf ∧ nf ≤ 40000000) :=
  ⟨
    ⟨{ State.reset with nvs := { State.reset.nvs with plsPhase := .snapped } }, by decide +kernel⟩,
    ⟨{ State.reset with nvs := { State.reset.nvs with plsPhase := .writing, snapshot := some ⟨1, 0, 0, 0, 0, 0, [], [], false⟩ } },
      ⟨1, 0, 0, 0, 0, 0, [], [], false⟩, by decide +kernel⟩,
    ⟨charged ({ afterStart with nvs := { State.reset.nvs with pls := #v[some ⟨1, 0, 0, 0, 0, 0, [], [], false⟩, none] } }), 0,
      ⟨1, 0, 0, 0, 0, 0, [], [], false⟩, by decide +kernel⟩,
    ⟨{ State.reset with log := { State.reset.log with buf := List.replicate 64 (resetEntry 0 1) } }, by decide +kernel⟩,
    ⟨State.reset, by decide +kernel⟩,
    ⟨State.reset, by decide +kernel⟩,
    ⟨15, running 5 0, by decide +kernel⟩,
    ⟨0, 1000, 10, 15, 100000, running 8 0, by decide +kernel⟩⟩

/-- Premises of ReplicasArePlacedHeldAndRestored are met. -/
theorem witness_ReplicasArePlacedHeldAndRestored :
    (∃ (s : State) (i : Nat), s.held = false ∧ s.findAct 7 0 = some i ∧ s.replicaOn = true ∧ (∀ k < 2, s.get
      (F.NVS_REP_OWNk_STATE k) ≠ 0 ∧ ∀ b ∈ s.ownBlocks, (b.1, crc32 b.2) ∈ (s.ownRep k).acked)) ∧
    (∃ (m : RepMsg) (s : State) (j : Nat), s.held = false ∧ s.nvs.restore = none ∧ s.judgeOffer m = .ok j ∧ j < 3) ∧
    (∃ (m : RepMsg) (s : State) (c : Nat), s.held = false ∧ s.nvs.restore = none ∧ s.judgeOffer m = .error c) ∧
    (∃ (m : RepMsg) (s : State), s.held = false ∧ m.owner = s.node ∧ s.nvs.restore = none ∧ (s.ownRep 0).offered = true ∧
      s.candidate 0 (s.ownRep 0).candidate = some m.src) ∧
    (∃ (m : RepMsg) (s : State) (k : Nat), s.held = false ∧ s.repAt m.src = some k ∧ (s.ownRep k).offered = true ∧ (∀ p < 8,
      (s.ownRep k).candidate < p → s.candidate k p = none)) ∧
    (∃ (k : Fin 2) (s : State) (c : Nat) (p : Nat) (node : Nat), s.held = false ∧ (s.ownRep k).offered = true ∧ (s.ownRep
      k).candidate = c ∧ c < p ∧ p < 8 ∧ s.candidate k p = some node ∧ (∀ x, c < x → x < p → s.candidate k x = none)) ∧
    (∃ (m : RepMsg) (s : State) (j : Nat), s.held = false ∧ s.nvs.restore = none ∧ s.heldFor m = some j ∧ (s.heldRep
      j).stageBlock ≠ m.block) ∧
    (∃ (m : RepMsg) (s : State) (k : Nat), s.held = false ∧ s.repAt m.src = some k ∧ (s.ownRep k).offered = false ∧ (s.ownRep
      k).sent = [(m.block, rdN m.body 0 4)] ∧ (s.ownRep k).acked = []) ∧
    (∃ (m : RepMsg) (s : State) (k : Nat), s.held = false ∧ s.repAt m.src = some k) ∧
    (∃ (m : RepMsg) (s : State) (j : Nat), s.held = false ∧ s.nvs.restore = none ∧ s.heldFor m = some j ∧ s.heldOf m.owner =
      [j]) ∧
    (∃ (m : RepMsg) (s : State) (j : Nat), s.held = false ∧ s.heldFor m = some j) ∧
    (∃ (m : RepMsg) (s : State) (k : Nat), s.held = false ∧ s.repAt m.src = some k ∧ m.body.take 24 ≠ (blocksDigest
      s.ownBlocks).take 24) ∧
    (∃ (m : RepMsg) (s : State) (j : Nat), s.held = false ∧ m.src = m.owner ∧ s.heldOf m.owner = [j]) ∧
    (∃ (m : RepMsg) (s : State) (j : Nat), s.held = false ∧ s.heldOf m.owner = [j] ∧ s.heldState j = 2 ∧ s.replicaOn = true) ∧
    (∃ (j : Fin 3) (s : State), s.held = false ∧ s.heldState j ≠ 0 ∧ (∀ e ∈ s.net.nodes, e.2 ≠ s.get (F.NVS_REP_HELDj_OWNER j))) ∧
    (∃ (s : State), s.held = false ∧ s.anyArmed = false ∧ s.replicaOn = true ∧ s.nvs.restore = none) ∧
    (∃ (s : State), s.held = false ∧ s.anyArmed = true) ∧
    (∃ (s : State), s.held = false ∧ s.flag F.NVS_CFG_AUTO_RESTORE = true ∧ s.flag F.CFG_STATUS_BANK0_VALID = false ∧ s.flag
      F.CFG_STATUS_BANK1_VALID = false ∧ s.numbered = true ∧ s.replicaOn = true ∧ s.nvs.restore = none) ∧
    (∃ (s : State) (r : Restore) (o : Nat × Nat × Nat), s.held = false ∧ s.get F.NVS_REP_STATUS_STATE = 1 ∧ s.nvs.restore = some
      r ∧ bestOffer r.offers = some o) ∧
    (∃ (s : State) (r : Restore), s.held = false ∧ s.get F.NVS_REP_STATUS_STATE = 1 ∧ s.get F.NVS_REP_STATUS_CODE = 0 ∧
      s.nvs.restore = some r ∧ r.offers = []) :=
  ⟨
    ⟨holders, 15, by decide +kernel, by decide +kernel, by decide +kernel, holders_acked⟩,
    ⟨replica 1 1 (leBytes 4 (5 * 2 ^ 20)), withReplicas [(F.NVS_REP_HELDj_STATE 0, 2), (F.NVS_REP_HELDj_STATE 1, 2)], 2,
      by decide +kernel, by decide +kernel, ok_is (by decide +kernel), by decide +kernel⟩,
    ⟨replica 1 1, State.reset, 3, by decide +kernel, by decide +kernel, err_of (by decide +kernel)⟩,
    ⟨replica 3 5, (withReplicas).modOwn 0 fun o => { o with offered := true }, by decide +kernel⟩,
    ⟨replica 3 5, (withReplicas).modOwn 0 fun o => { o with offered := true, candidate := 6 }, 0, by decide +kernel⟩,
    ⟨0, (withReplicas).modOwn 0 fun o => { o with offered := true }, 0, 1, 2, by decide +kernel, by decide +kernel,
      by decide +kernel, by decide +kernel, by decide +kernel, by decide +kernel, fun x h1 h2 => by omega⟩,
    ⟨replica 1 1, withReplicas [(F.NVS_REP_HELDj_STATE 2, 1), (F.NVS_REP_HELDj_OWNER 2, 1)], 2, by decide +kernel⟩,
    ⟨replica 1 5 (leBytes 4 9), (withReplicas [(F.NVS_REP_OWNk_STATE 1, 2), (F.NVS_REP_OWNk_HOLDER 1, 1)]).modOwn 1 fun o =>
      { o with sent := [(1, 9)] }, 1, by decide +kernel⟩,
    ⟨replica 1 1, withReplicas [(F.NVS_REP_OWNk_STATE 1, 2), (F.NVS_REP_OWNk_HOLDER 1, 1)], 1, by decide +kernel⟩,
    ⟨replica 1 1, withReplicas [(F.NVS_REP_HELDj_STATE 2, 2), (F.NVS_REP_HELDj_OWNER 2, 1)], 2, by decide +kernel⟩,
    ⟨replica 1 1, withReplicas [(F.NVS_REP_HELDj_STATE 2, 2), (F.NVS_REP_HELDj_OWNER 2, 1)], 2, by decide +kernel⟩,
    ⟨replica 1 1, withReplicas [(F.NVS_REP_OWNk_STATE 1, 2), (F.NVS_REP_OWNk_HOLDER 1, 1)], 1, by decide +kernel⟩,
    ⟨replica 1 1, withReplicas [(F.NVS_REP_HELDj_STATE 2, 2), (F.NVS_REP_HELDj_OWNER 2, 1)], 2, by decide +kernel⟩,
    ⟨replica 1 1, withReplicas [(F.NVS_REP_HELDj_STATE 2, 2), (F.NVS_REP_HELDj_OWNER 2, 1)], 2, by decide +kernel⟩,
    ⟨2, setF [(F.NVS_REP_HELDj_STATE 2, 2), (F.NVS_REP_HELDj_OWNER 2, 4095)], by decide +kernel⟩,
    ⟨withReplicas, by decide +kernel⟩,
    ⟨armedAt 7, by decide +kernel⟩,
    ⟨withReplicas [(F.NVS_CFG_AUTO_RESTORE, 1), (F.NET_NODE_NUMBERED, 1)], by decide +kernel⟩,
    ⟨{ setF [(F.NVS_REP_STATUS_STATE, 1)] with nvs := { State.reset.nvs with restore := some ⟨[(3, 7, 64), (2, 7, 64)], none, [], [], 0⟩ } },
      ⟨[(3, 7, 64), (2, 7, 64)], none, [], [], 0⟩, (2, 7, 64), by decide +kernel⟩,
    ⟨{ setF [(F.NVS_REP_STATUS_STATE, 1)] with nvs := { State.reset.nvs with restore := some ⟨[], none, [], [], 0⟩ } }, ⟨[],
      none, [], [], 0⟩, by decide +kernel⟩⟩

/-- Premises of SelectedLogEntriesAreShown are met. -/
theorem witness_SelectedLogEntriesAreShown :
    (∃ (w : Word) (s : State) (e : LogEntry), s.held = false ∧ (s.log.area ++ s.log.buf).find? (fun e => decide (e.seq =
      w.toNat) && !s.log.badSeqs.contains e.seq) = some e) ∧
    (∃ (w : Word) (s : State), s.held = false ∧ (∀ e ∈ s.log.area ++ s.log.buf, e.seq = w.toNat → e.seq ∈ s.log.badSeqs)) :=
  ⟨
    ⟨0, State.reset, resetEntry 0 1, by decide +kernel⟩,
    ⟨1, State.reset, by decide +kernel⟩⟩

/-- Premises of ResetsAreRecordedAndReleased are met. -/
theorem witness_ResetsAreRecordedAndReleased :
    (∃ (s : State), s.held = false) ∧
    (∃ (s : State), s.held = false ∧ s.sup.power = true ∧ s.flag F.SUP_STATUS_VM_FAIL = false ∧ s.backup.stopped = false) ∧
    (∃ (s : State), s.held = false ∧ s.sup.power = true ∧ s.flag F.SUP_STATUS_VM_FAIL = true ∧ s.guard.pfShort.testBit 0 = true
      ∧ s.flag F.GDR_STATUS_VGRD_OK = true ∧ s.flag F.GDR_STATUS_DRV_EN = true) ∧
    (∃ (s : State), s.held = false ∧ s.flag F.SUP_WDT_CFG_EN = true ∧ s.dueBy (s.sup.wdtAt + s.get F.SUP_WDT_CFG_TIMEOUT *
      400000) = true) ∧
    (∃ (s : State), s.held = false ∧ s.flag F.SUP_WDT_CFG_EN = false) ∧
    (∃ (s : State), s.held = true ∧ s.sup.power = true) ∧
    (∃ (s : State), s.sup.power = false ∧ s.held = true) ∧
    (∃ (s : State), s.sup.power = false ∧ s.guard.shed = none) ∧
    (∃ (w : Word) (s : State), s.held = false ∧ s.flag F.SUP_WDT_CFG_EN = false ∧ bitsOf w 0 16 ≠ 0) ∧
    (∃ (s : State), s.held = false ∧ s.flag F.SUP_WDT_CFG_EN = true) ∧
    (∃ (s : State), s.held = false) ∧
    (∃ (w : Word) (s : State), s.held = false ∧ w ≠ 0x5AC3) ∧
    (∃ (s : State), s.held = false ∧ s.flag F.SUP_PF_CFG_SHED = true ∧ s.get F.SUP_STATUS_STATE = 4 ∧ s.flag
      F.SUP_STATUS_VM_GOOD = false) ∧
    (∃ (s : State), s.guard.shed.isSome = true ∧ s.sup.power = false) ∧
    (∃ (s : State), s.held = false) ∧
    (∃ (s : State), s.held = false) ∧
    (∃ (s : State), s.held = true) :=
  ⟨
    ⟨State.reset, by decide +kernel⟩,
    ⟨State.reset, by decide +kernel⟩,
    ⟨{ setF [(F.SUP_STATUS_VM_FAIL, 1), (F.GDR_STATUS_VGRD_OK, 1), (F.GDR_STATUS_DRV_EN, 1)] with guard := { State.reset.guard with pfShort := 1 } },
      by decide +kernel⟩,
    ⟨{ setF [(F.SUP_WDT_CFG_EN, 1), (F.SUP_WDT_CFG_TIMEOUT, 1)] with now := 390000 }, by decide +kernel⟩,
    ⟨State.reset, by decide +kernel⟩,
    ⟨{ State.reset with held := true }, by decide +kernel⟩,
    ⟨{ State.reset with held := true, sup := { State.reset.sup with power := false } }, by decide +kernel⟩,
    ⟨{ State.reset with sup := { State.reset.sup with power := false } }, by decide +kernel⟩,
    ⟨1, State.reset, by decide +kernel⟩,
    ⟨setF [(F.SUP_WDT_CFG_EN, 1)], by decide +kernel⟩,
    ⟨State.reset, by decide +kernel⟩,
    ⟨0x5AC2, State.reset, by decide +kernel⟩,
    ⟨setF [(F.SUP_PF_CFG_SHED, 1), (F.SUP_STATUS_STATE, 4)], by decide +kernel⟩,
    ⟨{ State.reset with sup := { State.reset.sup with power := false }, guard := { State.reset.guard with shed := some 1 } },
      by decide +kernel⟩,
    ⟨State.reset, by decide +kernel⟩,
    ⟨State.reset, by decide +kernel⟩,
    ⟨{ State.reset with held := true }, by decide +kernel⟩⟩

/-- Premises of SuppliesAreMonitored are met. -/
theorem witness_SuppliesAreMonitored :
    (∃ (s : State), s.held = false ∧ s.flag F.SUP_STATUS_VM_GOOD = true) ∧
    (∃ (s : State), s.held = false ∧ s.flag F.SUP_STATUS_VM_GOOD = false ∧ 3 ≤ s.get F.SUP_STATUS_STATE ∧ s.sup.reached ≤ 2) ∧
    (∃ (s : State), s.held = false ∧ s.flag F.SUP_STATUS_VDRV_OK = true) ∧
    (∃ (s : State), s.held = false ∧ s.flag F.SUP_VDRV_CFG_EN = true ∧ s.sup.power = true ∧ s.flag F.SUP_STATUS_TSD = false ∧
      s.sup.ovStop = false) ∧
    (∃ (s : State), s.held = false ∧ (s.flag F.SUP_VDRV_CFG_EN = false ∨ s.flag F.SUP_STATUS_TSD = true ∨ s.sup.ovStop = true)) ∧
    (∃ (w : Word) (s : State), s.held = false ∧ s.anyArmed = false ∧ codesOk R.SUP_VDRV_CFG w = true) ∧
    (∃ (s : State), s.held = false) ∧
    (∃ (s : State), s.held = false) ∧
    (∃ (s : State), s.held = false ∧ s.frm.claimStart = false) ∧
    (∃ (s : State), s.held = false) ∧
    (∃ (s : State) (i : Nat), s.held = false ∧ s.frm.claimStart = true ∧ s.runsAny 8 = false ∧ s.powerFail = false ∧
      s.judgeMaint 8 0 reqDevice = (0, i, 0)) ∧
    (∃ (s : State), s.held = false ∧ s.frm.claimStart = false) :=
  ⟨
    ⟨setF [(F.SUP_STATUS_VM_GOOD, 1)], by decide +kernel⟩,
    ⟨setF [(F.SUP_STATUS_STATE, 3)], by decide +kernel⟩,
    ⟨setF [(F.SUP_STATUS_VDRV_OK, 1)], by decide +kernel⟩,
    ⟨setF [(F.SUP_VDRV_CFG_EN, 1)], by decide +kernel⟩,
    ⟨setF [(F.SUP_STATUS_TSD, 1)], by decide +kernel⟩,
    ⟨0, State.reset, by decide +kernel⟩,
    ⟨State.reset, by decide +kernel⟩,
    ⟨State.reset, by decide +kernel⟩,
    ⟨afterStart, by decide +kernel⟩,
    ⟨State.reset, by decide +kernel⟩,
    ⟨State.reset, 0, by decide +kernel⟩,
    ⟨afterStart, by decide +kernel⟩⟩

/-- Premises of CalendarRunsAndIsSet are met. -/
theorem witness_CalendarRunsAndIsSet :
    (∃ (s : State), s.held = false ∧ s.sup.power = true ∧ s.backup.sync = false ∧ s.backup.staged = none) ∧
    (∃ (cyc : Nat) (v : Nat) (s : State), s.held = false ∧ s.sup.power = true ∧ s.backup.sync = false ∧ s.backup.staged = some v
      ∧ s.backup.stagedAt + 24415 ≤ s.now + Nat.max s.sub cyc) ∧
    (∃ (cyc : Nat) (v : Nat) (s : State), s.held = false ∧ s.sup.power = true ∧ s.backup.sync = false ∧ s.backup.staged = some v
      ∧ s.now + Nat.max s.sub cyc < s.backup.stagedAt + 24415) ∧
    (∃ (s : State), s.held = false ∧ s.sup.power = true ∧ s.backup.sync = true ∧ s.calFollows = true) ∧
    (∃ (s : State), s.sup.power = false ∧ s.backup.stopped = true) ∧
    (∃ (s : State), s.held = false ∧ s.calFollows = false) ∧
    (∃ (s : State), s.held = false ∧ s.calFollows = true) ∧
    (∃ (s : State), s.held = false) ∧
    (∃ (s : State), s.held = false ∧ s.calFollows = true ∧ 1953125 < ((s.calTime : Int) - (s.netTime : Int)).natAbs) ∧
    (∃ (s : State), s.held = false ∧ s.calFollows = false) ∧
    (∃ (s : State), s.held = false ∧ s.sup.power = true) :=
  ⟨
    ⟨State.reset, by decide +kernel⟩,
    ⟨24415, 5, { State.reset with backup := { State.reset.backup with staged := some 5 } }, by decide +kernel⟩,
    ⟨24414, 5, { State.reset with backup := { State.reset.backup with staged := some 5 } }, by decide +kernel⟩,
    ⟨{ setF [(F.CAL_CFG_NET_SYNC, 1), (F.NET_TIME_STATUS_LOCKED, 1)] with backup := { State.reset.backup with sync := true } },
      by decide +kernel⟩,
    ⟨{ State.reset with sup := { State.reset.sup with power := false }, backup := { State.reset.backup with stopped := true } },
      by decide +kernel⟩,
    ⟨State.reset, by decide +kernel⟩,
    ⟨setF [(F.CAL_CFG_NET_SYNC, 1), (F.NET_TIME_STATUS_LOCKED, 1)], by decide +kernel⟩,
    ⟨State.reset, by decide +kernel⟩,
    ⟨{ setF [(F.CAL_CFG_NET_SYNC, 1), (F.NET_TIME_STATUS_LOCKED, 1)] with backup := { State.reset.backup with sec := 1 } },
      by decide +kernel⟩,
    ⟨State.reset, by decide +kernel⟩,
    ⟨State.reset, by decide +kernel⟩⟩

/-- Premises of SoftwareResetNeedsItsKeyAndRest are met. -/
theorem witness_SoftwareResetNeedsItsKeyAndRest :
    (∃ (w : Word) (s : State), s.held = false ∧ bitsOf w 24 8 = 0x96 ∧ bitsOf w 0 8 = 1 ∧ s.anyArmed = false) ∧
    (∃ (w : Word) (s : State), s.held = false ∧ (bitsOf w 24 8 ≠ 0x96 ∨ bitsOf w 0 8 ≠ 1 ∨ s.anyArmed = true)) :=
  ⟨
    ⟨0x96000001, State.reset, by decide +kernel⟩,
    ⟨0x96000002, State.reset, by decide +kernel⟩⟩

/-- Premises of HostTransactionsExecute are met. -/
theorem witness_HostTransactionsExecute :
    (∃ (a : BitVec 16) (crc : Byte) (cyc : Nat) (s : State), s.held = false ∧ s.flag F.SUP_STATUS_VIO_OK = true ∧ s.host.freeAt
      ≤ s.now + cyc ∧ cyc ≤ s.sub ∧ headerOk 0 a crc = true ∧ a.toNat % 4 = 0 ∧ a.toNat < 0x7800 ∧ wideAt a.toNat = none ∧
      wideOfHi a.toNat = none ∧ (∀ r, findRow a.toNat = some r → r.rc = 0)) ∧
    (∃ (a : BitVec 16) (n : Fin 64) (crc : Byte) (cyc : Nat) (s : State), s.held = false ∧ s.flag F.SUP_STATUS_VIO_OK = true ∧
      s.host.freeAt ≤ s.now + cyc ∧ headerOk n a crc = false) ∧
    (∃ (a : BitVec 16) (n : Fin 64) (crc : Byte) (cyc : Nat) (s : State), s.held = false ∧ s.flag F.SUP_STATUS_VIO_OK = true ∧
      s.host.freeAt ≤ s.now + cyc ∧ headerOk n a crc = true ∧ a.toNat % 4 ≠ 0) ∧
    (∃ (s : State), s.held = false ∧ s.flag F.SUP_STATUS_VIO_OK = false) ∧
    (∃ (cyc : Nat) (s : State), s.held = false ∧ s.flag F.SUP_STATUS_VIO_OK = true ∧ s.now + cyc < s.host.freeAt) ∧
    (∃ (w : Word) (crcH : Byte) (crcD : Byte) (cyc : Nat) (s : State), s.held = false ∧ s.flag F.SUP_STATUS_VIO_OK = true ∧
      s.host.freeAt ≤ s.now + cyc ∧ headerOk 64 (BitVec.ofNat 16 R.FRM_IRQ_ENABLE) crcH = true ∧ crc8 (wordBytes [w]) =
      crcD.toNat) ∧
    (∃ (a : BitVec 16) (ws : List Word) (crcH : Byte) (crcD : Byte) (cyc : Nat) (s : State), s.held = false ∧ s.flag
      F.SUP_STATUS_VIO_OK = true ∧ s.host.freeAt ≤ s.now + cyc ∧ ws ≠ [] ∧ ws.length ≤ 64 ∧ headerOk (64 + ws.length - 1) a crcH
      = true ∧ a.toNat % 4 = 0 ∧ a.toNat + 4 * ws.length ≤ 0x10000 ∧ crc8 (wordBytes ws) ≠ crcD.toNat) ∧
    (∃ (v : Word) (w : Word) (crcH : Byte) (crcD : Byte) (cyc : Nat) (s : State), s.held = false ∧ s.flag F.SUP_STATUS_VIO_OK =
      true ∧ s.host.freeAt ≤ s.now + cyc ∧ headerOk 129 (BitVec.ofNat 16 R.FRM_IRQ_ENABLE) crcH = true ∧ crc8 (wordBytes [v, w])
      = crcD.toNat) ∧
    (∃ (crc : Byte) (cyc : Nat) (s : State), s.held = false ∧ s.flag F.SUP_STATUS_VIO_OK = true ∧ s.host.freeAt ≤ s.now + cyc ∧
      headerOk 0 (BitVec.ofNat 16 R.NVS_ENERGY_CNT) crc = true) ∧
    (∃ (cmd : Byte) (s : State), s.held = false ∧ 64 ≤ cmd.toNat) :=
  ⟨
    ⟨0x77FC, crcOf 0 0x77FC, 0, State.reset, by decide +kernel, by decide +kernel, by decide +kernel, by decide +kernel,
      by decide +kernel, by decide +kernel, by decide +kernel, by decide +kernel, by decide +kernel, rc_of _
      (by decide +kernel)⟩,
    ⟨0, 63, crcOf 63 0 + 1, 0, State.reset, by decide +kernel⟩,
    ⟨0x7FFE, 63, crcOf 63 0x7FFE, 0, State.reset, by decide +kernel⟩,
    ⟨setF [(F.SUP_STATUS_VIO_OK, 0)], by decide +kernel⟩,
    ⟨0, { State.reset with host := { State.reset.host with freeAt := 1 } }, by decide +kernel⟩,
    ⟨0xFF, crcOf 64 (BitVec.ofNat 16 R.FRM_IRQ_ENABLE), BitVec.ofNat 8 (crc8 (wordBytes [0xFF])), 0, State.reset,
      by decide +kernel⟩,
    ⟨0xFFFC, [0], crcOf 64 0xFFFC, BitVec.ofNat 8 (crc8 (wordBytes [0])) + 1, 0, State.reset, by decide +kernel⟩,
    ⟨1, 2, crcOf 129 (BitVec.ofNat 16 R.FRM_IRQ_ENABLE), BitVec.ofNat 8 (crc8 (wordBytes [1, 2])), 0, State.reset,
      by decide +kernel⟩,
    ⟨crcOf 0 (BitVec.ofNat 16 R.NVS_ENERGY_CNT), 0, State.reset, by decide +kernel⟩,
    ⟨64, State.reset, by decide +kernel⟩⟩

/-- Premises of DebugAndTestModes are met. -/
theorem witness_DebugAndTestModes :
    (∃ (s : State), s.held = false ∧ s.dbgLocked = false) ∧
    (∃ (s : State), s.held = false ∧ s.dbgLocked = true) ∧
    (∃ (s : State), s.held = false ∧ s.dbgLocked = false) ∧
    (∃ (s : State), s.held = false ∧ s.dbg.halt = true) ∧
    (∃ (s : State), s.held = false ∧ s.dbgLocked = false ∧ s.halted = true ∧ s.anyArmed = false) ∧
    (∃ (s : State), s.held = false ∧ s.anyArmed = true) ∧
    (∃ (s : State), s.held = false ∧ s.dbgLocked = false ∧ s.anyArmed = false) ∧
    (∃ (w : Word) (s : State), s.held = false ∧ bitsOf w 24 8 = 0xA5 ∧ bitsOf w 0 1 = 1 ∧ s.anyArmed = false ∧ s.flag
      F.SUP_STATUS_VM_GOOD = true) ∧
    (∃ (w : Word) (s : State), s.held = false ∧ bitsOf w 24 8 ≠ 0xA5) ∧
    (∃ (w : Word) (s : State), s.held = false ∧ bitsOf w 24 8 = 0xC3 ∧ s.dbgLocked = false ∧ s.testMode = 0 ∧ s.halted = true ∧
      s.anyArmed = false) ∧
    (∃ (s : State), s.held = false ∧ s.testMode = 0 ∧ s.halted = false) ∧
    (∃ (w : Word) (s : State), s.held = false ∧ bitsOf w 24 8 = 0xC3 ∧ s.dbgLocked = false ∧ s.testMode = 0 ∧ s.flag
      F.GDR_STATUS_DRV_EN = true ∧ (∀ n < 8, bitsOf w (16 + n) 1 = 1 → s.armed n = false ∧ s.latched n = false)) ∧
    (∃ (w : Word) (s : State), s.held = false ∧ bitsOf w 24 8 = 0xC3 ∧ s.dbgLocked = false ∧ s.testMode = 0 ∧ s.anyArmed =
      false) ∧
    (∃ (w : Word) (s : State), s.held = false ∧ bitsOf w 24 8 = 0xC3) ∧
    (∃ (s : State), s.held = false ∧ s.flag F.DBG_STATUS_TABLE_RELOAD = true) :=
  ⟨
    ⟨State.reset, by decide +kernel⟩,
    ⟨setF [(F.DBG_STATUS_LOCKED, 1)], by decide +kernel⟩,
    ⟨State.reset, by decide +kernel⟩,
    ⟨{ State.reset with dbg := { State.reset.dbg with halt := true } }, by decide +kernel⟩,
    ⟨setF [(F.DBG_STATUS_HALTED, 1)], by decide +kernel⟩,
    ⟨armedAt 7, by decide +kernel⟩,
    ⟨State.reset, by decide +kernel⟩,
    ⟨0xA5000001, setF [(F.SUP_STATUS_VM_GOOD, 1)], by decide +kernel⟩,
    ⟨0xA4000001, State.reset, by decide +kernel⟩,
    ⟨0xC3000000, setF [(F.DBG_STATUS_HALTED, 1)], by decide +kernel⟩,
    ⟨State.reset, by decide +kernel⟩,
    ⟨0xC3FF0000, setF [(F.GDR_STATUS_DRV_EN, 1)], by decide +kernel⟩,
    ⟨0xC3000000, State.reset, by decide +kernel⟩,
    ⟨0xC3000000, State.reset, by decide +kernel⟩,
    ⟨setF [(F.DBG_STATUS_TABLE_RELOAD, 1)], by decide +kernel⟩⟩

/-- Premises of TestAccessPort are met. -/
theorem witness_TestAccessPort :
    (∃ (s : State), s.held = false) ∧
    (∃ (s : State), s.held = false) ∧
    (∃ (s : State), s.held = false) ∧
    (∃ (s : State), s.held = false) ∧
    (∃ (s : State), s.held = false ∧ s.dbgLocked = false ∧ s.anyArmed = false) ∧
    (∃ (s : State), s.held = false ∧ s.dbgLocked = false ∧ s.anyArmed = false) ∧
    (∃ (s : State), s.held = false ∧ s.dbgLocked = false ∧ s.anyArmed = false) ∧
    (∃ (s : State), s.held = false ∧ s.dbgLocked = false ∧ s.anyArmed = true) ∧
    (∃ (a : BitVec 16) (s : State), s.held = false ∧ s.dbgLocked = false ∧ a.toNat % 4 = 0 ∧ a.toNat < 0x7800 ∧ wideAt a.toNat =
      none ∧ wideOfHi a.toNat = none ∧ (∀ r, findRow a.toNat = some r → r.rc = 0)) ∧
    (∃ (s : State), s.held = false ∧ s.dbgLocked = false) ∧
    (∃ (s : State), s.held = false ∧ s.dbgLocked = false) ∧
    (∃ (s : State), s.held = false ∧ s.dbgLocked = true) :=
  ⟨
    ⟨State.reset, by decide +kernel⟩,
    ⟨State.reset, by decide +kernel⟩,
    ⟨State.reset, by decide +kernel⟩,
    ⟨State.reset, by decide +kernel⟩,
    ⟨State.reset, by decide +kernel⟩,
    ⟨State.reset, by decide +kernel⟩,
    ⟨State.reset, by decide +kernel⟩,
    ⟨armedAt 7, by decide +kernel⟩,
    ⟨0x77FC, State.reset, by decide +kernel, by decide +kernel, by decide +kernel, by decide +kernel, by decide +kernel,
      by decide +kernel, rc_of _ (by decide +kernel)⟩,
    ⟨State.reset, by decide +kernel⟩,
    ⟨State.reset, by decide +kernel⟩,
    ⟨setF [(F.DBG_STATUS_LOCKED, 1)], by decide +kernel⟩⟩

/-- Premises of RegistersFollowTheirAccessTypes are met. -/
theorem witness_RegistersFollowTheirAccessTypes :
    (∃ (s : State), s.held = false) ∧
    (∃ (w : Word) (s : State), s.held = false ∧ s.anyArmed = false ∧ codesOk R.NVS_PLS_CFG w = true) ∧
    (∃ (p : Path) (w : Word) (s : State), s.held = false ∧ p ≠ .image ∧ s.anyArmed = true ∧ bitsOf w 0 7 ≠ s.get
      F.NVS_PLS_CFG_WAIT) ∧
    (∃ (a : BitVec 16) (s : State), s.held = false ∧ a.toNat < 0x7800 ∧ findRow a.toNat = none ∧ wideAt a.toNat = none ∧
      wideOfHi a.toNat = none) ∧
    (∃ (a : BitVec 16) (s : State), s.held = false ∧ a.toNat % 4 ≠ 0) ∧
    (∃ (s : State), s.held = false) ∧
    (∃ (s : State), s.held = false) ∧
    (∃ (a : BitVec 16) (width : Nat) (sg : Bool) (s : State), s.held = false ∧ a.toNat % 4 = 0 ∧ wideAt a.toNat = some (width,
      sg) ∧ a.toNat ≠ R.CAL_SEC_LO) ∧
    (∃ (p : Path) (hi : Word) (s : State), s.held = false ∧ findEntry p R.NET_TIME_SET_HI s.staged = some hi) ∧
    (∃ (p : Path) (s : State), s.held = false ∧ findEntry p R.NET_TIME_SET_HI s.staged = none) ∧
    (∃ (ball : Nat) (s : State), s.held = false ∧ s.scanning = false ∧ 0x200 ≤ ball ∧ ball < 0x258 ∧ ball ≠ 0x230) ∧
    (∃ (s : State), s.held = false ∧ s.scanning = true) :=
  ⟨
    ⟨State.reset, by decide +kernel⟩,
    ⟨100, State.reset, by decide +kernel⟩,
    ⟨.host, 0x7F, armedAt 7, by decide +kernel⟩,
    ⟨0x77FC, State.reset, by decide +kernel⟩,
    ⟨0xFFFF, State.reset, by decide +kernel⟩,
    ⟨State.reset, by decide +kernel⟩,
    ⟨State.reset, by decide +kernel⟩,
    ⟨BitVec.ofNat 16 (R.MOTn_VMAX 7), 40, true, State.reset, by decide +kernel⟩,
    ⟨.host, 9, { State.reset with staged := [(.host, R.NET_TIME_SET_HI, 9)] }, by decide +kernel⟩,
    ⟨.host, State.reset, by decide +kernel⟩,
    ⟨0x257, State.reset, by decide +kernel⟩,
    ⟨{ State.reset with dbg := { State.reset.dbg with tap := 0 } }, by decide +kernel⟩⟩

/-- Premises of RereadRepeatsTheLastRead are met. -/
theorem witness_RereadRepeatsTheLastRead :
    (∃ (a : BitVec 16) (b : BitVec 16) (n : Fin 64) (m : Fin 64) (crc : Byte) (crc2 : Byte) (cyc : Nat) (cyc2 : Nat) (s : State)
      (t : State), s.held = false ∧ s.flag F.SUP_STATUS_VIO_OK = true ∧ s.host.freeAt ≤ s.now + cyc ∧ headerOk n a crc = true ∧
      a.toNat % 4 = 0 ∧ a.toNat + 4 * (n.val + 1) ≤ 0x10000 ∧ exec (.hostRead a n crc cyc) s = .next t ∧ t.held = false ∧ t.flag
      F.SUP_STATUS_VIO_OK = true ∧ t.host.freeAt ≤ t.now + cyc2 ∧ headerOk (192 + m.val) b crc2 = true) ∧
    (∃ (b : BitVec 16) (m : Fin 64) (crc : Byte) (s : State), s.held = false ∧ s.flag F.SUP_STATUS_VIO_OK = true ∧ s.host =
      State.reset.host ∧ headerOk (192 + m.val) b crc = true) :=
  ⟨
    ⟨0x7F00, 0, 63, 63, crcOf 63 0x7F00, crcOf 255 0, 0, 0, State.reset, _, by decide +kernel, by decide +kernel,
      by decide +kernel, by decide +kernel, by decide +kernel, by decide +kernel, rfl, by decide +kernel, by decide +kernel,
      by decide +kernel, by decide +kernel⟩,
    ⟨0, 63, crcOf 255 0, State.reset, by decide +kernel⟩⟩

end Sys2Proof.Tests
end

section
/-!
The event log shown through NVS_LOG_SEL (R376): what a run of register writes leaves and shows, what a selection of an entry
does, and the statement about it.
-/
namespace Sys2Proof.Machine

/-! ## A run of register writes -/

section writes
variable (addr : Nat → Nat) (v : Nat → Word)

/-- Writes one word per index, in the order of the list. -/
def wrEach (xs : List Nat) (s : State) : State := xs.foldl (fun s i => s.wr (addr i) (v i)) s

theorem wrEach_only_regs (xs : List Nat) (s : State) : wrEach addr v xs s = { s with regs := (wrEach addr v xs s).regs } :=
  foldl_keeps (fun u => u = { s with regs := u.regs }) _ xs (fun u i _ hu => by rw [hu]; rfl) s rfl

theorem wrEach_keeps (xs : List Nat) (s : State) : KeepsRegs (xs.map addr) s (wrEach addr v xs s) :=
  foldl_keeps (KeepsRegs (xs.map addr) s) _ xs
    (fun u i hi hu => hu.trans (keeps_wr u (addr i) (v i) (List.mem_map_of_mem hi))) s (KeepsRegs.refl _ s)

/-- Where the addresses differ, each register shows the word of its own index. -/
theorem rd_wrEach (haddr : Function.Injective addr) (xs : List Nat) (s : State) (i : Nat) (hi : i ∈ xs) :
    (wrEach addr v xs s).rd (addr i) = v i := by
  induction xs generalizing s with
  | nil => exact absurd hi List.not_mem_nil
  | cons x xs ih =>
    by_cases hx : i ∈ xs
    · exact ih (s.wr (addr x) (v x)) hx
    · obtain rfl : i = x := (List.mem_cons.mp hi).resolve_right hx
      have hout : addr i ∉ xs.map addr := fun h => by
        obtain ⟨j, hj, hij⟩ := List.mem_map.mp h
        exact hx (haddr hij ▸ hj)
      exact (wrEach_keeps addr v xs (s.wr (addr i) (v i)) (addr i) hout).trans (rd_wr_same s (addr i) (v i))
end writes

/-! ## The selection of a log entry (R376) -/

/-- The entry that a SEQ selects: the first with that SEQ in MRAM, then in the buffer, whose CRC holds. -/
def heldEntry (w : Word) (s : State) : Option LogEntry :=
  (s.log.area ++ s.log.buf).find? fun e => decide (e.seq = w.toNat) && !s.log.badSeqs.contains e.seq

/-- Word `i` of what is shown: of the entry's bytes, or 0 where no entry is held. -/
def shownWord (o : Option LogEntry) (i : Nat) : Word := BitVec.ofNat 32 (rdN ((o.map LogEntry.bytes).getD []) (4 * i) 4)

theorem shownWord_none (i : Nat) : shownWord none i = 0 := by simp [shownWord, rdN, ofLe]

/-- No entry is shown for a SEQ whose every entry has a failed CRC. -/
theorem heldEntry_eq_none {w : Word} {s : State}
    (h : ∀ e ∈ s.log.area ++ s.log.buf, e.seq = w.toNat → e.seq ∈ s.log.badSeqs) : heldEntry w s = none := by
  refine List.find?_eq_none.mpr fun e he hsel => ?_
  obtain ⟨hseq, hgood⟩ : e.seq = w.toNat ∧ e.seq ∉ s.log.badSeqs := by simpa using hsel
  exact hgood (h e he hseq)

theorem logSelect_eq_wrEach (w : Word) (s : State) :
    logSelect w s = wrEach R.NVS_LOG_ENTRYw (shownWord (heldEntry w s)) (List.range 8)
      ((s.wr R.NVS_LOG_SEL w).putB F.NVS_LOG_LOST_FOUND (heldEntry w s).isSome) := rfl

theorem NVS_LOG_ENTRYw_injective : Function.Injective R.NVS_LOG_ENTRYw := fun i j h => by
  unfold R.NVS_LOG_ENTRYw at h
  omega

theorem logSelect_only_regs (w : Word) (s : State) : logSelect w s = { s with regs := (logSelect w s).regs } := by
  rw [logSelect_eq_wrEach, wrEach_only_regs]
  rfl

/-- Outside the entry words the selection is what its first two writes leave. -/
theorem logSelect_rd_other (w : Word) (s : State) (a : Nat) (ha : a ∉ (List.range 8).map R.NVS_LOG_ENTRYw) :
    (logSelect w s).rd a = ((s.wr R.NVS_LOG_SEL w).putB F.NVS_LOG_LOST_FOUND (heldEntry w s).isSome).rd a := by
  rw [logSelect_eq_wrEach]
  exact wrEach_keeps _ _ _ _ a ha

theorem logSelect_keeps (w : Word) (s : State) :
    KeepsRegs ([R.NVS_LOG_SEL, R.NVS_LOG_LOST] ++ (List.range 8).map R.NVS_LOG_ENTRYw) s (logSelect w s) := by
  intro a ha
  simp only [List.mem_append, List.mem_cons, List.not_mem_nil, or_false, not_or] at ha
  obtain ⟨⟨hsel, hlost⟩, hentry⟩ := ha
  calc (logSelect w s).rd a
      = ((s.wr R.NVS_LOG_SEL w).putB F.NVS_LOG_LOST_FOUND (heldEntry w s).isSome).rd a := logSelect_rd_other w s a hentry
    _ = (s.wr R.NVS_LOG_SEL w).rd a := rd_put_other _ _ _ _ hlost
    _ = s.rd a := rd_wr_other _ _ _ _ hsel

theorem logSelect_rd_sel (w : Word) (s : State) : (logSelect w s).rd R.NVS_LOG_SEL = w := by
  rw [logSelect_rd_other w s _ (by decide)]
  exact (rd_put_other _ _ _ _ (by decide)).trans (rd_wr_same _ _ _)

theorem logSelect_found (w : Word) (s : State) : (logSelect w s).flag F.NVS_LOG_LOST_FOUND = (heldEntry w s).isSome :=
  (flag_congr (logSelect_rd_other w s _ (by decide))).trans (flag_putB_same _ _ _ (by decide) rfl)

theorem logSelect_rd_entry (w : Word) (s : State) (i : Nat) (hi : i < 8) :
    (logSelect w s).rd (R.NVS_LOG_ENTRYw i) = shownWord (heldEntry w s) i := by
  rw [logSelect_eq_wrEach]
  exact rd_wrEach _ _ NVS_LOG_ENTRYw_injective _ _ i (List.mem_range.mpr hi)

/-- On a running device the command is the write of NVS_LOG_SEL, which leaves the waiting commands itself. -/
theorem does_logSelect {p : Path} {w : Word} {s : State} {P : State → Prop} (h : s.held = false) (hp : P (logSelect w s)) :
    Does (.logSelect p w) s P := by
  have hact : s.act (logSelect w) = logSelect w s := by
    unfold State.act
    rw [logSelect_only_regs]
  exact does_live rfl h (hact ▸ hp)

/-- Settles O51: the selection writes FOUND and the eight words of the entry that the SEQ finds, and no other register. -/
theorem selectedLogEntriesAreShown : Obligations.SelectedLogEntriesAreShown := by
  refine ⟨fun p w s e hrun hheld => does_logSelect hrun ?_, fun p w s hrun hbad => does_logSelect hrun ?_⟩
  · have hentry : heldEntry w s = some e := hheld
    refine ⟨?_, logSelect_rd_sel w s, fun i hi => ?_, logSelect_only_regs w s, logSelect_keeps w s⟩
    · rw [logSelect_found, hentry, Option.isSome_some]
    · rw [logSelect_rd_entry w s i hi, hentry]
      rfl
  · have hentry : heldEntry w s = none := heldEntry_eq_none hbad
    refine ⟨?_, fun i hi => ?_⟩
    · rw [logSelect_found, hentry, Option.isSome_none]
    · rw [logSelect_rd_entry w s i hi, hentry, shownWord_none]

end Sys2Proof.Machine
end

section
/-!
The reset of the control die by software (R391, R394): what the operations that a reset cuts short leave, the registers and the
gates after a reset, and the statement about SUP_RST_CMD.
-/
namespace Sys2Proof.Machine

/-! ## A field of merged words -/

theorem getLsbD_mergeMask (old new : Word) (mask i : Nat) (hi : i < 32) :
    (mergeMask old new mask).getLsbD i = if mask.testBit i then new.getLsbD i else old.getLsbD i := by
  unfold mergeMask
  rw [BitVec.getLsbD_or, BitVec.getLsbD_and, BitVec.getLsbD_and, BitVec.getLsbD_not, BitVec.getLsbD_ofNat]
  by_cases h : mask.testBit i <;> simp [h, hi]

/-- A field that the mask covers is the new word's. -/
theorem bitsOf_mergeMask (old new : Word) (mask lo len : Nat) (h : lo + len ≤ 32)
    (hm : ∀ i < len, mask.testBit (lo + i) = true) : bitsOf (mergeMask old new mask) lo len = bitsOf new lo len := by
  apply Nat.eq_of_testBit_eq
  intro i
  rw [testBit_bitsOf, testBit_bitsOf]
  by_cases hi : i < len
  · rw [getLsbD_mergeMask _ _ _ _ (by omega), if_pos (hm i hi)]
  · simp [hi]

/-! ## The operations that a reset cuts short (R55, R363, R371) -/

/-- The state from which a reset takes what it leaves: the running store, commit and fuse operation are cut short. -/
def State.cutShort (s : State) (cause : Nat) : State :=
  otpInterrupted ((s.cutStore (decide (4 ≤ cause ∧ cause ≤ 6))).cutCommit)

/-- What an operation cut short leaves: every register but CFG_KEY_STATUS, the banks, the backup and guard domains, the log
in MRAM. -/
structure CutLeaves (s t : State) : Prop where
  regs : KeepsRegs [R.CFG_KEY_STATUS] s t
  banks : t.cfg.banks = s.cfg.banks
  backup : t.backup = s.backup
  guard : t.guard = s.guard
  area : t.log.area = s.log.area

theorem CutLeaves.refl (s : State) : CutLeaves s s := ⟨KeepsRegs.refl _ s, rfl, rfl, rfl, rfl⟩

theorem CutLeaves.trans {s t u : State} (h : CutLeaves s t) (g : CutLeaves t u) : CutLeaves s u :=
  ⟨h.regs.trans g.regs, g.banks.trans h.banks, g.backup.trans h.backup, g.guard.trans h.guard, g.area.trans h.area⟩

theorem cutStore_leaves (s : State) (late : Bool) : CutLeaves s (s.cutStore late) := by
  unfold State.cutStore
  split
  · exact ⟨KeepsRegs.of_regs rfl, rfl, rfl, rfl, rfl⟩
  · exact CutLeaves.refl s

theorem cutCommit_leaves (s : State) : CutLeaves s s.cutCommit := by
  unfold State.cutCommit
  split
  · exact CutLeaves.refl s
  · exact ⟨KeepsRegs.of_regs rfl, rfl, rfl, rfl, rfl⟩

theorem setKey_leaves (s : State) (slot : Nat) (k : KeySlot) : CutLeaves s (s.setKey slot k) := by
  refine ⟨?_, rfl, rfl, rfl, rfl⟩
  unfold State.setKey
  exact (KeepsRegs.of_regs rfl).trans ((keeps_put _ _ _ (by simp)).trans (keeps_put _ _ _ (by simp)))

theorem otpInterrupted_leaves (s : State) : CutLeaves s (otpInterrupted s) := by
  unfold otpInterrupted
  split
  · next slot _ =>
    have hdone : CutLeaves s { s with free := s.free + 1, cfg := { s.cfg with otpOp := none } } :=
      ⟨KeepsRegs.of_regs rfl, rfl, rfl, rfl, rfl⟩
    dsimp only [State.fresh]
    split
    · exact hdone.trans (setKey_leaves _ _ _)
    · exact hdone
  · exact ⟨KeepsRegs.of_regs rfl, rfl, rfl, rfl, rfl⟩

theorem cutShort_leaves (s : State) (cause : Nat) : CutLeaves s (s.cutShort cause) :=
  (cutStore_leaves s _).trans ((cutCommit_leaves _).trans (otpInterrupted_leaves _))

theorem shortLatched_congr {s t : State} {n : Nat} (h : t.rd (R.CURn_GUARD n) = s.rd (R.CURn_GUARD n)) :
    t.shortLatched n = s.shortLatched n := by
  unfold State.shortLatched
  rw [flag_congr h]

theorem CURn_GUARD_ne_CFG_KEY_STATUS (n : Nat) : R.CURn_GUARD n ≠ R.CFG_KEY_STATUS := by
  unfold R.CURn_GUARD R.CFG_KEY_STATUS
  omega

theorem cutShort_shortLatched (s : State) (cause n : Nat) : (s.cutShort cause).shortLatched n = s.shortLatched n :=
  shortLatched_congr ((cutShort_leaves s cause).regs _ (by simpa using CURn_GUARD_ne_CFG_KEY_STATUS n))

/-! ## The registers after a reset (R391) -/

/-- A register of which a reset leaves the bits of a mask. -/
def keepBits (s : State) (m : SMap Word) (p : Nat × Nat) : SMap Word :=
  SMap.set resetWord m p.1 (mergeMask (resetWord p.1) (s.rd p.1) p.2)

theorem get_keepBits_other (s : State) (l : List (Nat × Nat)) (m : SMap Word) (a : Nat) (ha : a ∉ l.map Prod.fst) :
    SMap.get resetWord (l.foldl (keepBits s) m) a = SMap.get resetWord m a := by
  induction l generalizing m with
  | nil => rfl
  | cons p l ih =>
    rw [List.map_cons, List.mem_cons, not_or] at ha
    obtain ⟨hp, hl⟩ := ha
    exact (ih (keepBits s m p) hl).trans (SMap.get_set_other _ _ _ _ _ hp)

/-- Where each register stands once in the list, it keeps the bits of its own mask. -/
theorem get_keepBits_mem (s : State) (l : List (Nat × Nat)) (m : SMap Word) (p : Nat × Nat)
    (hl : (l.map Prod.fst).Nodup) (hp : p ∈ l) :
    SMap.get resetWord (l.foldl (keepBits s) m) p.1 = mergeMask (resetWord p.1) (s.rd p.1) p.2 := by
  induction l generalizing m with
  | nil => exact absurd hp List.not_mem_nil
  | cons q l ih =>
    rw [List.map_cons, List.nodup_cons] at hl
    obtain ⟨hq, hl⟩ := hl
    rcases List.mem_cons.mp hp with rfl | hp
    · exact (get_keepBits_other s l _ _ hq).trans (SMap.get_set_same _ _ _ _)
    · exact ih (keepBits s m q) hl hp

theorem keptRegs_cause (s : State) (cause : Nat) :
    SMap.get resetWord (s.keptRegs cause) R.SUP_RST_CAUSE = BitVec.ofNat 32 cause := SMap.get_set_same _ _ _ _

theorem keptRegs_other (s : State) (cause a : Nat) (ha : a ∉ keptAtReset) :
    SMap.get resetWord (s.keptRegs cause) a = resetWord a := by
  have hcause : a ≠ R.SUP_RST_CAUSE := fun h => ha (h ▸ by decide)
  have hbank : a ≠ R.CFG_STATUS := fun h => ha (h ▸ by decide)
  unfold State.keptRegs
  rw [SMap.get_set_other _ _ _ _ _ hcause, SMap.get_set_other _ _ _ _ _ hbank]
  exact get_keepBits_other s _ [] a fun h => ha ((by decide : ∀ x ∈ List.map Prod.fst _, x ∈ keptAtReset) a h)

theorem keptRegs_guard (s : State) (cause n : Nat) (hn : n < 2) :
    SMap.get resetWord (s.keptRegs cause) (R.CURn_GUARD n) =
      mergeMask (resetWord (R.CURn_GUARD n)) (s.rd (R.CURn_GUARD n)) 8 := by
  have hcause : R.CURn_GUARD n ≠ R.SUP_RST_CAUSE := by
    unfold R.CURn_GUARD R.SUP_RST_CAUSE
    omega
  have hbank : R.CURn_GUARD n ≠ R.CFG_STATUS := by
    unfold R.CURn_GUARD R.CFG_STATUS
    omega
  unfold State.keptRegs
  rw [SMap.get_set_other _ _ _ _ _ hcause, SMap.get_set_other _ _ _ _ _ hbank]
  refine get_keepBits_mem s _ [] (R.CURn_GUARD n, 8) (by decide) ?_
  obtain rfl | rfl : n = 0 ∨ n = 1 := by omega
  · decide
  · decide

/-- The guard domain's latch of a short outlives the reset. -/
theorem shortLatched_of_keptRegs {s t : State} {cause n : Nat} (hn : n < 2)
    (ht : t.rd (R.CURn_GUARD n) = SMap.get resetWord (s.keptRegs cause) (R.CURn_GUARD n)) :
    t.shortLatched n = s.shortLatched n := by
  rw [keptRegs_guard s cause n hn] at ht
  have hfield : t.get (F.CURn_GUARD_SHORT_LATCHED n) = s.get (F.CURn_GUARD_SHORT_LATCHED n) :=
    (congrArg (bitsOf · 3 1) ht).trans (bitsOf_mergeMask _ _ _ _ _ (by decide) (by decide))
  unfold State.shortLatched State.flag
  rw [hfield]

/-! ## The axes and the gates after a reset (R391, Table 7.4) -/

theorem armed_of_axes_reset {t : State} (ht : t.axes = State.reset.axes) (n : Nat) : t.armed n = false := by
  have hax : t.ax n = restAxis := by
    have hlist : State.reset.axes.toList = List.replicate 8 restAxis := rfl
    unfold State.ax
    rw [ht, hlist, List.getD_eq_getElem?_getD, List.getElem?_replicate]
    split
    · rfl
    · rfl
  unfold State.armed
  rw [hax]
  rfl

theorem off_low_lsOn (b : Bridge) : (b.off false).lsOn = false := by
  unfold Bridge.off
  rw [if_neg Bool.false_ne_true]
  generalize (if b.wait = some false then { b with wait := none } else b) = b1
  split
  · rfl
  · next hon => exact Bool.eq_false_iff.mpr hon

/-- Bridge `k` in reset: its high side is off, and its low side unless a latched short holds it. -/
theorem resetGates_off (s : State) (k : Fin 32) :
    (s.resetGates[k.val]).hsOn = false ∧ (s.shortLatched (k / 4) = false → (s.resetGates[k.val]).lsOn = false) := by
  unfold State.resetGates
  rw [Vector.getElem_ofFn]
  refine ⟨rfl, fun h => ?_⟩
  simp only [h, Bool.and_false]
  exact off_low_lsOn _

theorem br_eq_getElem {t : State} {v : Vector Bridge 32} (ht : t.bridges = v) (k : Nat) (hk : k < 32) : t.br k = v[k] := by
  unfold State.br
  rw [ht]
  simp [List.getD, hk]

/-! ## The log and the store shown -/

/-- The registers that show the log and the store in MRAM. -/
def mramShownRegs : List Nat := [R.NVS_LOG_HEAD, R.NVS_LOG_TAIL, R.NVS_PLS_STATUS, R.NVS_STATUS]

theorem logShow_keeps (s : State) : KeepsRegs mramShownRegs s s.logShow :=
  (keeps_put _ F.NVS_LOG_HEAD_SEQ _ (by decide)).trans (keeps_put _ F.NVS_LOG_TAIL_SEQ _ (by decide))

theorem plsShow_keeps (s : State) : KeepsRegs mramShownRegs s s.plsShow := by
  unfold State.plsShow
  split
  · exact keeps_put _ _ _ (by decide)
  · exact (keeps_put _ _ _ (by decide)).trans ((keeps_put _ _ _ (by decide)).trans
      ((keeps_put _ _ _ (by decide)).trans (keeps_put _ _ _ (by decide))))

/-- What no field of a register holds is as before the log and the store are shown. -/
theorem shown_same {α : Type} (g : State → α) (hg : ∀ s f v, g (State.put s f v) = g s) (s : State) :
    g s.logShow.plsShow = g s := by
  have hlog : g s.logShow = g s := (hg _ _ _).trans (hg _ _ _)
  unfold State.plsShow
  split
  · exact (hg _ _ _).trans hlog
  · exact (hg _ _ _).trans ((hg _ _ _).trans ((hg _ _ _).trans ((hg _ _ _).trans hlog)))

theorem shown_keeps (s : State) : KeepsRegs mramShownRegs s s.logShow.plsShow :=
  (logShow_keeps s).trans (plsShow_keeps _)

theorem mramShownRegs_kept : ∀ a ∈ mramShownRegs, a ∈ keptAtReset := by decide

/-! ## The reset of the control die (R391) -/

section reset
variable (s : State) (cause : Nat) (power : Bool)

theorem controlReset_held : (s.controlReset cause power).held = true :=
  shown_same State.held (fun _ _ _ => rfl) _

theorem controlReset_power : (s.controlReset cause power).sup.power = power :=
  shown_same (fun t => t.sup.power) (fun _ _ _ => rfl) _

theorem controlReset_axes : (s.controlReset cause power).axes = State.reset.axes :=
  shown_same State.axes (fun _ _ _ => rfl) _

theorem controlReset_bridges : (s.controlReset cause power).bridges = (s.cutShort cause).resetGates :=
  shown_same State.bridges (fun _ _ _ => rfl) _

theorem controlReset_banks : (s.controlReset cause power).cfg.banks = s.cfg.banks :=
  (shown_same (fun t => t.cfg.banks) (fun _ _ _ => rfl) _).trans (cutShort_leaves s cause).banks

theorem controlReset_backup : (s.controlReset cause power).backup = s.backup :=
  (shown_same State.backup (fun _ _ _ => rfl) _).trans (cutShort_leaves s cause).backup

theorem controlReset_guard : (s.controlReset cause power).guard = s.guard :=
  (shown_same State.guard (fun _ _ _ => rfl) _).trans (cutShort_leaves s cause).guard

theorem controlReset_area : (s.controlReset cause power).log.area = s.log.area :=
  (shown_same (fun t => t.log.area) (fun _ _ _ => rfl) _).trans (cutShort_leaves s cause).area

theorem controlReset_rd (a : Nat) (ha : a ∉ mramShownRegs) :
    (s.controlReset cause power).rd a = SMap.get resetWord ((s.cutShort cause).keptRegs cause) a :=
  shown_keeps _ a ha

theorem controlReset_rd_reset (a : Nat) (ha : a ∉ keptAtReset) : (s.controlReset cause power).rd a = resetWord a :=
  (controlReset_rd s cause power a fun h => ha (mramShownRegs_kept a h)).trans (keptRegs_other _ cause a ha)

theorem CURn_GUARD_not_shown (n : Nat) (hn : n < 2) :
    R.CURn_GUARD n ∉ mramShownRegs := by
  obtain rfl | rfl : n = 0 ∨ n = 1 := by omega
  · decide
  · decide

theorem controlReset_shortLatched (n : Nat) (hn : n < 2) :
    (s.controlReset cause power).shortLatched n = s.shortLatched n :=
  (shortLatched_of_keptRegs hn (controlReset_rd s cause power _ (CURn_GUARD_not_shown n hn))).trans
    (cutShort_shortLatched s cause n)

theorem controlReset_gates (k : Nat) (hk : k < 32) :
    ((s.controlReset cause power).br k).hsOn = false ∧
      (s.shortLatched (k / 4) = false → ((s.controlReset cause power).br k).lsOn = false) := by
  rw [br_eq_getElem (controlReset_bridges s cause power) k hk, ← cutShort_shortLatched s cause]
  exact resetGates_off (s.cutShort cause) ⟨k, hk⟩

/-- From every state and for every cause, the reset leaves what Table 16.3 and R391 say. -/
theorem controlReset_resets : ControlReset cause power s (s.controlReset cause power) :=
  ⟨controlReset_held s cause power, controlReset_power s cause power,
   (controlReset_rd s cause power _ (by decide)).trans (keptRegs_cause _ cause),
   armed_of_axes_reset (controlReset_axes s cause power), controlReset_gates s cause power,
   controlReset_shortLatched s cause power, controlReset_banks s cause power, controlReset_backup s cause power,
   controlReset_guard s cause power, controlReset_area s cause power, controlReset_rd_reset s cause power⟩
end reset

/-- A reset does not depend on the waiting commands. -/
theorem ControlReset.act {cause : Nat} {power : Bool} {s : State} {f : State → State}
    (h : ControlReset cause power s (f s)) : ControlReset cause power s (s.act f) := h

theorem act_of_fixed {s : State} {f : State → State} (h : f s = s) : s.act f = s := by
  unfold State.act
  rw [h]

/-! ## A write of SUP_RST_CMD (R394) -/

theorem rstCmd_taken {w : Word} {s : State} (hkey : bitsOf w 24 8 = 0x96) (hcmd : bitsOf w 0 8 = 1)
    (hrest : s.anyArmed = false) : rstCmd w s = (true, s.controlReset 6 true) := by
  unfold rstCmd
  rw [if_pos ⟨hkey, hcmd, by rw [hrest]; rfl⟩]

theorem rstCmd_refused {w : Word} {s : State}
    (hbad : bitsOf w 24 8 ≠ 0x96 ∨ bitsOf w 0 8 ≠ 1 ∨ s.anyArmed = true) : rstCmd w s = (false, s) := by
  have hno : ¬(bitsOf w 24 8 = 0x96 ∧ bitsOf w 0 8 = 1 ∧ (!s.anyArmed) = true) := by
    rintro ⟨hkey, hcmd, hrest⟩
    rcases hbad with h | h | h
    · exact h hkey
    · exact h hcmd
    · rw [h] at hrest
      exact absurd hrest (by decide)
  unfold rstCmd
  rw [if_neg hno]

theorem writeWord_SUP_RST_CMD (p : Path) (w : Word) (s : State) : writeWord p R.SUP_RST_CMD w s = rstCmd w s := rfl

/-- SUP_RST_CMD holds no part of a wide value: where its word is refused, the write of the register is. -/
theorem writeReg_SUP_RST_CMD_refused {p : Path} {w : Word} {s : State} (h : rstCmd w s = (false, s)) :
    writeReg p R.SUP_RST_CMD w s = (false, s) := by
  have hlow : wideAt R.SUP_RST_CMD = none := by decide
  have hhigh : wideOfHi R.SUP_RST_CMD = none := by decide
  unfold writeReg
  rw [hlow, hhigh]
  simp only [writeWord_SUP_RST_CMD, h, Bool.false_eq_true, if_false]

theorem does_softwareReset {p : Path} {w : Word} {s : State} {P : State → Prop} (h : s.held = false)
    (hp : P (s.act fun s => (rstCmd w s).2)) : Does (.softwareReset p w) s P := does_live rfl h hp

/-- Settles O55: with its key, RESET and no axis armed the write is the reset with cause SOFTWARE; else it is refused. -/
theorem softwareResetNeedsItsKeyAndRest : Obligations.SoftwareResetNeedsItsKeyAndRest := by
  refine ⟨fun p w s hrun hkey hcmd hrest => does_softwareReset hrun (ControlReset.act ?_), fun p w s hrun hbad => ?_⟩
  · rw [rstCmd_taken hkey hcmd hrest]
    exact controlReset_resets s 6 true
  · have href : rstCmd w s = (false, s) := rstCmd_refused hbad
    exact does_softwareReset hrun ⟨act_of_fixed (congrArg Prod.snd href), writeReg_SUP_RST_CMD_refused href⟩

end Sys2Proof.Machine
end

section
/-!
REREAD of host port H (R417): what a transaction that the port takes leaves, what an executed READ leaves in the port, what a
REREAD sends, and the statement about both.
-/
namespace Sys2Proof.Machine

/-! ## A transaction that the port takes (R411, R416) -/

/-- The state in which a taken transaction begins: the time of the falling HCS_N, and no byte sent yet. -/
def State.opened (s : State) (cyc : Nat) : State := (s.at cyc).hostOut []

/-- The port takes the transaction: the status of the one before leads what the new one sends. -/
theorem transact_taken {s : State} {cyc : Nat} (f : State → State) (hvio : s.flag F.SUP_STATUS_VIO_OK = true)
    (hfree : s.host.freeAt ≤ s.now + cyc) :
    s.transact cyc f =
      (f (s.opened cyc)).hostOut (leBytes 1 (s.get F.HOST_TSTAT_STATUS) ++ (f (s.opened cyc)).host.out) := by
  simp only [State.transact, hvio, Bool.not_true, Bool.false_eq_true, if_false, if_neg (Nat.not_lt.mpr hfree), State.opened]

theorem get_tstat_status (s : State) {status : Nat} (exec : Nat) (h : status < 256) :
    (s.tstat status exec).get F.HOST_TSTAT_STATUS = status := by
  have hword : (s.tstat status exec).rd R.HOST_TSTAT = BitVec.ofNat 32 (status + exec * 256) := rd_wr_same _ _ _
  change bitsOf ((s.tstat status exec).rd R.HOST_TSTAT) 0 8 = status
  rw [hword, bitsOf, BitVec.toNat_ofNat]
  omega

/-! ## What an executed READ leaves in the port (R414, R415) -/

/-- The port holds the words and the status byte that its last transaction sent, and that status says executed. -/
structure SentRead (t : State) : Prop where
  out : t.host.out.drop 1 = dataOut t.host.words t.host.readStatus
  status : t.get F.HOST_TSTAT_STATUS = t.host.readStatus
  executed : t.host.readStatus % 2 = 0

/-- The status of a transaction that executed is a byte whose REFUSED bit is 0. -/
theorem statusByte_executed (s : State) : s.statusByte 0 < 256 ∧ s.statusByte 0 % 2 = 0 := by
  unfold State.statusByte b2n
  split <;> omega

theorem burstBad_of_fits {a n : Nat} (halign : a % 4 = 0) (hfit : a + 4 * n ≤ 0x10000) : burstBad a n false = false := by
  simp [burstBad, halign, Nat.not_lt.mpr hfit]

/-- Whatever bytes lead it, a READ that is not refused whole leaves in the port what it sends. -/
theorem hostRead_sent {a n : Nat} {s : State} (lead : Byte) (hburst : burstBad a n false = false) :
    SentRead ((hostRead a n s).hostOut (lead :: (hostRead a n s).host.out)) := by
  unfold hostRead
  rw [hburst, if_neg Bool.false_ne_true]
  obtain ⟨hbyte, heven⟩ := statusByte_executed (readWords .host ((List.range n).map (burstAddr a false)) s).2
  exact ⟨rfl, get_tstat_status _ _ hbyte, heven⟩

theorem exec_hostRead_sent {a : BitVec 16} {n : Fin 64} {crc : Byte} {cyc : Nat} {s t : State} (hrun : s.held = false)
    (hvio : s.flag F.SUP_STATUS_VIO_OK = true) (hfree : s.host.freeAt ≤ s.now + cyc) (hhead : headerOk n a crc = true)
    (halign : a.toNat % 4 = 0) (hfit : a.toNat + 4 * (n.val + 1) ≤ 0x10000)
    (hread : exec (.hostRead a n crc cyc) s = .next t) : SentRead t := by
  obtain ⟨u, hu, hsent⟩ : Does (.hostRead a n crc cyc) s SentRead := by
    refine does_live rfl hrun ?_
    obtain ⟨hout, hstatus, hexec⟩ :=
      hostRead_sent (s := s.opened cyc) (BitVec.ofNat 8 (s.get F.HOST_TSTAT_STATUS)) (burstBad_of_fits halign hfit)
    rw [State.act, transact_taken _ hvio hfree, if_pos hhead]
    exact ⟨hout, hstatus, hexec⟩
  rw [hread] at hu
  cases hu
  exact hsent

/-! ## REREAD (R417) -/

/-- A REREAD reads no register: the state but for HOST_TSTAT and the bytes sent is as before. -/
theorem hostReread_only (s : State) :
    OnlyRegs [R.HOST_TSTAT] { s with host := (hostReread s).host } (hostReread s) :=
  ⟨rfl, keeps_wr _ R.HOST_TSTAT _ (List.mem_singleton_self _)⟩

/-- Where the last READ was not refused, its words are sent again under its status byte. -/
theorem hostReread_out {s : State} (hexec : s.host.readStatus % 2 = 0) :
    (hostReread s).host.out = dataOut s.host.words s.host.readStatus :=
  if_neg (by omega)

theorem hostReread_status {s : State} (h : s.host.readStatus < 256) :
    (hostReread s).get F.HOST_TSTAT_STATUS = s.host.readStatus :=
  get_tstat_status s 0 h

/-- N and the address of a REREAD with a good header do not matter: it sends what the port holds of the last READ. -/
theorem does_hostReread {b : BitVec 16} {m : Fin 64} {crc : Byte} {cyc : Nat} {s : State} (hrun : s.held = false)
    (hvio : s.flag F.SUP_STATUS_VIO_OK = true) (hfree : s.host.freeAt ≤ s.now + cyc)
    (hhead : headerOk (192 + m.val) b crc = true) (hexec : s.host.readStatus % 2 = 0) (hbyte : s.host.readStatus < 256) :
    Does (.hostReread b m crc cyc) s fun u =>
      u.host.out = leBytes 1 (s.get F.HOST_TSTAT_STATUS) ++ dataOut s.host.words s.host.readStatus ∧
      u.get F.HOST_TSTAT_STATUS = s.host.readStatus ∧
      OnlyRegs [R.HOST_TSTAT] { s with sub := u.sub, host := u.host } u := by
  refine does_live rfl hrun ?_
  obtain ⟨-, hkeeps⟩ := hostReread_only (s.opened cyc)
  rw [State.act, transact_taken _ hvio hfree, if_pos hhead]
  exact ⟨congrArg (leBytes 1 _ ++ ·) (hostReread_out (s := s.opened cyc) hexec),
    hostReread_status (s := s.opened cyc) hbyte, rfl, hkeeps⟩

/-- Settles O60: an executed READ leaves in the port what it sent, and a REREAD sends what the port holds, at reset one word
of 0. -/
theorem rereadRepeatsTheLastRead : Obligations.RereadRepeatsTheLastRead := by
  refine ⟨fun a b n m crc crc2 cyc cyc2 s t hrun hvio hfree hhead halign hfit hread hrunT hvioT hfreeT hheadT => ?_,
    fun b m crc cyc s hrun hvio hhost hhead => ?_⟩
  · obtain ⟨hout, hstatus, hexec⟩ := exec_hostRead_sent hrun hvio hfree hhead halign hfit hread
    have hbyte : t.host.readStatus < 256 := hstatus ▸ bitsOf_lt _ _ _
    simpa only [hout, hstatus] using does_hostReread hrunT hvioT hfreeT hheadT hexec hbyte
  · have hfree : s.host.freeAt ≤ s.now + cyc := hhost ▸ Nat.zero_le _
    have hexec : s.host.readStatus % 2 = 0 := hhost ▸ rfl
    have hbyte : s.host.readStatus < 256 := hhost ▸ by decide
    obtain ⟨u, hu, hout, -, honly⟩ := does_hostReread hrun hvio hfree hhead hexec hbyte
    rw [hhost] at hout
    exact ⟨u, hu, hout, honly⟩

end Sys2Proof.Machine
end
